-- ==== Sys2Proof/Word.lean ====
section
/-!
DEFINITION. The words of the YX96: every register is 32 bits wide (R10), and memory, tile store and frames are bytes.
-/
namespace Sys2Proof

/-- A register word (R10). -/
abbrev Word := BitVec 32

/-- One byte of memory or of a frame. -/
abbrev Byte := BitVec 8

/-- A run of bytes, lowest address or first transmitted byte first. -/
abbrev Bytes := List Byte

end Sys2Proof
end

