-- ==== Sys2Proof/Syntax.lean ====
section
/-!
DEFINITION. The commands of the YX96: one constructor of `Instr` for each row of the table of operations and events
(spec/opcode_table.json), each whole and indivisible (95_what_each_step_holds.md). The operands are what a command
brings from outside: a bus address and value, an instance, a received frame, a quantity that a sensor or a checker
measured. What the device itself holds is read from the state, never from an operand.
-/
namespace Sys2Proof

/-- The blocks that carry a page header, by the type codes of Table 1.1 (R13, R16). -/
inductive Blk where
  | devctl | sec | tmu | ple | erc | mbx | pep | nix | ing | egr | cpm | scx | dec | lns | dmc | tile | pfb | met | stw
  deriving DecidableEq, Repr

/-- A block instance, as BLOCK[idx] of R9. -/
structure Inst where
  blk : Blk
  idx : Nat
  deriving DecidableEq, Repr

/-- A sender's stamp: PATH in [23:16] (1 PCIe, 2 JTAG), Requester ID in [15:0] (14_boot, Mailboxes). -/
abbrev Stamp := BitVec 24

/-- The rails of Table 18.1 that R442 watches. -/
inductive Rail where
  | vddCore | vddSram | vdd1 | vdd2h | vdd2l | vddq | vddSd | vddaSd | vddIo
  deriving DecidableEq, Repr

/-- The reference clocks of Table 18.3 that R447 watches. -/
inductive RefClk where
  | sd0 | sd1 | pcie | sys
  deriving DecidableEq, Repr

/-- The registers of a plan slot that R85 guards. -/
inductive SlotReg where
  | baseLo | baseHi | size
  deriving DecidableEq, Repr

/-- The causes of a failed training attempt (Table 3.7, TRAIN_LOG.CAUSE). -/
inductive TrainCause where
  | noSignal | anTimeout | trainTimeout | blockLock | fecLock | partnerMismatch
  deriving DecidableEq, Repr

/-- One 16-byte tile instruction (R235) on physical tile `tile`: WAIT is word 0 [21:18], `lo` word 0 [17:0]; CLASS and OP are the row's. -/
structure TileInsn where
  tile : BitVec 7
  wait : BitVec 4
  lo   : BitVec 18
  w1   : Word
  w2   : Word
  w3   : Word
  deriving DecidableEq, Repr

/-- What an upset of the array makes of one vector's results (R262 to R264): columns whose FP32 result is another one, and
what the mirror column and its bound give instead. With nothing listed, the array computes what it should (log 165). -/
structure ColUpset where
  cols : List (BitVec 8 × Word)
  mirror : Option Word
  bound : Option Word
  deriving DecidableEq, Repr

/-- A stationary value that a cell holds instead of the one loaded: its row, its column, whether it is an INT16 element's
low half, and its code in the internal format. -/
structure CellUpset where
  row : BitVec 7
  col : BitVec 8
  low : Bool
  code : BitVec 19
  deriving DecidableEq, Repr

/-- What an upset makes of a front (R265): cells that hold another value, and another total of the sum row or of the mirror
column. -/
structure LoadUpset where
  cells : List CellUpset
  sumRow : Option Word
  mirror : Option Word
  deriving DecidableEq, Repr

/-- What a landing beat belongs to (R253): a SEND of a physical tile, or a LOAD of one. -/
inductive BeatSrc where
  | fabric (t : BitVec 7)
  | load (t : BitVec 7)
  deriving DecidableEq, Repr

/-- L1 and its substates (Table 13.10). -/
inductive L1Sub where
  | l1 | l11 | l12
  deriving DecidableEq, Repr

/-- A BAR2 access (R342): a read of some bytes, or a write of bytes with one enable a byte; bytes past the end of `enables`
are enabled. -/
inductive Bar2Acc where
  | read (len : Nat)
  | write (data : Bytes) (enables : List Bool) (poisoned : Bool)
  deriving DecidableEq, Repr

/-- A DRAM read request (R317): its requester, the address of its first block, and how many blocks it asks for, less one. -/
structure DramReq where
  unit : Inst
  addr : BitVec 37
  more : BitVec 2
  deriving DecidableEq, Repr

/-- What befalls a block of DRAM: symbol errors (R313), and tries of its next beat that a link or command error fails (R327;
log 162). -/
structure Upset where
  ctl : BitVec 4
  rank : BitVec 4
  block : BitVec 23
  errs : Nat
  fails : Nat
  deriving DecidableEq, Repr

/-- A non-posted request that the function answers with Unsupported Request (R341). -/
inductive BadReq where
  | io | atomicOp | otherFunction
  deriving DecidableEq, Repr

/-- What the host programs in configuration space beside the Command register (Tables 13.1, 13.8, 13.9, 13.10): the
Completion Timeout Value, Max_Payload_Size, the enables of L1, L1.1, L1.2 and L0p, LTR and its L1.2 threshold in ns, the size
of BAR2 as a power of two, and the AER masks and severities. -/
structure HostCfg where
  ctoCode : BitVec 4
  mps : BitVec 3
  l1En : Bool
  l11En : Bool
  l12En : Bool
  l0pEn : Bool
  ltrEn : Bool
  l12Threshold : Nat
  bar2Log2 : Nat
  aerUncMask : Word
  aerUncSev : Word
  aerCorMask : Word
  deriving DecidableEq, Repr

/-- The received-TLP and link errors of Table 13.9. -/
inductive AerError where
  | receiverError | badTlp | badDllp | replayTimeout | replayRollover
  | correctedInternal | advisoryNonFatal (req : BadReq) | unexpectedCompletion
  | poisonedWrite (off : BitVec 37) (data : Bytes) | poisonedCompletion (tag : Nat)
  | malformed | receiverOverflow | flowControl
  | dlProtocol (recovered : Bool) | uncorrectableInternal
  deriving DecidableEq, Repr

/-- The status of a completion for a device read of host memory (R357, R461). -/
inductive CplStatus where
  | success | poisoned | unsupported | completerAbort
  deriving DecidableEq, Repr

/-- The registers of a ring doorbell page that R347 guards (Table 13.4). -/
inductive RingReg where
  | baseLo | baseHi | mirrorLo | mirrorHi | cfg | bind
  deriving DecidableEq, Repr

/-- The calibration parameters of Table 16.2. -/
structure MeterParams where
  k0        : Nat
  ppr0      : Nat
  k1        : Nat
  ppr1      : Nat
  cross     : Nat
  xtalTrim  : Int
  deriving DecidableEq, Repr

/-- A meter firmware image: its version and its bytes, which R414 verifies. -/
structure MeterImage where
  ver  : BitVec 16
  data : Bytes
  deriving DecidableEq, Repr

/-- The commands, one constructor per row of spec/opcode_table.json. -/
inductive Instr where
  /-- COLD_RESET (R445): The rise of POR_N after power-up samples the straps, resets the core die and starts the boot ROM. -/
  | coldReset (straps : BitVec 2)
  /-- RAIL_FAULT (R442): A rail leaves its operating range for more than 10 µs after POR_N rises; the device drives PWR_FAULT_N low, stops the core-die clocks and holds the core die in reset. -/
  | railFault (rail : Rail)
  /-- CLOCK_LOSS (R447): A reference clock shows no edge for 2 µs; CLK_STATUS and PG_ERR.CLK_LOSS are set and the device reacts as the lost clock requires. -/
  | clockLoss (clk : RefClk)
  /-- AVS_TARGET_WRITE (R443): Each millisecond the device sends the current VDD_CORE target to the regulator over AVSBus, moving at most one 5 mV step. -/
  | avsTargetWrite (ack regFault : Bool) (sense : BitVec 10)
  /-- TJ_HIGH (R453): TJ_MAX passes the grade maximum, which sets PG_ERR.TJ_HIGH and drives THERM_N low, or falls 5 °C below it, which releases THERM_N. -/
  | tjHigh (tj : BitVec 12)
  /-- THERMAL_TRIP (R453): TJ_MAX stays at or above the thermal trip for 1 ms, and the device acts as for a rail fault. -/
  | thermalTrip
  /-- REGISTER_WRITE (R28): A write to a register with no row of its own updates its fields by access code, rejecting changed RW-S fields while the instance is not stopped and BOOT fields after SEAL. -/
  | registerWrite (src : Stamp) (addr : BitVec 28) (value : Word)
  /-- LIVE_WRITE_APPLY (R29): RW-L writes that landed before an instance's next window start take effect together at that start phase, the last write to each field winning. -/
  | liveWriteApply (u : Inst)
  /-- UNMAPPED_ACCESS (R14): An access to an uncovered BAR0 address reads zero or is ignored, and the first such address is recorded in UNMAPPED_ADDR. -/
  | unmappedAccess (write : Bool) (addr : BitVec 28)
  /-- PARTIAL_ACCESS (R15): A request that enables only part of a 32-bit word is ignored or reads zero for that word, and sets PG_ERR.ACCESS. -/
  | partialAccess (write : Bool) (addr : BitVec 28) (enables : BitVec 4)
  /-- RUN_WRITE (R20): A write to PG_CTRL.RUN starts or stops the instance, subject to block-specific refusals, and moves its run state at once. -/
  | runWrite (u : Inst) (run : Bool)
  /-- INSTANCE_RESET (R21): A write of 1 to PG_CTRL.RESET starts a reset of the instance. -/
  | instanceReset (u : Inst) (run : Bool)
  /-- RESET_COMPLETE (R21): An instance reset completes within 4 µs, restoring RW-S and RW-L fields and clearing the error registers while keeping counters and BOOT fields. -/
  | resetComplete (u : Inst)
  /-- PG_ERR_CLEAR (R18): A W1C write to PG_ERR clears bits, and when PG_ERR becomes zero it also clears PG_FIRST_ERR and PG_STATIC_LOG. -/
  | pgErrClear (u : Inst) (value : Word)
  /-- PG_ERR_INJ (R19): A write to PG_ERR_INJ raises one injected event for each defined bit written 1, including any change of state. -/
  | pgErrInj (u : Inst) (value : Word)
  /-- SRAM_ECC_ERROR (R20): An uncorrectable error in a block's SRAM sets ECC_UNCORR and takes the instance to FAULTED. -/
  | sramEccError (u : Inst)
  /-- SOFT_RESET (R39): A write of 0x0DE5 to SOFT_RESET starts a warm reset of the device, refused while any stream context is not FREE. -/
  | softReset (value : Word)
  /-- WARM_RESET_COMPLETE (R39): The warm reset completes within 200 µs, with each block reset or kept as listed. -/
  | warmResetComplete
  /-- EPOCH_BOUNDARY (R40): A new epoch starts, from NETWORK time, an accepted trigger or a replay release; the count advances, plan changes take effect and windows enter WAITING. -/
  | epochBoundary
  /-- TRIG_IN_EDGE (R47): A TRIG_IN edge of the configured polarity is accepted within TRIG_TOL, or during acquisition, to start an epoch and set the phase rate; otherwise it is ignored as stray. -/
  | trigInEdge (falling : Bool)
  /-- TRIG_MISS (R48): No edge arrives within TRIG_TOL after the expected boundary, so TMU starts the epoch itself and sets TRIG_MISS. -/
  | trigMiss
  /-- REPLAY_TARGET_LO (R83): A write to REPLAY_TARGET_LO takes up the new replay target and releases epochs up to it. -/
  | replayTargetLo (value : Word)
  /-- SYNC_MESSAGE (R44): An 802.1AS Sync, Follow_Up or Announce message on a sync port disciplines device time, and its arrival ends holdover. -/
  | syncMessage
  /-- PDELAY_REQ_RX (R44): A Pdelay_Req from the link partner on a sync port is answered. -/
  | pdelayReqRx
  /-- PDELAY_REQ_TX (R44): The PTP instance sends a Pdelay_Req to measure link delay. -/
  | pdelayReqTx (port : BitVec 4)
  /-- SYNC_TIMEOUT (R45): Three sync intervals pass without a valid message, so TMU fails over to the other port or enters holdover and sets SYNC_LOST. -/
  | syncTimeout
  /-- PPS_IN_EDGE (R46): A PPS_IN edge disciplines device time when IN_REF is 1 and no grandmaster is present. -/
  | ppsInEdge
  /-- PPS_OUT_PULSE (R46): At each whole second of device time TMU drives PPS_OUT high. -/
  | ppsOutPulse
  /-- PPS_OUT_END (R46): PPS_OUT returns low 1 ms after the whole second. -/
  | ppsOutEnd
  /-- TRIG_OUT_START (R52): The phase reaches TRIG_OUT_PHASE[n] and TRIG_OUT[n] goes high. -/
  | trigOutStart (n : BitVec 2)
  /-- TRIG_OUT_END (R52): TRIG_OUT[n] returns low after TRIG_OUT_WIDTH[n] pu. -/
  | trigOutEnd (n : BitVec 2)
  /-- EPOCH_LO_READ (R82): A read of TMU EPOCH_LO returns the count's low bits and latches EPOCH_HI. -/
  | epochLoRead
  /-- TIME_LO_READ (R82): A read of TMU TIME_LO returns the low bits of device time and latches TIME_HI. -/
  | timeLoRead
  /-- PLAN_LOAD (R58): A write to PLE.LOAD starts verification of the image in the named slot, refused for an IN_USE slot or while any slot is LOADING. -/
  | planLoad (value : Word)
  /-- PLAN_LOAD_DONE (R58): Verification ends within 2 ms with the slot LOADED, or BAD with a reason code. -/
  | planLoadDone
  /-- COMMIT (R72): A COMMIT write with CANCEL 0 starts the plan check of the named slot, refused while a commit is checking, pending or deferred. -/
  | commit (value : Word)
  /-- PLAN_CHECK_DONE (R71): The plan check ends within 100 µs, with the plan PENDING or DEFERRED by landing phase, or REJECTED with the first failure. -/
  | planCheckDone
  /-- COMMIT_CANCEL (R76): A COMMIT write with CANCEL 1 withdraws a pending or deferred plan when it lands at least 2^18 pu before its boundary, and is ignored otherwise. -/
  | commitCancel (value : Word)
  /-- SLOT_CONFIG_WRITE (R85): A write to SLOT_BASE or SLOT_SIZE returns the slot to EMPTY, refused while the slot is LOADING or IN_USE. -/
  | slotConfigWrite (slot : BitVec 4) (reg : SlotReg) (value : Word)
  /-- STREAM_DL_WRITE (R86): A write to STREAM_DL[n] sets a stream's LAG and deadline phase, refused while any plan in effect, pending or deferred serves the stream. -/
  | streamDlWrite (n : BitVec 8) (value : Word)
  /-- WINDOW_OPEN (R61): The phase reaches a window's START and the window goes from WAITING to OPEN. -/
  | windowOpen (w : BitVec 12)
  /-- WINDOW_FIRE (R63): An OPEN window fires once its input is ready, its instances run and the phase is at or before LATEST; its named units then start. -/
  | windowFire (w : BitVec 12)
  /-- WINDOW_SKIP_LATEST (R61): The phase passes LATEST without firing and the window goes to SKIPPED, PLE building its record if it emits. -/
  | windowSkipLatest (w : BitVec 12)
  /-- WINDOW_DONE (R61): All programs and the swap-out of a fired window complete; it goes to DONE and closes once its record is handed over, releasing a STOPPING instance. -/
  | windowDone (w : BitVec 12)
  /-- DEADLINE_FORCE (R67): At DEADLINE the monitor forces a FIRED window, or one OPEN under R27, to FORCED; units abort and PLE hands over a header-only record. -/
  | deadlineForce (w : BitVec 12)
  /-- UNIT_ABORT_COMPLETE (R67): The named units finish aborting within 512 cycles, and the forced window closes. -/
  | unitAbortComplete (w : BitVec 12)
  /-- PLE_LOCKSTEP_MISMATCH (R70): A PLE lockstep mismatch sets PG_ERR.LOCKSTEP, and PLE goes to FAULTED and writes no more records. -/
  | pleLockstepMismatch
  /-- SWAP_IN_DONE (R78): A tile's swap-in completes, or the tile resets the state under R259, and program issue starts. -/
  | swapInDone (t : BitVec 7)
  /-- SWAP_OUT_DONE (R80): A tile's swap-out writes the older state copy and then its stamp. -/
  | swapOutDone (t : BitVec 7)
  /-- FRAME_RX (R88): A port receives an Ethernet frame, timestamps it, accepts or discards it, and hands it to TMU, the pair logic or ING. -/
  | frameRx (port : BitVec 4) (frame : Bytes)
  /-- POLICE_REFILL (R100): At each of the 256 refill phases of the epoch, each context's token bucket gains its share of POLICE_RATE. -/
  | policeRefill (j : BitVec 8)
  /-- REORDER_TIMEOUT (R101): REORDER_TIMEOUT pu pass after a later packet, and the missing sequence number is declared lost. -/
  | reorderTimeout (n : BitVec 8)
  /-- AU_TIMEOUT (R103): REORDER_TIMEOUT pu pass after an access unit's last packet with no number outstanding, and the unit ends without a marker. -/
  | auTimeout (n : BitVec 8)
  /-- NACK_SEND (R110): Within 1 ms of detecting a gap, ingress sends a Generic NACK for the missing numbers. -/
  | nackSend (n : BitVec 8)
  /-- RR_SEND (R112): Every RR_INTERVAL epochs ingress sends a receiver report for each context that is not FREE. -/
  | rrSend (n : BitVec 8)
  /-- SSRC_CHANGE (R96): At a boundary after SSRC_TIMEOUT epochs of another SSRC only, ingress latches the new SSRC, resets state, frees chains, sends a PLI and holds an ACTIVE stream. -/
  | ssrcChange (n : BitVec 8)
  /-- TRAINING_ATTEMPT (R90): A port whose link is not UP starts a training attempt after the ladder interval. -/
  | trainingAttempt (port : BitVec 4)
  /-- TRAINING_FAIL (R90): A training attempt times out in signal detection, auto-negotiation or training and is logged in TRAIN_LOG. -/
  | trainingFail (port : BitVec 4) (cause : TrainCause)
  /-- AN_COMPLETE (R90): Clause 73 auto-negotiation completes, failing with PARTNER_MISMATCH if it did not resolve to the configured mode and FEC. -/
  | anComplete (port : BitVec 4) (resolved : Bool)
  /-- LINK_UP (R90): Training, block lock and FEC lock complete, and the port link goes UP. -/
  | linkUp (port : BitVec 4)
  /-- LINK_DOWN (R91): An UP link loses signal or block lock; FLAPS increments and the ladder restarts. -/
  | linkDown (port : BitVec 4)
  /-- ADMIT (R92): SCX CMD.OP ADMIT takes a FREE running context to ADMITTED, after checking RTP_TPE and MAX_AU. -/
  | admitStream (n : BitVec 8)
  /-- RELEASE (R92): SCX CMD.OP RELEASE takes an ACTIVE or HELD context to DRAINING. -/
  | release (n : BitVec 8)
  /-- CANCEL (R92): SCX CMD.OP CANCEL returns an ADMITTED context to FREE when no plan serves it. -/
  | cancel (n : BitVec 8)
  /-- ALLOC_REQ (R125): A write to ALLOC_REQ starts a size-class buffer request, refused while another is BUSY. -/
  | allocReq (value : Word)
  /-- ALLOC_DONE (R125): Within 200 ns the class request completes as DONE, EMPTY, BAD_SIZE or TOO_LARGE. -/
  | allocDone
  /-- FREE_ADDR_LO (R129): A write to FREE_ADDR_LO starts the return of a class buffer, checked against Table 4.2. -/
  | freeAddrLo (value : Word)
  /-- CHAIN_RETURN (R127): Ingress or a closing decode window returns a chain, and CPM walks and checks it before freeing any cell. -/
  | chainReturn
  /-- CHAIN_RETURN_DONE (R128): The chain return completes, freeing the chain or rejecting it and counting LEAKED and REJECT_CNT. -/
  | chainReturnDone
  /-- DECODE_CHARGE_STOP (R144): A core's charge exceeds CYCLES while units remain; the core stops and the picture is abandoned. -/
  | decodeChargeStop (core : BitVec 5)
  /-- DECODE_ELAPSED_ABANDON (R145): A core's elapsed cycles reach CYCLES − C_r; every core of the picture stops, and ELAPSED and BUDGET are set. -/
  | decodeElapsedAbandon (core : BitVec 5)
  /-- DECODE_CORE_COMPLETE (R147): A core finishes its partitions, concealment, statistics and decode-state write. -/
  | decodeCoreComplete (core : BitVec 5) (elapsed : Word)
  /-- AUG_READ_DONE (R172): The augmentation-ring read started at START completes, and the engine applies, consumes or defaults entries under Table 6.6. -/
  | augReadDone (e : BitVec 3)
  /-- AUG_READ_TIMEOUT (R172): The augmentation read has not completed 2,000 cycles after firing, and the engine uses identity parameters. -/
  | augReadTimeout (e : BitVec 3)
  /-- LENS_PROGRAM_COMPLETE (R180): A lens engine finishes writing its outputs. -/
  | lensProgramComplete (e : BitVec 3) (elapsed : Word)
  /-- NOP (R235): CTRL NOP does nothing. -/
  | nop (x : TileInsn)
  /-- END (R239): CTRL END ends the program once every earlier instruction has completed. -/
  | endProg (x : TileInsn)
  /-- STAGE (R255): CTRL STAGE sets the kind under which later instructions issue. -/
  | stage (x : TileInsn)
  /-- WAITCTR (R235): CTRL WAITCTR holds further issue until arrival counter CTR reaches VALUE. -/
  | waitctr (x : TileInsn)
  /-- WAITCTR_RELEASE (R253): The awaited arrival counter reaches VALUE, and issue resumes. -/
  | waitctrRelease (t : BitVec 7)
  /-- EMITOBJ (R256): CTRL EMITOBJ hands the object table to EGR and blocks issue until the copy is done. -/
  | emitobj (x : TileInsn)
  /-- MOP (R242): MATRIX MOP runs one matrix operation from its descriptor through the prologue, the array and the epilogue. -/
  | mop (x : TileInsn)
  /-- MOP_COMPLETE (R236): A matrix operation's last output element is in tile store. -/
  | mopComplete (t : BitVec 7)
  /-- LOAD (R241): XFER LOAD copies DRAM to tile store, landing poisoned blocks as zeros and counting arrivals. -/
  | load (x : TileInsn)
  /-- STORE (R241): XFER STORE copies tile store to DRAM. -/
  | store (x : TileInsn)
  /-- XFER_COMPLETE (R236): A LOAD's last byte lands in tile store, or a STORE's last byte is accepted by DRAM. -/
  | xferComplete (t : BitVec 7)
  /-- SEND (R250): FABRIC SEND transmits beats in the chosen slots to the destination tile. -/
  | send (x : TileInsn)
  /-- BEAT_LAND (R253): A fabric or LOAD beat lands in tile store and increments its arrival counter. -/
  | beatLand (src : BeatSrc)
  /-- SEND_COMPLETE (R236): A SEND's last beat has landed at its destination. -/
  | sendComplete (t : BitVec 7)
  /-- FUSED_VECTOR_ENTRY (R254): A fused streaming vector enters row 0 once its arrival counter reaches the required level. -/
  | fusedVectorEntry (t : BitVec 7)
  /-- LD (R247): Vector LD loads 1 KiB from tile store into a register. -/
  | ld (x : TileInsn)
  /-- ST (R247): Vector ST stores a register as 1 KiB in tile store. -/
  | st (x : TileInsn)
  /-- LDX (R247): Vector LDX loads codes of a format and expands them exactly to FP32. -/
  | ldx (x : TileInsn)
  /-- STX (R247): Vector STX requantises lanes into codes of a format in tile store. -/
  | stx (x : TileInsn)
  /-- ADD (R247): Vector ADD adds VA and VB lane by lane. -/
  | add (x : TileInsn)
  /-- SUB (R247): Vector SUB subtracts VB from VA lane by lane. -/
  | sub (x : TileInsn)
  /-- MUL (R247): Vector MUL multiplies VA and VB lane by lane. -/
  | mul (x : TileInsn)
  /-- FMA (R247): Vector FMA computes VA × VB + VC with one rounding. -/
  | fma (x : TileInsn)
  /-- MAX (R247): Vector MAX takes the larger of VA and VB. -/
  | max (x : TileInsn)
  /-- MIN (R247): Vector MIN takes the smaller of VA and VB. -/
  | min (x : TileInsn)
  /-- CMPLT (R247): Vector CMPLT writes 1 where VA < VB. -/
  | cmplt (x : TileInsn)
  /-- SEL (R247): Vector SEL selects VA where VC is non-zero, else VB. -/
  | sel (x : TileInsn)
  /-- EXP (R247): Vector EXP computes a correctly rounded exponential. -/
  | exp (x : TileInsn)
  /-- RCP (R247): Vector RCP computes a correctly rounded reciprocal. -/
  | rcp (x : TileInsn)
  /-- RSQRT (R247): Vector RSQRT computes a correctly rounded reciprocal square root. -/
  | rsqrt (x : TileInsn)
  /-- CVT (R247): Vector CVT converts between INT32 and FP32. -/
  | cvt (x : TileInsn)
  /-- IMM (R247): Vector IMM sets every lane to IMM. -/
  | imm (x : TileInsn)
  /-- LANE (R247): Vector LANE sets each lane to its index. -/
  | lane (x : TileInsn)
  /-- RSUM (R247): Vector RSUM sums all lanes pairwise into every lane. -/
  | rsum (x : TileInsn)
  /-- RMAX (R247): Vector RMAX writes the maximum over all lanes into every lane. -/
  | rmax (x : TileInsn)
  /-- ARGMAX (R247): Vector ARGMAX writes the lowest lane holding the maximum into every lane. -/
  | argmax (x : TileInsn)
  /-- GATHER (R247): Vector GATHER reads table words indexed by VA. -/
  | gather (x : TileInsn)
  /-- SCATTER (R247): Vector SCATTER writes VB into table words indexed by VA. -/
  | scatter (x : TileInsn)
  /-- TOPK (R248): Composite TOPK selects the K best scores with their indices. -/
  | topk (x : TileInsn)
  /-- NMS (R248): Composite NMS suppresses overlapping boxes by IoU. -/
  | nms (x : TileInsn)
  /-- ASSIGN (R248): Composite ASSIGN greedily assigns rows to columns by lowest cost. -/
  | assign (x : TileInsn)
  /-- LNSTAT (R248): Composite LNSTAT computes the mean and reciprocal deviation of each position. -/
  | lnstat (x : TileInsn)
  /-- SKIPMASK (R257): Composite SKIPMASK builds the skip bitmap from the statistics and the complexity map. -/
  | skipmask (x : TileInsn)
  /-- VECTOR_COMPLETE (R236): A vector instruction's result is written. -/
  | vectorComplete (t : BitVec 7)
  /-- SUM_CHECK_VERDICT (R263): The SUM check verdict of a MAC vector is ready; a failure triggers a replay or a REPEATED or UNRETRIED outcome. -/
  | sumCheckVerdict (t : BitVec 7) (pass vec : BitVec 32) (upset : ColUpset)
  /-- DUP_CHECK_VERDICT (R264): The DUP check verdict of a non-MAC vector is ready, with the same outcomes on failure. -/
  | dupCheckVerdict (t : BitVec 7) (pass vec : BitVec 32) (upset : ColUpset)
  /-- LOAD_CHECK_VERDICT (R265): The LOAD check of a front is ready; a failure cancels the pass and replays it at f + 72. -/
  | loadCheckVerdict (t : BitVec 7) (pass : BitVec 32) (upset : LoadUpset)
  /-- TRANS_DECAY (R273): At a boundary whose count is a multiple of TRANS_DECAY, a non-zero TRANS_LEVEL decreases by 1. -/
  | transDecay (t : BitVec 7)
  /-- REPAIR (R276): At the boundary due for a flag, each flagged row is repaired or marked BLOCKED under Table 10.4. -/
  | repair
  /-- MIRROR_INJ (R281): A write to MIRROR_INJ with ARM 1 arms an injected check failure after AFTER eligible passes. -/
  | mirrorInj (t : BitVec 7) (value : Word)
  /-- REPAIR_REQ (R285): A write to REPAIR_REQ with the key flags a tile with cause REQUEST. -/
  | repairReq (value : Word)
  /-- RECORD_ACCEPT (R295): EGR accepts a record, stamping its header fields, meter bytes and flags, truncating if the store is short. -/
  | recordAccept (w : BitVec 12)
  /-- RING_DELIVERY (R298): EGR writes a record, with any filler, to its RESULT ring and publishes the producer index, or discards it. -/
  | ringDelivery (r : BitVec 13)
  /-- SINK_SEND (R302): EGR sends a record to a UDP sink as segmented datagrams, or discards it if the port is not UP. -/
  | sinkSend (k : BitVec 6)
  /-- SINK_CFG_WRITE (R305): A write to SINK_CFG takes up the sink's settings between that sink's records. -/
  | sinkCfgWrite (k : BitVec 6) (value : Word)
  /-- DRAM_READ (R313): A read beat is served from DRAM or forwarded from the write queue, with the outcome of Table 12.2. -/
  | dramRead (reqs : List DramReq) (c : BitVec 4) (ch : BitVec 3) (errs linkFails : Nat)
  /-- DRAM_WRITE (R318): A write beat is accepted into the write queue, merging with any queued entry for its block. -/
  | dramWrite (unit : Inst) (addr : BitVec 37) (beats : List (Bytes × BitVec 64))
  /-- WRITE_DRAIN (R322): A channel drains its write queue, merging partial blocks by read-modify-write. -/
  | writeDrain (c : BitVec 4) (ch : BitVec 3) (upsets : List Upset)
  /-- REFRESH (R323): A controller issues a per-bank refresh to a bank pair, forced when 8 are owed. -/
  | refresh (c rank : BitVec 4) (pair : BitVec 3) (upsets : List Upset)
  /-- REFRESH_RATE_POLL (R323): Once per millisecond each controller reads and applies the stacks' refresh rate, flagging TEMP_HIGH beyond 4×. -/
  | refreshRatePoll (c : BitVec 4) (rate : BitVec 2)
  /-- HAMMER_WINDOW_RESET (R325): At the start of each refresh window, all activate counts return to 0. -/
  | hammerWindowReset (c : BitVec 4)
  /-- SCRUB_READ (R316): A paced scrub read checks a block and corrects or poisons it. -/
  | scrubRead (c rank : BitVec 4) (block : BitVec 23) (errs : Nat)
  /-- MIGRATION_SEGMENT_COPY (R329): One segment of the migrating rank is copied to the target, and the migration commits after the last. -/
  | migrationSegmentCopy (c : BitVec 4) (upsets : List Upset) (dstFail : Bool)
  /-- BAL_INTERVAL (R333): At the end of each 1 ms interval, each controller compares channel and controller loads and may warn. -/
  | balInterval
  /-- DRAM_INIT_DONE (R459): Channel initialisation writes zeros with valid ECC to every rank, and the DMC leaves STOPPED. -/
  | dramInitDone (c : BitVec 4) (failed : BitVec 16)
  /-- PCIE_TRAINING_ATTEMPT (R343): PEP starts an LTSSM attempt at the ladder's highest rate after the ladder's wait. -/
  | pcieTrainingAttempt
  /-- PCIE_TRAINING_FAIL (R343): The LTSSM returns to Detect without reaching L0, and the cause is logged. -/
  | pcieTrainingFail (cause last : BitVec 4)
  /-- PCIE_LINK_UP (R343): The link reaches L0. -/
  | pcieLinkUp (rate width : BitVec 4) (flit : Bool)
  /-- PCIE_LINK_DOWN (R344): A link in L0 goes down; FLAPS counts, host loss is handled and the ladder restarts. -/
  | pcieLinkDown
  /-- HOT_RESET (R362): A hot reset from the host causes host loss. -/
  | hotReset
  /-- LINK_DISABLE (R362): The link is disabled, causing host loss. -/
  | linkDisable
  /-- PERST (R362): PERST# arrives, causing host loss, or a warm reset when every stream is FREE. -/
  | perst
  /-- FLR (R362): A Function Level Reset arrives, causing host loss, or a warm reset when every stream is FREE. -/
  | flr
  /-- D3HOT_ENTRY (R361): The host places the device in D3hot, which is host loss when a stream is not FREE. -/
  | d3hotEntry
  /-- BUS_MASTER_ENABLE (R364): The host sets Bus Master Enable, returning a GONE device to NORMAL. -/
  | busMasterEnable (c : HostCfg)
  /-- HOSTLOSS_RELEASE (R363): A write of the key to HOSTLOSS_RELEASE unfreezes the device, rewrites mirrors and sets ATTN_STATUS.LINK. -/
  | hostlossRelease (value : Word)
  /-- L1_ENTRY (R360): After L1_IDLE_US with no TLP, PEP enters L1 or its substates when allowed. -/
  | l1Entry (sub : L1Sub)
  /-- L1_EXIT (R360): PEP leaves L1 to send or receive traffic. -/
  | l1Exit
  /-- L0P_ENTRY (R360): Traffic below 1/8 of x4 capacity for 100 µs narrows the link to x4. -/
  | l0pEntry
  /-- BAR2_ACCESS (R342): A BAR2 access reaches device DRAM through port 6, or is answered as out of range. -/
  | bar2Access (off : BitVec 37) (acc : Bar2Acc)
  /-- TLP_ERROR (R359): A received TLP carries an AER error and is replayed, discarded or stored poisoned. -/
  | tlpError (e : AerError)
  /-- HOST_COMPLETION (R357): A completion for a device read of host memory arrives and is used, discarded or treated as an error. -/
  | hostCompletion (tag : Nat) (status : CplStatus) (data : Bytes)
  /-- CPL_TIMEOUT (R358): A device read of host memory times out, and its ring goes FAULTED. -/
  | cplTimeout (tag : Nat)
  /-- RING_ENABLE (R348): Writing CFG.EN 1 to a DISABLED ring zeroes its indices and makes it ACTIVE. -/
  | ringEnable (r : BitVec 13) (value : Word)
  /-- RING_DISABLE (R348): Writing CFG.EN 0 to an ACTIVE or FAULTED ring starts STOPPING. -/
  | ringDisable (r : BitVec 13) (value : Word)
  /-- RING_STOPPED (R348): The stopping ring's accesses complete, and it reads DISABLED. -/
  | ringStopped (r : BitVec 13)
  /-- RING_CONFIG_WRITE (R347): A write to BASE, MIRROR, CFG or BIND takes effect only while the ring is DISABLED. -/
  | ringConfigWrite (r : BitVec 13) (reg : RingReg) (value : Word)
  /-- HOST_IDX_WRITE (R349): A doorbell write of HOST_IDX moves the host's index, faulting the ring on a bad bound. -/
  | hostIdxWrite (r : BitVec 13) (value : Word)
  /-- INDEX_MIRROR_WRITE (R350): The device writes a ring's DEV_IDX mirror, merged updates within 2 µs. -/
  | indexMirrorWrite (r : BitVec 13)
  /-- UPLOAD_DESCRIPTOR_FETCH (R352): The copy engine reads the next UPLOAD descriptor and checks it. -/
  | uploadDescriptorFetch (r : BitVec 13)
  /-- COPY_IN (R353): UPLOAD COPY_IN copies host memory into device DRAM. -/
  | copyIn (r : BitVec 13)
  /-- COPY_OUT (R353): UPLOAD COPY_OUT copies device DRAM to host memory. -/
  | copyOut (r : BitVec 13)
  /-- FENCE_ONLY (R353): UPLOAD FENCE_ONLY completes with no copy. -/
  | fenceOnly (r : BitVec 13)
  /-- UPLOAD_COMPLETE (R353): A descriptor completes; DEV_IDX advances, then the descriptor's fence and the ring's fence increment. -/
  | uploadComplete (r : BitVec 13)
  /-- FENCE_INC (R355): A write to INC adds to the fence value while EN is 1. -/
  | fenceInc (f : BitVec 13) (value : Word)
  /-- FENCE_SET (R355): A write to SET_LO loads the fence value while EN is 0. -/
  | fenceSet (f : BitVec 13) (value : Word)
  /-- FENCE_MIRROR_WRITE (R354): Within 2 µs of a change, the device writes the fence value to its mirror. -/
  | fenceMirrorWrite (f : BitVec 13)
  /-- VALUE_LO_READ (R354): A read of a fence's VALUE_LO returns the low bits and latches VALUE_HI. -/
  | valueLoRead (f : BitVec 13)
  /-- BOOT_IMAGE_CHECK_DONE (R368): The boot ROM finishes reading and checking an image, then boots it or moves to the next source. -/
  | bootImageCheckDone (readOk : Bool)
  /-- HOST_BOOT (R366): A write to HOST_BOOT makes the ROM verify the host image at device address 0. -/
  | hostBoot (value : Word)
  /-- SEAL (R370): A write to SEAL_CTRL with GO and the key checks Table 14.4 and starts the seal. -/
  | seal (value : Word)
  /-- SEAL_COMPLETE (R370): Once the DMC queues drain, the seed and spares take effect and BOOT fields become read-only. -/
  | sealComplete
  /-- STEWARD_SLEEP (R373): Steward firmware's sleep instruction powers the domain down unless a wake event is pending. -/
  | stewardSleep
  /-- STEWARD_WAKE (R373): A wake event resumes steward firmware within 20 µs. -/
  | stewardWake
  /-- WAKE_TIMER (R373): The wake timer set by firmware expires, raising the TIMER wake event. -/
  | wakeTimer
  /-- WATCHDOG_EXPIRY (R374): The watchdog expires and only the steward domain resets. -/
  | watchdogExpiry
  /-- STEWARD_LOCKSTEP (R374): The steward cores disagree, and the steward domain resets. -/
  | stewardLockstep
  /-- STEWARD_RESET (R381): STW PG_CTRL.RESET performs the steward-domain reset. -/
  | stewardReset
  /-- BOOT_FOLLOW_ON (R375): Steward firmware logs the reset cause, re-requests saved repairs and sets READY. -/
  | bootFollowOn
  /-- MBX_LOCK_READ (R377): A read of LOCK takes a free mailbox for the reader or returns the owner's stamp. -/
  | mbxLockRead (src : Stamp) (n : BitVec 5)
  /-- MBX_UNLOCK (R377): A write of RELEASE by the owner frees the mailbox. -/
  | mbxUnlock (src : Stamp) (n : BitVec 5) (value : Word)
  /-- MBX_LOCK_LAPSE (R377): A lock lapses after 1 s without owner writes and with no request PENDING or BUSY. -/
  | mbxLockLapse (n : BitVec 5)
  /-- MBX_SEND (R379): CTRL.SEND submits REQ, records the stamp and raises the MBX wake event. -/
  | mbxSend (src : Stamp) (n : BitVec 5)
  /-- MBX_TAKE (R379): Steward firmware takes a PENDING request, making it BUSY. -/
  | mbxTake (n : BitVec 5)
  /-- MBX_REPLY (R379): Steward firmware writes the reply, making the mailbox DONE and setting ATTN_STATUS.MBX. -/
  | mbxReply (n : BitVec 5)
  /-- MBX_ACK (R379): CTRL.ACK returns a DONE or ABORTED mailbox to IDLE. -/
  | mbxAck (src : Stamp) (n : BitVec 5)
  /-- PING (R379): Mailbox command PING replies with the request words. -/
  | ping (n : BitVec 5)
  /-- STATUS (R379): Mailbox command STATUS replies with boot status, versions and reset cause. -/
  | status (n : BitVec 5)
  /-- REPAIR_SAVE (R376): Mailbox command REPAIR_SAVE writes the retired tiles to the repair list. -/
  | repairSave (n : BitVec 5)
  /-- REPAIR_CLEAR (R376): Mailbox command REPAIR_CLEAR erases the repair list. -/
  | repairClear (n : BitVec 5)
  /-- FLASH_WRITE (R376): Mailbox command FLASH_WRITE verifies an image and writes it into the other QSPI slot. -/
  | flashWrite (n : BitVec 5)
  /-- SVN_COMMIT (R376): Mailbox command SVN_COMMIT raises the fused SVN to the running image's SVN. -/
  | svnCommit (n : BitVec 5)
  /-- DUMP_INFO (R403): Mailbox command DUMP_INFO replies with DUMP_STATUS and the dump header. -/
  | dumpInfo (n : BitVec 5)
  /-- DUMP_REARM (R403): Mailbox command DUMP_REARM acts as DUMP_CTRL.REARM. -/
  | dumpRearm (n : BitVec 5)
  /-- DUMP_NOW (R403): Mailbox command DUMP_NOW writes a dump with no fatal error when STATE is NONE. -/
  | dumpNow (n : BitVec 5)
  /-- ERC_REPORT (R387): ERC takes a pending report, sets summary bits, updates the table, logs it and may raise attention. -/
  | ercReport
  /-- FATAL_ERROR (R396): ERC records the first fatal error, latches its time, wakes the steward and starts the dump. -/
  | fatalError
  /-- LOG_HEAD_WRITE (R390): A write to LOG_HEAD frees log entries, refused while spilling or when out of bounds. -/
  | logHeadWrite (value : Word)
  /-- LOG_SPILL (R391): ERC copies the oldest log entry to the CONTROL ring and advances LOG_HEAD. -/
  | logSpill
  /-- COAL_CLEAR (R393): Writing CTRL.COAL_CLEAR empties the coalescing table. -/
  | coalClear
  /-- DUMP_WRITE (R397): Steward firmware writes the dump to DRAM or the fallback medium. -/
  | dumpWrite
  /-- DUMP_COMPLETE (R401): The dump header is written COMPLETE; ERC sets DUMP_STATUS and ATTN_STATUS.FATAL. -/
  | dumpComplete
  /-- DUMP_TIMEOUT (R401): STATE still reads WRITING 1 s after the fatal error, and ERC sets FAILED. -/
  | dumpTimeout
  /-- DUMP_CTRL_REARM (R403): Writing REARM after a completed or failed dump returns STATE to NONE and clears the fatal registers. -/
  | dumpCtrlRearm
  /-- DUMP_WINDOW_READ (R402): A read of the dump window returns dump bytes through port 6. -/
  | dumpWindowRead (off : BitVec 26)
  /-- QUADRATURE_COUNT (R409): A quadrature edge on a channel counts forward or reverse, updating the backlog and DISTANCE. -/
  | quadratureCount (ch1 a b : Bool)
  /-- SPEED_UPDATE (R410): Every 1 ms the meter die updates SPEED and MOTION from the last 250 ms. -/
  | speedUpdate
  /-- SEAL_OPEN (R412): SEAL_SW stays open for 50 ms, SEAL_CNT increments and the service UART opens. -/
  | sealOpen
  /-- SEAL_CLOSE (R413): SEAL_SW closes; new parameters, key and firmware take effect and PARAM_VER increments. -/
  | sealClose
  /-- PARAM_SET (R413): The service UART loads calibration parameters while the seal is open. -/
  | paramSet (p : MeterParams)
  /-- TIME_SET (R413): The service UART sets meter time at once and sets TIME_VALID. -/
  | timeSet (ms : BitVec 48)
  /-- KEY_LOAD (R413): The service UART loads a CMAC key while the seal is open. -/
  | keyLoad (key : BitVec 128)
  /-- FIRMWARE_LOAD (R413): The service UART loads a meter firmware image while the seal is open. -/
  | firmwareLoad (image : MeterImage)
  /-- METER_BOOT (R414): At every meter reset the boot ROM verifies the firmware and runs it, or keeps the previous image. -/
  | meterBoot
  /-- INDICATOR_FRAME (R416): Every 100 ms the meter die sends an authenticated frame on the indicator link. -/
  | indicatorFrame
  /-- TIME_ADJ (R417): The indicator command TIME_ADJ adjusts meter time when authenticated and allowed. -/
  | timeAdj (adj : Int) (ctr mac : Word)
  /-- METER_BATTERY_SWITCH (R418): VDD_MET falls below 2.9 V, and the meter die runs on VBAT_MET with its links off. -/
  | meterBatterySwitch
  /-- METER_POWER_FAIL (R418): Both meter supplies fail, and the meter die commits its state to non-volatile memory. -/
  | meterPowerFail
  /-- METER_RESET (R419): MET_RST_N resets the meter logic without changing its kept state. -/
  | meterReset
  /-- SNAPSHOT_REQUEST (R420): The meter die latches its state within 2 µs of a strobe edge. -/
  | snapshotRequest
  /-- STROBE_FRAME_SEND (R420): The meter die sends the strobe frame within 200 µs, after any periodic frame already under way. -/
  | strobeFrameSend
  /-- PERIODIC_FRAME_SEND (R420): Every 1 ms the meter die sends a periodic bridge frame. -/
  | periodicFrameSend
  /-- BRIDGE_FRAME_RX (R422): MET receives a bridge frame, stores valid frames and discards those with a wrong CRC. -/
  | bridgeFrameRx (noise : Bytes)
  /-- STROBE_MISS (R421): No strobe frame arrives within 1 ms of a strobe, and the slot is marked not VALID. -/
  | strobeMiss
  /-- METER_ABSENT (R422): No valid periodic frame arrives for 10 ms; PRESENT clears and ABSENT is set. -/
  | meterAbsent
  /-- METER_TIME_COMPARE (R423): At each whole second MET compares meter time with device time and flags a failure. -/
  | meterTimeCompare
  /-- MET_STATUS_READ (R424): A read of MET STATUS latches the meter value registers from the newest periodic frame. -/
  | metStatusRead
  /-- SNAPSHOT_WORD0_READ (R424): A read of word 0 of a snapshot slot latches its words 1 to 7. -/
  | snapshotWord0Read (i : Fin 5)
  /-- HEARTBEAT_SEND (R429): The phase reaches HB_PHASE, and the device sends its pair heartbeat. -/
  | heartbeatSend
  /-- HEARTBEAT_RX (R431): A heartbeat arrives and is validated, updating PEER_STATUS and PEER_TERM or counting HB_BAD. -/
  | heartbeatRx
  /-- PEER_LOST (R431): MISSED reaches HB_MISS at a boundary; ALIVE clears and PEER_LOST is set. -/
  | peerLost
  /-- PRIMACY_REQ (R432): A write to PRIMACY_REQ makes a primacy request with the requested term, due at a coming boundary. -/
  | primacyReq (value : Word)
  /-- PRIMACY_UPDATE (R433): At a boundary the device takes a due request and clears its claim if outranked by the peer. -/
  | primacyUpdate
  /-- SRAM_ECC_CORRECTED (R17): A corrected error in a block's SRAM, tile store included, sets PG_ERR.ECC_CORR, counts, and reports a CORRECTED-class event. -/
  | sramEccCorrected (u : Inst)
  /-- CLOCK_RETURN (R447): A lost SD_REFCLK or PCIE_REFCLK shows edges again, its CLK_STATUS bit clears and the ports or link it feeds can train again. -/
  | clockReturn (clk : RefClk)
  /-- POWER_DOWN (R441): POR_N goes low, the core die enters reset and the pins take the states of R449 before the rails fall. -/
  | powerDown
  /-- L0P_EXIT (R360): Traffic above the L0p threshold makes PEP regain the full x16 width within 12 µs. -/
  | l0pExit
  /-- D3HOT_EXIT (R361): The host returns the function from D3hot to D0, after which the device may again make requests and send INTA. -/
  | d3hotExit
  /-- INTERRUPT_DISABLE_WRITE (R356): A host configuration write changes the Interrupt Disable bit of the Command register, and PEP sends Assert_INTA or Deassert_INTA if the attention condition changes. -/
  | interruptDisableWrite (on : Bool)
  /-- VDD_MET_RETURN (R418): VDD_MET returns to range, and the meter die leaves battery operation and switches the bridge, indicator link and service UART back on. -/
  | vddMetReturn
  /-- Z_PERIOD (R411): A Z edge on a channel ends a Z period, whose count is checked against 4 × PPR ± 2 for the FAULT condition. -/
  | zPeriod (ch1 : Bool)
  deriving DecidableEq, Repr

end Sys2Proof
end

