-- ==== Sys2Proof/Config.lean ====
section
/-!
DEFINITION. What an implementation fixes and the manual leaves open: free values (constants with no body, so that no
proof can see what they are) and the published standards that the manual cites without giving them (video
bitstreams, signature and hash algorithms, AES-CMAC). The types that those standards' results take are here too.
-/
namespace Sys2Proof

/-- A coding tree unit, macroblock or superblock (R142): its luma rectangle within the picture, the bits it consumes, the
bytes of the access unit that its residual comes from, and what its prediction reads: reference, byte offset and length in
that reference's buffer (R150). `slice`, `seg`, `tile` and `row` say where it stands in the bitstream (Tables 5.5, 5.8):
its independent slice, its slice segment (a tile in AV1), its tile, its CTU row; `bad` that a syntax error was detected in
its segment at it or before it. -/
structure CodedUnit where
  x : Nat
  y : Nat
  w : Nat
  h : Nat
  bits : Nat
  dataOff : Nat
  dataLen : Nat
  preds : List (Nat × Nat × Nat)
  slice : Nat
  seg : Nat
  tile : Nat
  row : Nat
  bad : Bool
  deriving DecidableEq, Repr, Inhabited

/-- The coding tools of Table 5.3 that a decode core does not support. -/
inductive Tool where
  | fmo | aso | spSlices | siSlices | dataPartitioning
  | rangeExt | screenContentExt | multiLayerExt
  | largeScaleTile
  deriving DecidableEq, Repr

/-- What a sequence activation signals (R131, R132, Tables 5.3 and 5.7): the profile's bit of PROFILE_MASK (none for a profile
outside Table 5.1), the dimensions, level and depth, chroma_format_idc (mono_chrome reads as 0), the references required;
`reorderMax` is max_num_reorder_frames (none without VUI) or sps_max_num_reorder_pics of the highest temporal sub-layer,
`laterRefs` that a B slice refers to a later picture in output order, `shown` the frames that each temporal unit shows,
`frameMbsOnly` frame_mbs_only_flag, `fieldSeq` field_seq_flag, `tools` the tools of Table 5.3 it uses beyond the supported
ones, `beyondLevel` that its dimensions, DPB or tiles exceed the limits of its level (the standard's). -/
structure SeqInfo where
  profileBit : Option Nat
  level : Nat
  width : Nat
  height : Nat
  depth : Nat
  chroma : Nat
  refs : Nat
  reorderMax : Option Nat
  laterRefs : Bool
  shown : Nat
  frameMbsOnly : Bool
  fieldSeq : Bool
  tools : List Tool
  beyondLevel : Bool
  deriving DecidableEq, Repr, Inhabited

/-- What an access unit holds, as far as the chapters of this manual need it (R131 to R159): the sequence it activates, the
picture's profile bit, size and depth, the references it predicts from and those that stay references after it (counted in
the store's pictures, 0 the newest), whether it becomes a reference itself, its units in bitstream order, the units that
no data covers, and the structures it uses. -/
structure PicInfo where
  activates : Option SeqInfo
  profileBit : Nat
  width : Nat
  height : Nat
  depth : Nat
  refs : List Nat
  keep : List Nat
  isRef : Bool
  units : List CodedUnit
  missing : List CodedUnit
  hasTiles : Bool
  wpp : Bool
  deriving DecidableEq, Repr, Inhabited

/-- The prediction unit that covers a block's sample (R159): intra, or its vectors in quarter samples with the slot distance of
their reference, in the order that ties go by; `skip` for a skipped or merged one. -/
structure BlockMotion where
  intra : Bool
  skip : Bool
  vecs : List (Int × Int × Nat)
  deriving DecidableEq, Repr, Inhabited

/-- The units of a 64×64 luma block (Table 5.12): for each, whether it is skipped or merged with a zero vector to the picture of
the previous slot, whether it has a residual; luma QP (QpY, or qindex) with the samples it holds for; the bins of the
units whose first sample lies in the block. -/
structure BlockCoding where
  units : List (Bool × Bool)
  qps : List (Int × Nat)
  bins : Nat
  deriving DecidableEq, Repr, Inhabited

/-- The length-prefixed units of an access unit that are decoded, each with its place among its bytes (R102, R133). -/
abbrev AuUnits := List (Nat × Bytes)

namespace Config

/-- A fresh free value of `w` bits: the counter in the state makes each draw a value of its own (log 5). -/
opaque freeBits (w : Nat) : Nat → BitVec w

/-- A byte at a device address at or above the usable capacity, where the manual has no memory (R309; log 40). -/
opaque beyondByte : Nat → Byte

/-- A check symbol of a 64-byte block, 0 to 2: the code over 8-bit symbols is not given (R312, R313; log 161). -/
opaque checkSymbol : Bytes → Nat → Byte

/-- SHA-384 of a byte string, as FIPS 180 defines it (R368; log 12). -/
opaque sha384 : Bytes → BitVec 384

/-- ECDSA P-384 verification with SHA-384 (R368; log 12): public key, signature, message. -/
opaque ecdsaP384 : Bytes → Bytes → Bytes → Bool

/-- ECDSA P-256 verification with SHA-256 against a key hash (R414; log 12). -/
opaque ecdsaP256 : BitVec 256 → Bytes → Bool

/-- The 16 bytes of AES-128-CMAC (R415, R416, R417; log 12): key, message. -/
opaque aesCmac : BitVec 128 → Bytes → Fin 16 → Byte

/-- The VDD_CORE target, in mV, that the fused voltage and the hottest sensor give (R443; log 13). -/
opaque avsWant : BitVec 10 → BitVec 12 → Nat

/-- The operating point's OperatingPointIdc (R133): OP_SEL, decode-state bytes, access unit bytes. -/
opaque opIdc : Nat → Bytes → Bytes → BitVec 12

/-- The content of an access unit (R131; log 14): codec, decode-state bytes, the units decoded. -/
opaque picture : Nat → Bytes → AuUnits → PicInfo

/-- The reconstructed sample of a decoded picture (R131, R141, R155; log 14): codec, decode-state bytes, the units decoded,
the bytes of the reference buffers, the concealed rectangles, plane, column, row. -/
opaque sample : Nat → Bytes → AuUnits → List Bytes → List (Nat × Nat × Nat × Nat) → Nat × Nat × Nat → Nat

/-- The prediction of a 16×16 luma block (R159; log 14): codec, decode-state bytes, the units decoded, block column and row. -/
opaque motion : Nat → Bytes → AuUnits → Nat × Nat → BlockMotion

/-- The coding of a 64×64 luma block (Table 5.12; log 14): codec, decode-state bytes, the units decoded, block column and row. -/
opaque coding : Nat → Bytes → AuUnits → Nat × Nat → BlockCoding

/-- The bytes of the decode state, and of picture buffers beside their samples, whose layout and content are not defined
for software (R138, R155, R156; log 14): 0 decode state, 1 picture buffer, 2 statistics; decode-state bytes, access unit
bytes, offset. -/
opaque sideByte : Nat → Bytes → Bytes → Nat → Byte

/-- Sign and payload of the NaN that an operation of the vector unit gives (R247; log 38): operation, operands. -/
opaque nanBits : Nat → BitVec 32 → BitVec 32 → BitVec 32 → BitVec 32

/-- The position statistics of the LAYER normalisation for a sample that padding supplies from outside the tensor (R229,
R244; log 55): 0 μ, 1 ρ; column, row. -/
opaque padStat : Nat → Int → Int → BitVec 32

/-- The code that requantisation writes in E8M0, for which Table 7.6 states none (R186, R201; log 58): the number
m × 2^e. -/
opaque e8m0Code : Int → Int → BitVec 8

/-- The 28 bytes of the FIRMWARE message that logs a reset cause (R375, Table 15.3; log 169): firmware version, RESET_CAUSE. -/
opaque firmwareMsg : BitVec 32 → BitVec 32 → BitVec 224

end Config
end Sys2Proof
end

