-- ==== Sys2Proof/Machine/SMap.lean ====
section
/-!
DEFINITION. Sparse maps: a list of (key, value) pairs in ONE canonical form. Keys rise strictly, and no listed value
equals what an unlisted key reads as. Registers, memories and per-instance state are all held this way, so that
equal contents are equal data.
-/
namespace Sys2Proof.Machine

/-- A sparse map from natural-number keys. `Host.Cell` lists (memory) are `SMap Byte`. -/
abbrev SMap (α : Type) := List (Nat × α)

/-- The value at `k`; `d k` is what an unlisted key reads as. -/
def SMap.get {α : Type} (d : Nat → α) : SMap α → Nat → α
  | [], k => d k
  | (k', v) :: m, k => if k = k' then v else if k < k' then d k else SMap.get d m k

/-- Remove `k`, so that it reads as unlisted. -/
def SMap.erase {α : Type} : SMap α → Nat → SMap α
  | [], _ => []
  | (k', v) :: m, k =>
    if k = k' then m else if k < k' then (k', v) :: m else (k', v) :: SMap.erase m k

/-- List `k` with value `v`, keeping the keys rising. -/
def SMap.insert {α : Type} : SMap α → Nat → α → SMap α
  | [], k, v => [(k, v)]
  | (k', v') :: m, k, v =>
    if k = k' then (k, v) :: m
    else if k < k' then (k, v) :: (k', v') :: m
    else (k', v') :: SMap.insert m k v

/-- Write `v` at `k`, keeping the canonical form: the unlisted value is never listed. -/
def SMap.set {α : Type} [DecidableEq α] (d : Nat → α) (m : SMap α) (k : Nat) (v : α) : SMap α :=
  if v = d k then m.erase k else m.insert k v

/-- Every key is above `b` and keys rise strictly. -/
def SMap.above {α : Type} : Nat → SMap α → Bool
  | _, [] => true
  | b, (k, _) :: m => decide (b < k) && SMap.above k m

/-- No listed value equals the unlisted one. -/
def SMap.lean {α : Type} [DecidableEq α] (d : Nat → α) : SMap α → Bool
  | [] => true
  | (k, v) :: m => decide (v ≠ d k) && SMap.lean d m

/-- The keys rise strictly. -/
def SMap.rising {α : Type} : SMap α → Bool
  | [] => true
  | (k, _) :: m => SMap.above k m

/-- The canonical form. -/
def SMap.wf {α : Type} [DecidableEq α] (d : Nat → α) (m : SMap α) : Bool :=
  m.rising && m.lean d

/-- Change the value at `k` by `f`. -/
def SMap.upd {α : Type} [DecidableEq α] (d : Nat → α) (m : SMap α) (k : Nat) (f : α → α) : SMap α :=
  m.set d k (f (m.get d k))

/-- Write the bytes of a list at consecutive keys. -/
def SMap.setRange {α : Type} [DecidableEq α] (d : Nat → α) : SMap α → Nat → List α → SMap α
  | m, _, [] => m
  | m, k, v :: vs => SMap.setRange d (m.set d k v) (k + 1) vs

/-- The values at `n` consecutive keys. -/
def SMap.getRange {α : Type} (d : Nat → α) (m : SMap α) (k n : Nat) : List α :=
  (List.range n).map fun i => m.get d (k + i)

end Sys2Proof.Machine
end

