-- ==== Sys2Proof/Machine/Bits.lean ====
section
/-!
DEFINITION. Bit fields, byte order, checksums and rounding divisions: the small operations that every chapter of the
manual uses (bit ranges [msb:lsb] of R11, little-endian fields of R457, CRC-32C of R33, R54, R286).
-/
namespace Sys2Proof.Machine

/-- Bits [hi:lo] of a number. -/
def bitsOf (x hi lo : Nat) : Nat := x / 2 ^ lo % 2 ^ (hi + 1 - lo)

/-- Bit `n` of a number. -/
def bitOf (x n : Nat) : Bool := x / 2 ^ n % 2 == 1

/-- The word with bits [hi:lo] replaced by the low bits of `v`. -/
def putBits (w : Word) (hi lo v : Nat) : Word :=
  let m := BitVec.ofNat 32 ((2 ^ (hi + 1 - lo) - 1) * 2 ^ lo)
  (w &&& ~~~m) ||| (BitVec.ofNat 32 (v * 2 ^ lo) &&& m)

/-- Bits [hi:lo] of a word, as a number. -/
def fld (w : Word) (hi lo : Nat) : Nat := bitsOf w.toNat hi lo

/-- Bit `n` of a word. -/
def tst (w : Word) (n : Nat) : Bool := w.getLsbD n

/-- The word with only bit `n` set. -/
def bit1 (n : Nat) : Word := BitVec.ofNat 32 (2 ^ n)

/-- 1 for true. -/
def b2n (b : Bool) : Nat := if b then 1 else 0

/-- A 32-bit counter that wraps, plus `n`. -/
def addWrap (w : Word) (n : Nat) : Word := BitVec.ofNat 32 (w.toNat + n)

/-- A 32-bit counter that saturates, plus `n`. -/
def addSat (w : Word) (n : Nat) : Word := BitVec.ofNat 32 (min (2 ^ 32 - 1) (w.toNat + n))

/-- Division rounded up. -/
def ceilDiv (a b : Nat) : Nat := (a + b - 1) / b

/-- `a` rounded up to a multiple of `b`. -/
def roundUp (a b : Nat) : Nat := ceilDiv a b * b

/-- A `w`-bit number read as two's complement. -/
def signedN (w x : Nat) : Int :=
  let y := x % 2 ^ w
  if y < 2 ^ (w - 1) then (y : Int) else (y : Int) - (2 ^ w : Nat)

/-- An integer as a `w`-bit two's complement number. -/
def wrapN (w : Nat) (x : Int) : Nat := (x % ((2 ^ w : Nat) : Int)).toNat

/-- The number that little-endian bytes spell (R457). -/
def leNat : Bytes → Nat
  | [] => 0
  | b :: bs => b.toNat + 256 * leNat bs

/-- The number that big-endian bytes spell (protocol headers, R457). -/
def beNat (bs : Bytes) : Nat := leNat bs.reverse

/-- `n` little-endian bytes of a number (R457). -/
def leBytes : Nat → Nat → Bytes
  | 0, _ => []
  | n + 1, x => BitVec.ofNat 8 x :: leBytes n (x / 256)

/-- `n` big-endian bytes of a number. -/
def beBytes (n x : Nat) : Bytes := (leBytes n x).reverse

/-- The bytes from `off`, `n` of them; missing bytes read as zero. -/
def sliceB (bs : Bytes) (off n : Nat) : Bytes :=
  let t := (bs.drop off).take n
  t ++ List.replicate (n - t.length) 0

/-- The little-endian number of `n` bytes at `off`. -/
def leAt (bs : Bytes) (off n : Nat) : Nat := leNat ((bs.drop off).take n)

/-- The big-endian number of `n` bytes at `off`. -/
def beAt (bs : Bytes) (off n : Nat) : Nat := beNat ((bs.drop off).take n)

/-- Little-endian word `i` of a byte block. -/
def wordAt (bs : Bytes) (i : Nat) : Nat := leAt bs (4 * i) 4

/-- One bit of a reflected CRC with polynomial `p`. -/
def crcBit (p c : Nat) : Nat := if c % 2 = 1 then (c / 2) ^^^ p else c / 2

/-- One byte of a reflected CRC. -/
def crcByte (p c : Nat) (b : Byte) : Nat :=
  let c := c ^^^ b.toNat
  crcBit p (crcBit p (crcBit p (crcBit p (crcBit p (crcBit p (crcBit p (crcBit p c)))))))

/-- A reflected 32-bit CRC with all ones at start and end (PRESUMED: the published CRC-32 conventions, log 11). -/
def crc32With (p : Nat) (bs : Bytes) : Nat := (bs.foldl (crcByte p) 0xFFFFFFFF) ^^^ 0xFFFFFFFF

/-- CRC-32C (R33, R54, R172, R258, R286, R401, R429): the Castagnoli polynomial. -/
def crc32c (bs : Bytes) : Nat := crc32With 0x82F63B78 bs

/-- The Ethernet frame check sequence (R88): the IEEE 802.3 polynomial. -/
def crc32eth (bs : Bytes) : Nat := crc32With 0xEDB88320 bs

/-- The bytes with `n` bytes at `off` replaced by zeros ("this field taken as zero"). -/
def zeroAt (bs : Bytes) (off n : Nat) : Bytes :=
  bs.take off ++ List.replicate n 0 ++ bs.drop (off + n)

/-- The indices below `n` whose bit is set in `x`. -/
def maskList (x n : Nat) : List Nat := (List.range n).filter fun i => x.testBit i

/-- Saturate to a range. -/
def clampI (lo hi x : Int) : Int := if x < lo then lo else if hi < x then hi else x

/-- Replace the element at `i` by `f` of it. -/
def modAt {α : Type} : List α → Nat → (α → α) → List α
  | [], _, _ => []
  | a :: l, 0, f => f a :: l
  | a :: l, i + 1, f => a :: modAt l i f

end Sys2Proof.Machine
end

