-- ==== Sys2Proof/Machine/Formats.lean ====
section
/-!
DEFINITION. Number formats (07_number_formats): exact dyadic numbers, the sixteen formats of Table 7.1 and the internal
formats of Table 7.3, one rounding function for all of them, IEEE 754 arithmetic on FP32 (R247), and requantisation.
-/
namespace Sys2Proof.Machine

/-! ### Exact numbers -/

/-- The number m × 2^e. -/
structure Dy where
  m : Int
  e : Int
  deriving DecidableEq, Repr, Inhabited

/-- Zero. -/
def Dy.zero : Dy := { m := 0, e := 0 }

/-- An integer. -/
def Dy.ofInt (n : Int) : Dy := { m := n, e := 0 }

/-- The mantissa at a lower exponent. -/
def Dy.at (x : Dy) (e : Int) : Int := x.m * ((2 ^ (x.e - e).toNat : Nat) : Int)

/-- Sum. -/
def Dy.add (x y : Dy) : Dy :=
  let e := if x.e ≤ y.e then x.e else y.e
  { m := x.at e + y.at e, e := e }

/-- Negation. -/
def Dy.neg (x : Dy) : Dy := { x with m := -x.m }

/-- Difference. -/
def Dy.sub (x y : Dy) : Dy := x.add y.neg

/-- Product. -/
def Dy.mul (x y : Dy) : Dy := { m := x.m * y.m, e := x.e + y.e }

/-- Magnitude. -/
def Dy.abs (x : Dy) : Dy := { x with m := (x.m.natAbs : Int) }

/-- Less than. -/
def Dy.lt (x y : Dy) : Bool := decide ((x.sub y).m < 0)

/-- The exponent of the leading bit of a number that is not zero. -/
def Dy.lead (x : Dy) : Int := (Nat.log2 x.m.natAbs : Nat) + x.e

/-- Round to a multiple of 2^q: half to even, the sign kept. -/
def Dy.toMultiple (x : Dy) (q : Int) : Int :=
  if q ≤ x.e then x.at q
  else
    let d := 2 ^ (q - x.e).toNat
    let a := x.m.natAbs
    let n := a / d
    let r := a % d
    let n := if d < 2 * r ∨ (2 * r = d ∧ n % 2 = 1) then n + 1 else n
    if x.m < 0 then -(n : Int) else n

/-- Truncate towards zero to a multiple of 2^q. -/
def Dy.truncTo (x : Dy) (q : Int) : Dy :=
  if q ≤ x.e then x
  else
    let n := x.m.natAbs / 2 ^ (q - x.e).toNat
    { m := if x.m < 0 then -(n : Int) else n, e := q }

/-! ### Floating formats -/

/-- A floating format: exponent and fraction bits, bias, the largest finite magnitude code, and whether the code after
it is an infinity (Tables 7.1, 7.3). -/
structure FF where
  eb : Nat
  mb : Nat
  bias : Nat
  maxCode : Nat
  inf : Bool
  deriving DecidableEq, Repr

/-- FP32. -/
def ffFP32 : FF := { eb := 8, mb := 23, bias := 127, maxCode := 0x7F7FFFFF, inf := true }
/-- FP16. -/
def ffFP16 : FF := { eb := 5, mb := 10, bias := 15, maxCode := 0x7BFF, inf := true }
/-- BF16. -/
def ffBF16 : FF := { eb := 8, mb := 7, bias := 127, maxCode := 0x7F7F, inf := true }
/-- FP8 E5M2. -/
def ffE5M2 : FF := { eb := 5, mb := 2, bias := 15, maxCode := 0x7B, inf := true }
/-- FP8 E4M3. -/
def ffE4M3 : FF := { eb := 4, mb := 3, bias := 7, maxCode := 0x7E, inf := false }
/-- FP6 E3M2. -/
def ffE3M2 : FF := { eb := 3, mb := 2, bias := 3, maxCode := 0x1F, inf := false }
/-- FP6 E2M3. -/
def ffE2M3 : FF := { eb := 2, mb := 3, bias := 1, maxCode := 0x1F, inf := false }
/-- FP4 E2M1. -/
def ffE2M1 : FF := { eb := 2, mb := 1, bias := 1, maxCode := 0x7, inf := false }
/-- AIF. -/
def ffAIF : FF := { eb := 8, mb := 10, bias := 127, maxCode := 0x3FFFF, inf := false }
/-- AIF-N. -/
def ffAIFN : FF := { eb := 8, mb := 3, bias := 127, maxCode := 0x7FF, inf := false }

/-- A decoded value: NaN (or no value), an infinity, or a finite number with the sign its code carries. -/
inductive Fv where
  | nan
  | inf (neg : Bool)
  | fin (neg : Bool) (v : Dy)
  deriving DecidableEq, Repr, Inhabited

/-- The value of a code (R185, R188). -/
def FF.decode (f : FF) (code : Nat) : Fv :=
  let neg := bitOf code (f.eb + f.mb)
  let mag := code % 2 ^ (f.eb + f.mb)
  if f.maxCode < mag then (if f.inf ∧ mag = f.maxCode + 1 then .inf neg else .nan)
  else
    let ex := mag / 2 ^ f.mb
    let fr := mag % 2 ^ f.mb
    let m : Int := if ex = 0 then (fr : Int) else ((2 ^ f.mb + fr : Nat) : Int)
    let e : Int := (if ex = 0 then 1 else (ex : Int)) - f.bias - f.mb
    .fin neg { m := if neg then -m else m, e := e }

/-- Round a number to a format, nearest, ties to even (R189, R197, R201): the magnitude code, and whether it lies above
the largest finite one. -/
def FF.roundMag (f : FF) (x : Dy) : Nat × Bool :=
  if x.m = 0 then (0, false)
  else
    let emin : Int := 1 - (f.bias : Int)
    let q := (if x.lead < emin then emin else x.lead) - (f.mb : Int)
    let n := (x.toMultiple q).natAbs
    let code := if n < 2 ^ f.mb then n else (q + f.mb + f.bias).toNat * 2 ^ f.mb + (n - 2 ^ f.mb)
    (code, decide (f.maxCode < code))

/-- The sign bit of a format. -/
def FF.sign (f : FF) (neg : Bool) : Nat := if neg then 2 ^ (f.eb + f.mb) else 0

/-- Round with saturation at the largest finite value (R185, R189, R201), and whether saturation changed the value. -/
def FF.roundSat (f : FF) (x : Dy) : Nat × Bool :=
  let r := f.roundMag x
  (f.sign (decide (x.m < 0)) + (if r.2 then f.maxCode else r.1), r.2)

/-- The number that a rounding with saturation gives. -/
def FF.rnd (f : FF) (x : Dy) : Dy :=
  match f.decode (f.roundSat x).1 with
  | .fin _ v => v
  | .nan => Dy.zero
  | .inf _ => Dy.zero

/-! ### FP32 arithmetic (R247) -/

/-- A NaN: a quiet NaN whose sign and payload the manual leaves open (log 38). -/
def nanOf (op : Nat) (a b c : Word) : Word := 0x7FC00000#32 ||| (Config.nanBits op a b c &&& 0x803FFFFF#32)

/-- The value of an FP32 word. -/
def f32 (w : Word) : Fv := ffFP32.decode w.toNat

/-- Round to an FP32 word: overflow gives an infinity (IEEE 754). -/
def toF32 (neg0 : Bool) (x : Dy) : Word :=
  let neg := if x.m = 0 then neg0 else decide (x.m < 0)
  let r := ffFP32.roundMag x
  BitVec.ofNat 32 (ffFP32.sign neg + (if r.2 then 0x7F800000 else r.1))

/-- An infinity. -/
def infW (neg : Bool) : Word := if neg then 0xFF800000 else 0x7F800000

/-- The word is a NaN. -/
def isNan (w : Word) : Bool := f32 w == .nan

/-- VA + VB. -/
def f32Add (a b : Word) : Word :=
  match f32 a, f32 b with
  | .nan, _ => nanOf 4 a b 0
  | _, .nan => nanOf 4 a b 0
  | .inf x, .inf y => if x = y then infW x else nanOf 4 a b 0
  | .inf x, .fin _ _ => infW x
  | .fin _ _, .inf y => infW y
  | .fin n x, .fin k y => toF32 (n && k) (x.add y)

/-- The negated word. -/
def f32Neg (a : Word) : Word := a ^^^ 0x80000000#32

/-- VA - VB. -/
def f32Sub (a b : Word) : Word := if isNan b then nanOf 5 a b 0 else f32Add a (f32Neg b)

/-- VA × VB. -/
def f32Mul (a b : Word) : Word :=
  match f32 a, f32 b with
  | .nan, _ => nanOf 6 a b 0
  | _, .nan => nanOf 6 a b 0
  | .inf x, .inf y => infW (x != y)
  | .inf x, .fin n y => if y.m = 0 then nanOf 6 a b 0 else infW (x != n)
  | .fin n x, .inf y => if x.m = 0 then nanOf 6 a b 0 else infW (n != y)
  | .fin n x, .fin k y => toF32 (n != k) (x.mul y)

/-- VA × VB + VC with one rounding. -/
def f32Fma (a b c : Word) : Word :=
  match f32 a, f32 b, f32 c with
  | .fin n x, .fin k y, .fin l z => toF32 ((n != k) && l) ((x.mul y).add z)
  | .fin _ _, .fin _ _, .inf l => infW l
  | _, _, _ =>
    let p := f32Mul a b
    if isNan p ∨ isNan c then nanOf 7 a b c else f32Add p c

/-- a < b, false with a NaN. -/
def f32Lt (a b : Word) : Bool :=
  match f32 a, f32 b with
  | .nan, _ => false
  | _, .nan => false
  | .inf x, .inf y => x && !y
  | .inf x, .fin _ _ => x
  | .fin _ _, .inf y => !y
  | .fin _ x, .fin _ y => x.lt y

/-- The larger word; a NaN when either is one. -/
def f32Max (a b : Word) : Word := if isNan a ∨ isNan b then nanOf 8 a b 0 else if f32Lt a b then b else a

/-- The smaller word; a NaN when either is one. -/
def f32Min (a b : Word) : Word := if isNan a ∨ isNan b then nanOf 9 a b 0 else if f32Lt b a then b else a

/-- A positive quotient with enough bits for one correct rounding: the last bit is odd when a remainder is left. -/
def quotDy (num den : Nat) (e : Int) : Dy :=
  let n := num * 2 ^ 64
  let q := n / den
  { m := ((2 * q + (if n % den = 0 then 0 else 1) : Nat) : Int), e := e - 65 }

/-- A quotient of finite numbers, correctly rounded later; the divisor is not zero. -/
def Dy.div (x y : Dy) : Dy :=
  let k := y.m.natAbs.log2
  let q := quotDy (x.m.natAbs * 2 ^ k) y.m.natAbs (x.e - y.e - k)
  if decide (x.m < 0) != decide (y.m < 0) then q.neg else q

/-- a / b (Table 9.8). -/
def f32Div (a b : Word) : Word :=
  match f32 a, f32 b with
  | .nan, _ => nanOf 32 a b 0
  | _, .nan => nanOf 32 a b 0
  | .inf _, .inf _ => nanOf 32 a b 0
  | .inf x, .fin n _ => infW (x != n)
  | .fin n _, .inf y => toF32 (n != y) Dy.zero
  | .fin n x, .fin k y =>
    if y.m = 0 then (if x.m = 0 then nanOf 32 a b 0 else infW (n != k)) else toF32 (n != k) (x.div y)

/-- RCP, correctly rounded; a zero gives +infinity whatever its sign (R185; log 39). -/
def f32Rcp (a : Word) : Word :=
  match f32 a with
  | .nan => nanOf 13 a 0 0
  | .inf n => toF32 n Dy.zero
  | .fin n x => if x.m = 0 then infW false else toF32 n ((Dy.ofInt 1).div x)

/-- The integer square root: the largest r with r² ≤ n, found bit by bit from bit k. -/
def isqrtFrom (n : Nat) : Nat → Nat → Nat
  | 0, r => r
  | k + 1, r => isqrtFrom n k (if (r + 2 ^ k) * (r + 2 ^ k) ≤ n then r + 2 ^ k else r)

/-- The integer square root. -/
def isqrt (n : Nat) : Nat := isqrtFrom n (n.log2 / 2 + 1) 0

/-- 1 / √x of a positive number, with enough bits for one correct rounding. -/
def rsqrtDy (m : Nat) (e : Int) : Dy :=
  -- make the exponent even, then 1/√m = √(2^(2s) / m) / 2^s with a remainder bit
  let m2 := if e % 2 = 0 then m else 2 * m
  let e2 := if e % 2 = 0 then e else e - 1
  let s := 64 + m2.log2
  let n := 2 ^ (2 * s)
  let r := isqrt (n / m2)
  let exact := r * r * m2 == n
  { m := ((2 * r + (if exact then 0 else 1) : Nat) : Int), e := -(e2 / 2) - s - 1 }

/-- RSQRT, correctly rounded; of a zero +infinity, of a negative number NaN. -/
def f32Rsqrt (a : Word) : Word :=
  match f32 a with
  | .nan => nanOf 14 a 0 0
  | .inf n => if n then nanOf 14 a 0 0 else 0
  | .fin _ x =>
    if x.m = 0 then infW false
    else if x.m < 0 then nanOf 14 a 0 0
    else toF32 false (rsqrtDy x.m.natAbs x.e)

/-- Terms of the exponential series in fixed point with `p` fraction bits: term n is x^n / n!. -/
def expSeries (p : Nat) (x : Nat) : Nat → Nat → Nat → Nat → Nat
  | 0, _, _, acc => acc
  | fuel + 1, n, t, acc =>
    let t' := t * x / 2 ^ p / n
    expSeries p x fuel (n + 1) t' (acc + t')

/-- ln 2 with 256 fraction bits, rounded down. -/
def ln2Fix : Nat := 0xb17217f7d1cf79abc9e3b39803f2f6af40f343267298b62d8a0d175b8baafa2b

/-- e^x of a finite FP32 number of moderate size, in fixed point with 256 fraction bits and far more than the bits that
one correct rounding needs: x = k ln 2 + r, e^r by its series; the last bit is odd, since e^x is irrational for x ≠ 0. -/
def expDy (x : Dy) : Dy :=
  let p := 256
  let xf : Int := if 0 ≤ x.e then x.m * ((2 ^ (x.e.toNat + p) : Nat) : Int)
    else if -x.e ≤ p then x.m * ((2 ^ (p - (-x.e).toNat) : Nat) : Int)
    else x.m / ((2 ^ ((-x.e).toNat - p) : Nat) : Int)
  let k := xf / (ln2Fix : Int)
  let r := (xf - k * (ln2Fix : Int)).toNat
  let s := expSeries p r 80 1 (2 ^ p) (2 ^ p)
  { m := ((2 * s + 1 : Nat) : Int), e := k - 257 }

/-- EXP, correctly rounded. -/
def f32Exp (a : Word) : Word :=
  match f32 a with
  | .nan => nanOf 12 a 0 0
  | .inf n => if n then 0 else infW false
  | .fin _ x =>
    if x.m = 0 then 0x3F800000
    else if (Dy.ofInt 128).lt x then infW false
    else if x.lt (Dy.ofInt (-256)) then 0
    else if x.lead < -40 then 0x3F800000
    else toF32 false (expDy x)

/-- A rounding to an integer, half to even. -/
def Dy.toInt (x : Dy) : Int := x.toMultiple 0

/-- CVT of FP32 to INT32: half to even, saturating, NaN to 0. -/
def f32ToI32 (a : Word) : Word :=
  match f32 a with
  | .nan => 0
  | .inf n => if n then 0x80000000 else 0x7FFFFFFF
  | .fin _ x => BitVec.ofInt 32 (clampI (-2147483648) 2147483647 x.toInt)

/-- CVT of INT32 to FP32. -/
def i32ToF32 (a : Word) : Word := toF32 false (Dy.ofInt a.toInt)

/-! ### Saturating FP32 steps (R185, R197, R245) -/

/-- A step of the epilogue, the prologue or a lens: rounded to FP32, saturating at the largest finite value; whether it
saturated. -/
def sat32 (x : Dy) : Fv × Bool :=
  let r := ffFP32.roundSat x
  (ffFP32.decode r.1, r.2)

/-- The sign that a finite value carries; a zero carries that of its code. -/
def signOf (neg : Bool) (x : Dy) : Bool := if x.m = 0 then neg else decide (x.m < 0)

/-- A saturating step whose exact result, when it is zero, has the sign given (IEEE 754). -/
def sat32s (neg0 : Bool) (x : Dy) : Fv × Bool := if x.m = 0 then (.fin neg0 Dy.zero, false) else sat32 x

/-- A saturating sum. -/
def fvAdd (a b : Fv) : Fv × Bool :=
  match a, b with
  | .nan, _ => (.nan, false)
  | _, .nan => (.nan, false)
  | .inf x, .inf y => (if x = y then .inf x else .nan, false)
  | .inf x, .fin _ _ => (.inf x, false)
  | .fin _ _, .inf y => (.inf y, false)
  | .fin n x, .fin k y => sat32s (signOf n x && signOf k y) (x.add y)

/-- Negation. -/
def Fv.neg : Fv → Fv
  | .nan => .nan
  | .inf n => .inf (!n)
  | .fin n x => .fin (!n) x.neg

/-- A saturating product. -/
def fvMul (a b : Fv) : Fv × Bool :=
  match a, b with
  | .nan, _ => (.nan, false)
  | _, .nan => (.nan, false)
  | .inf x, .inf y => (.inf (x != y), false)
  | .inf x, .fin n y => (if y.m = 0 then .nan else .inf (x != n), false)
  | .fin n x, .inf y => (if x.m = 0 then .nan else .inf (n != y), false)
  | .fin n x, .fin k y => sat32s (signOf n x != signOf k y) (x.mul y)

/-- Less than. -/
def Fv.lt : Fv → Fv → Bool
  | .nan, _ => false
  | _, .nan => false
  | .inf x, .inf y => x && !y
  | .inf x, .fin _ _ => x
  | .fin _ _, .inf y => !y
  | .fin _ x, .fin _ y => x.lt y

/-- The number of a finite value, zero for the others. -/
def Fv.dy : Fv → Dy
  | .fin _ v => v
  | .nan => Dy.zero
  | .inf _ => Dy.zero

/-! ### The sixteen formats -/

/-- Bits of a code (Table 7.1). -/
def fmtBits (f : Nat) : Nat :=
  if f = 0 then 2 else if f ≤ 3 then 4 else if f ≤ 5 then 6 else if f ≤ 9 then 8 else if f ≤ 0xC then 16
  else if f ≤ 0xE then 32 else 8

/-- The floating format of a code, if it is one. -/
def fmtFF (f : Nat) : Option FF :=
  match f with
  | 3 => some ffE2M1 | 4 => some ffE2M3 | 5 => some ffE3M2 | 8 => some ffE4M3 | 9 => some ffE5M2
  | 0xB => some ffFP16 | 0xC => some ffBF16 | 0xD => some ffFP32
  | _ => none

/-- Range of an integer format. -/
def fmtRange (f : Nat) : Int × Int :=
  match f with
  | 0 => (-1, 1) | 1 => (-8, 7) | 2 => (0, 15) | 6 => (-128, 127) | 7 => (0, 255) | 0xA => (-32768, 32767)
  | _ => (-2147483648, 2147483647)

/-- An integer format with a zero point (R198). -/
def fmtZp (f : Nat) : Bool := f == 1 || f == 2 || f == 6 || f == 7 || f == 0xA

/-- An integer format. -/
def fmtInt (f : Nat) : Bool := f == 0 || f == 1 || f == 2 || f == 6 || f == 7 || f == 0xA || f == 0xE

/-- The value of a code of a format; `nan` also stands for the reserved INT2T code (Tables 7.1, 7.5). -/
def fmtValue (f code : Nat) : Fv :=
  if f = 0 then
    (if code % 4 = 3 then .nan else .fin false (Dy.ofInt (if code % 4 = 1 then 1 else if code % 4 = 2 then -1 else 0)))
  else if f = 0xF then (if code = 0xFF then .nan else .fin false { m := 1, e := (code : Int) - 127 })
  else match fmtFF f with
    | some ff => ff.decode code
    | none =>
      let v : Int := if f = 2 ∨ f = 7 then (code : Int) else signedN (fmtBits f) code
      .fin (decide (v < 0)) (Dy.ofInt v)

/-- Bytes of a row of n codes (R187, Table 7.2). -/
def fmtBytes (f n : Nat) : Nat :=
  if f = 4 ∨ f = 5 then ceilDiv n 4 * 3 else ceilDiv (n * fmtBits f) 8

/-- Element i of packed bytes (Table 7.2): the containers are little-endian and hold elements from the low end. -/
def codeAt (f : Nat) (b : Bytes) (i : Nat) : Nat :=
  let w := fmtBits f
  let bit := i * w
  leAt b (bit / 8) 4 / 2 ^ (bit % 8) % 2 ^ w

/-- Pack codes, the filling bits of the last container zero. -/
def packCodes (f : Nat) (codes : List Nat) : Bytes :=
  let w := fmtBits f
  leBytes (fmtBytes f codes.length)
    ((codes.foldl (fun (a : Nat × Nat) c => (a.1 + c % 2 ^ w * 2 ^ a.2, a.2 + w)) (0, 0)).1)

/-- Requantise (R201, R202, Table 7.6): the code of x in a format with multiplier and zero point; whether it clipped, and
whether x was a NaN. -/
def requant (f : Nat) (x mul : Fv) (zp : Int) : Nat × Bool × Bool :=
  if f = 0xD then
    (match x with
     | .nan => (0, false, true)
     | .inf n => ((infW n).toNat, false, false)
     | .fin n v => (((toF32 n v).toNat), false, false))
  else
    let p := (fvMul x mul).1
    if f = 0xF then ((Config.e8m0Code p.dy.m p.dy.e).toNat, false, decide (p = .nan)) else
    let lo := (fmtRange f).1
    let hi := (fmtRange f).2
    let w := fmtBits f
    match p with
    | .nan => (if fmtInt f then (if f = 0 then 0 else wrapN w (clampI lo hi zp)) else 0, false, true)
    | .inf n =>
      (match fmtFF f with
       | some ff => (ff.sign n + ff.maxCode, true, false)
       | none => (if f = 0 then (if n then 2 else 1) else wrapN w (if n then lo else hi), true, false))
    | .fin n v =>
      match fmtFF f with
      | some ff =>
        let r := ff.roundSat v
        (if v.m = 0 then ff.sign n else r.1, r.2, false)
      | none =>
        let i := v.toInt + (if f = 0 ∨ f = 0xE then 0 else zp)
        let c := clampI lo hi i
        (if f = 0 then (if c = 1 then 1 else if c = -1 then 2 else 0) else wrapN w c, decide (c ≠ i), false)

/-! ### Expansion (R191 to R193) -/

/-- An expanded element: its internal value, whether it clipped, whether it was invalid. -/
structure Exp where
  v : Dy
  sat : Bool
  bad : Bool
  deriving DecidableEq, Repr, Inhabited

/-- The filling element (R195). -/
def Exp.zero : Exp := { v := Dy.zero, sat := false, bad := false }

/-- Round an exact value into an internal format; a value above the largest finite one counts as clipped (R189). -/
def expandDy (f : FF) (x : Dy) : Exp :=
  { v := (f.decode (f.roundSat x).1).dy, sat := (f.decode f.maxCode).dy.lt x.abs, bad := false }

/-- Expand a value under a scale (R191, R193, Table 7.5). -/
def expand (f : FF) (v s : Fv) : Exp :=
  match s with
  | .nan => { v := Dy.zero, sat := false, bad := true }
  | .inf _ => { v := Dy.zero, sat := false, bad := true }
  | .fin _ k =>
    match v with
    | .nan => { v := Dy.zero, sat := false, bad := true }
    | .inf n => { v := (f.decode (f.sign n + f.maxCode)).dy, sat := true, bad := false }
    | .fin _ x => expandDy f (x.mul k)

end Sys2Proof.Machine
end

