-- ==== Sys2Proof/Machine/RegMap.lean ====
section
/-!
DEFINITION. The register map: the BAR0 layout of Table 1.1, the address of every register of the manual's tables under the
manual's own name, and one row per register with its access masks (Table 0.6) and reset value.
-/
namespace Sys2Proof.Machine

/-! ### Addresses -/

/-! DEVCTL -/

/-- DEVCTL IDENT (R35). -/
abbrev Reg.DEVCTL.IDENT : Nat := 0x10040
/-- DEVCTL NODE (R35). -/
abbrev Reg.DEVCTL.NODE : Nat := 0x10044
/-- DEVCTL STRAPS (R35). -/
abbrev Reg.DEVCTL.STRAPS : Nat := 0x10048
/-- DEVCTL SEAL_STATE (R35). -/
abbrev Reg.DEVCTL.SEAL_STATE : Nat := 0x1004C
/-- DEVCTL RESET_CAUSE (R35). -/
abbrev Reg.DEVCTL.RESET_CAUSE : Nat := 0x10050
/-- DEVCTL SOFT_RESET (R35). -/
abbrev Reg.DEVCTL.SOFT_RESET : Nat := 0x10054
/-- DEVCTL TEMP (R35). -/
abbrev Reg.DEVCTL.TEMP : Nat := 0x10058
/-- DEVCTL UNMAPPED_ADDR (R35). -/
abbrev Reg.DEVCTL.UNMAPPED_ADDR : Nat := 0x1005C
/-- DEVCTL SCRATCH (R35). -/
abbrev Reg.DEVCTL.SCRATCH : Nat := 0x10060
/-- DEVCTL PAIR_CFG (R438). -/
abbrev Reg.DEVCTL.PAIR_CFG : Nat := 0x10080
/-- DEVCTL HB_MAC_LO (R438). -/
abbrev Reg.DEVCTL.HB_MAC_LO : Nat := 0x10084
/-- DEVCTL HB_MAC_HI (R438). -/
abbrev Reg.DEVCTL.HB_MAC_HI : Nat := 0x10088
/-- DEVCTL HB_VLAN (R438). -/
abbrev Reg.DEVCTL.HB_VLAN : Nat := 0x1008C
/-- DEVCTL HB_PHASE (R438). -/
abbrev Reg.DEVCTL.HB_PHASE : Nat := 0x10090
/-- DEVCTL PRIMACY_TERM_REQ (R438). -/
abbrev Reg.DEVCTL.PRIMACY_TERM_REQ : Nat := 0x10094
/-- DEVCTL PRIMACY_REQ (R438). -/
abbrev Reg.DEVCTL.PRIMACY_REQ : Nat := 0x10098
/-- DEVCTL PRIMACY (R438). -/
abbrev Reg.DEVCTL.PRIMACY : Nat := 0x1009C
/-- DEVCTL PRIMACY_TERM (R438). -/
abbrev Reg.DEVCTL.PRIMACY_TERM : Nat := 0x100A0
/-- DEVCTL PEER_STATUS (R438). -/
abbrev Reg.DEVCTL.PEER_STATUS : Nat := 0x100A4
/-- DEVCTL PEER_TERM (R438). -/
abbrev Reg.DEVCTL.PEER_TERM : Nat := 0x100A8
/-- DEVCTL HB_RX_CNT (R438). -/
abbrev Reg.DEVCTL.HB_RX_CNT : Nat := 0x100AC
/-- DEVCTL HB_BAD_CNT (R438). -/
abbrev Reg.DEVCTL.HB_BAD_CNT : Nat := 0x100B0
/-- DEVCTL AVS_STATUS (R455). -/
abbrev Reg.DEVCTL.AVS_STATUS : Nat := 0x100C0
/-- DEVCTL CLK_STATUS (R455). -/
abbrev Reg.DEVCTL.CLK_STATUS : Nat := 0x100C4
/-- DEVCTL TJ_PEAK (R455). -/
abbrev Reg.DEVCTL.TJ_PEAK : Nat := 0x100C8
/-- DEVCTL THERM_STATUS (R455). -/
abbrev Reg.DEVCTL.THERM_STATUS : Nat := 0x100CC

/-! TMU -/

/-- TMU EPOCH_CFG (R82). -/
abbrev Reg.TMU.EPOCH_CFG : Nat := 0x20040
/-- TMU PERIOD_NS (R82). -/
abbrev Reg.TMU.PERIOD_NS : Nat := 0x20044
/-- TMU ORIGIN_LO (R82). -/
abbrev Reg.TMU.ORIGIN_LO : Nat := 0x20048
/-- TMU ORIGIN_HI (R82). -/
abbrev Reg.TMU.ORIGIN_HI : Nat := 0x2004C
/-- TMU EPOCH_LO (R82). -/
abbrev Reg.TMU.EPOCH_LO : Nat := 0x20050
/-- TMU EPOCH_HI (R82). -/
abbrev Reg.TMU.EPOCH_HI : Nat := 0x20054
/-- TMU PHASE (R82). -/
abbrev Reg.TMU.PHASE : Nat := 0x20058
/-- TMU TIME_LO (R82). -/
abbrev Reg.TMU.TIME_LO : Nat := 0x2005C
/-- TMU TIME_HI (R82). -/
abbrev Reg.TMU.TIME_HI : Nat := 0x20060
/-- TMU SYNC_STATUS (R82). -/
abbrev Reg.TMU.SYNC_STATUS : Nat := 0x20064
/-- TMU TRIG_TOL (R82). -/
abbrev Reg.TMU.TRIG_TOL : Nat := 0x20068
/-- TMU TRIG_SKEW (R82). -/
abbrev Reg.TMU.TRIG_SKEW : Nat := 0x2006C
/-- TMU REPLAY_TARGET_LO (R82). -/
abbrev Reg.TMU.REPLAY_TARGET_LO : Nat := 0x20070
/-- TMU REPLAY_TARGET_HI (R82). -/
abbrev Reg.TMU.REPLAY_TARGET_HI : Nat := 0x20074
/-- TMU PPS_CTRL (R82). -/
abbrev Reg.TMU.PPS_CTRL : Nat := 0x20078
/-- TMU SYNC_CFG (R82). -/
abbrev Reg.TMU.SYNC_CFG : Nat := 0x2007C
/-- TMU TRIG_OUT_PHASE (R82). -/
abbrev Reg.TMU.TRIG_OUT_PHASE (i : Nat) : Nat := 0x20000 + 8 * i + 128
/-- TMU TRIG_OUT_WIDTH (R82). -/
abbrev Reg.TMU.TRIG_OUT_WIDTH (i : Nat) : Nat := 0x20000 + 8 * i + 132

/-! PLE -/

/-- PLE COMMIT (R84). -/
abbrev Reg.PLE.COMMIT : Nat := 0x30040
/-- PLE COMMIT_STATUS (R84). -/
abbrev Reg.PLE.COMMIT_STATUS : Nat := 0x30044
/-- PLE COMMIT_EPOCH_LO (R84). -/
abbrev Reg.PLE.COMMIT_EPOCH_LO : Nat := 0x30048
/-- PLE COMMIT_EPOCH_HI (R84). -/
abbrev Reg.PLE.COMMIT_EPOCH_HI : Nat := 0x3004C
/-- PLE ACTIVE (R84). -/
abbrev Reg.PLE.ACTIVE : Nat := 0x30050
/-- PLE ACTIVE_PLAN_ID (R84). -/
abbrev Reg.PLE.ACTIVE_PLAN_ID : Nat := 0x30054
/-- PLE LOAD (R84). -/
abbrev Reg.PLE.LOAD : Nat := 0x30058
/-- PLE RETRY_MIN (R84). -/
abbrev Reg.PLE.RETRY_MIN : Nat := 0x3005C
/-- PLE FIRED_CNT (R84). -/
abbrev Reg.PLE.FIRED_CNT : Nat := 0x30060
/-- PLE SKIPPED_CNT (R84). -/
abbrev Reg.PLE.SKIPPED_CNT : Nat := 0x30064
/-- PLE FORCED_CNT (R84). -/
abbrev Reg.PLE.FORCED_CNT : Nat := 0x30068
/-- PLE LAST_FORCED (R84). -/
abbrev Reg.PLE.LAST_FORCED : Nat := 0x3006C
/-- PLE SLOT_BASE_LO (R84). -/
abbrev Reg.PLE.SLOT_BASE_LO (i : Nat) : Nat := 0x30000 + 16 * i + 256
/-- PLE SLOT_BASE_HI (R84). -/
abbrev Reg.PLE.SLOT_BASE_HI (i : Nat) : Nat := 0x30000 + 16 * i + 260
/-- PLE SLOT_SIZE (R84). -/
abbrev Reg.PLE.SLOT_SIZE (i : Nat) : Nat := 0x30000 + 16 * i + 264
/-- PLE SLOT_STATUS (R84). -/
abbrev Reg.PLE.SLOT_STATUS (i : Nat) : Nat := 0x30000 + 16 * i + 268
/-- PLE STREAM_DL (R84). -/
abbrev Reg.PLE.STREAM_DL (i : Nat) : Nat := 0x30000 + 4 * i + 0x400

/-! NIX -/

/-- NIX PORT_CFG (R113). -/
abbrev Reg.NIX.PORT_CFG (n : Nat) : Nat := (if n < 8 then 0x80000 + 16384 * n else 0x90000 + 16384 * n) + 64
/-- NIX MAC_LO (R113). -/
abbrev Reg.NIX.MAC_LO (n : Nat) : Nat := (if n < 8 then 0x80000 + 16384 * n else 0x90000 + 16384 * n) + 68
/-- NIX MAC_HI (R113). -/
abbrev Reg.NIX.MAC_HI (n : Nat) : Nat := (if n < 8 then 0x80000 + 16384 * n else 0x90000 + 16384 * n) + 72
/-- NIX MAX_FRAME (R113). -/
abbrev Reg.NIX.MAX_FRAME (n : Nat) : Nat := (if n < 8 then 0x80000 + 16384 * n else 0x90000 + 16384 * n) + 76
/-- NIX LINK_STATUS (R113). -/
abbrev Reg.NIX.LINK_STATUS (n : Nat) : Nat := (if n < 8 then 0x80000 + 16384 * n else 0x90000 + 16384 * n) + 80
/-- NIX TRAIN_LOG (R113). -/
abbrev Reg.NIX.TRAIN_LOG (n : Nat) : Nat := (if n < 8 then 0x80000 + 16384 * n else 0x90000 + 16384 * n) + 84
/-- NIX RX_FRAMES (R113). -/
abbrev Reg.NIX.RX_FRAMES (n : Nat) : Nat := (if n < 8 then 0x80000 + 16384 * n else 0x90000 + 16384 * n) + 88
/-- NIX RX_FCS_ERR (R113). -/
abbrev Reg.NIX.RX_FCS_ERR (n : Nat) : Nat := (if n < 8 then 0x80000 + 16384 * n else 0x90000 + 16384 * n) + 92
/-- NIX RX_REJECT (R113). -/
abbrev Reg.NIX.RX_REJECT (n : Nat) : Nat := (if n < 8 then 0x80000 + 16384 * n else 0x90000 + 16384 * n) + 96
/-- NIX TX_FRAMES (R113). -/
abbrev Reg.NIX.TX_FRAMES (n : Nat) : Nat := (if n < 8 then 0x80000 + 16384 * n else 0x90000 + 16384 * n) + 100

/-! ING -/

/-- ING REORDER_TIMEOUT (R114). -/
abbrev Reg.ING.REORDER_TIMEOUT : Nat := 0xA0040
/-- ING JUMP_MAX (R114). -/
abbrev Reg.ING.JUMP_MAX : Nat := 0xA0044
/-- ING RTCP_CFG (R114). -/
abbrev Reg.ING.RTCP_CFG : Nat := 0xA0048
/-- ING UNMATCHED_CNT (R114). -/
abbrev Reg.ING.UNMATCHED_CNT : Nat := 0xA004C
/-- ING IP_DROP_CNT (R114). -/
abbrev Reg.ING.IP_DROP_CNT : Nat := 0xA0050
/-- ING CSUM_ERR_CNT (R114). -/
abbrev Reg.ING.CSUM_ERR_CNT : Nat := 0xA0054

/-! SCX -/

/-- SCX CMD (R115). -/
abbrev Reg.SCX.CMD (n : Nat) : Nat := 0x100000 + 0x1000 * n + 64
/-- SCX STATE (R115). -/
abbrev Reg.SCX.STATE (n : Nat) : Nat := 0x100000 + 0x1000 * n + 68
/-- SCX MATCH_CFG (R115). -/
abbrev Reg.SCX.MATCH_CFG (n : Nat) : Nat := 0x100000 + 0x1000 * n + 72
/-- SCX MATCH_PORTS (R115). -/
abbrev Reg.SCX.MATCH_PORTS (n : Nat) : Nat := 0x100000 + 0x1000 * n + 76
/-- SCX MATCH_VLAN (R115). -/
abbrev Reg.SCX.MATCH_VLAN (n : Nat) : Nat := 0x100000 + 0x1000 * n + 80
/-- SCX MATCH_SSRC (R115). -/
abbrev Reg.SCX.MATCH_SSRC (n : Nat) : Nat := 0x100000 + 0x1000 * n + 84
/-- SCX MATCH_DIP (R115). -/
abbrev Reg.SCX.MATCH_DIP (n i : Nat) : Nat := 0x100000 + 0x1000 * n + 4 * i + 96
/-- SCX MATCH_SIP (R115). -/
abbrev Reg.SCX.MATCH_SIP (n i : Nat) : Nat := 0x100000 + 0x1000 * n + 4 * i + 112
/-- SCX STREAM_CFG (R115). -/
abbrev Reg.SCX.STREAM_CFG (n : Nat) : Nat := 0x100000 + 0x1000 * n + 128
/-- SCX MAX_AU (R115). -/
abbrev Reg.SCX.MAX_AU (n : Nat) : Nat := 0x100000 + 0x1000 * n + 132
/-- SCX RTP_TPE (R115). -/
abbrev Reg.SCX.RTP_TPE (n : Nat) : Nat := 0x100000 + 0x1000 * n + 136
/-- SCX ANCHOR_TS (R115). -/
abbrev Reg.SCX.ANCHOR_TS (n : Nat) : Nat := 0x100000 + 0x1000 * n + 140
/-- SCX ANCHOR_EPOCH_LO (R115). -/
abbrev Reg.SCX.ANCHOR_EPOCH_LO (n : Nat) : Nat := 0x100000 + 0x1000 * n + 144
/-- SCX ANCHOR_EPOCH_HI (R115). -/
abbrev Reg.SCX.ANCHOR_EPOCH_HI (n : Nat) : Nat := 0x100000 + 0x1000 * n + 148
/-- SCX POLICE_RATE (R115). -/
abbrev Reg.SCX.POLICE_RATE (n : Nat) : Nat := 0x100000 + 0x1000 * n + 152
/-- SCX POLICE_BURST (R115). -/
abbrev Reg.SCX.POLICE_BURST (n : Nat) : Nat := 0x100000 + 0x1000 * n + 156
/-- SCX RTCP_DST (R115). -/
abbrev Reg.SCX.RTCP_DST (n : Nat) : Nat := 0x100000 + 0x1000 * n + 160
/-- SCX LOCAL_SSRC (R115). -/
abbrev Reg.SCX.LOCAL_SSRC (n : Nat) : Nat := 0x100000 + 0x1000 * n + 164
/-- SCX SSRC_LATCHED (R115). -/
abbrev Reg.SCX.SSRC_LATCHED (n : Nat) : Nat := 0x100000 + 0x1000 * n + 176
/-- SCX SEQ (R115). -/
abbrev Reg.SCX.SEQ (n : Nat) : Nat := 0x100000 + 0x1000 * n + 180
/-- SCX VIOL (R115). -/
abbrev Reg.SCX.VIOL (n : Nat) : Nat := 0x100000 + 0x1000 * n + 184
/-- SCX RX_PKT (R115). -/
abbrev Reg.SCX.RX_PKT (n : Nat) : Nat := 0x100000 + 0x1000 * n + 192
/-- SCX LOST_PKT (R115). -/
abbrev Reg.SCX.LOST_PKT (n : Nat) : Nat := 0x100000 + 0x1000 * n + 196
/-- SCX LATE_PKT (R115). -/
abbrev Reg.SCX.LATE_PKT (n : Nat) : Nat := 0x100000 + 0x1000 * n + 200
/-- SCX POLICE_DROP (R115). -/
abbrev Reg.SCX.POLICE_DROP (n : Nat) : Nat := 0x100000 + 0x1000 * n + 204
/-- SCX AU_OK (R115). -/
abbrev Reg.SCX.AU_OK (n : Nat) : Nat := 0x100000 + 0x1000 * n + 208
/-- SCX AU_LOSS (R115). -/
abbrev Reg.SCX.AU_LOSS (n : Nat) : Nat := 0x100000 + 0x1000 * n + 212
/-- SCX AU_DROP (R115). -/
abbrev Reg.SCX.AU_DROP (n : Nat) : Nat := 0x100000 + 0x1000 * n + 216
/-- SCX NACK_SENT (R115). -/
abbrev Reg.SCX.NACK_SENT (n : Nat) : Nat := 0x100000 + 0x1000 * n + 220
/-- SCX PLI_SENT (R115). -/
abbrev Reg.SCX.PLI_SENT (n : Nat) : Nat := 0x100000 + 0x1000 * n + 224

/-! CPM -/

/-- CPM REGION_BASE_LO (R130). -/
abbrev Reg.CPM.REGION_BASE_LO : Nat := 0xE0040
/-- CPM REGION_BASE_HI (R130). -/
abbrev Reg.CPM.REGION_BASE_HI : Nat := 0xE0044
/-- CPM REGION_CELLS (R130). -/
abbrev Reg.CPM.REGION_CELLS : Nat := 0xE0048
/-- CPM CLASS_COUNT (R130). -/
abbrev Reg.CPM.CLASS_COUNT (i : Nat) : Nat := 0xE0000 + 4 * i + 80
/-- CPM CHAIN_CELLS (R130). -/
abbrev Reg.CPM.CHAIN_CELLS : Nat := 0xE0060
/-- CPM FREE_CELLS (R130). -/
abbrev Reg.CPM.FREE_CELLS : Nat := 0xE0064
/-- CPM LOW_WATER (R130). -/
abbrev Reg.CPM.LOW_WATER : Nat := 0xE0068
/-- CPM MIN_FREE (R130). -/
abbrev Reg.CPM.MIN_FREE : Nat := 0xE006C
/-- CPM ALLOC_FAIL (R130). -/
abbrev Reg.CPM.ALLOC_FAIL : Nat := 0xE0070
/-- CPM LEAKED (R130). -/
abbrev Reg.CPM.LEAKED : Nat := 0xE0074
/-- CPM REJECT_CNT (R130). -/
abbrev Reg.CPM.REJECT_CNT : Nat := 0xE0078
/-- CPM CLASS_FREE (R130). -/
abbrev Reg.CPM.CLASS_FREE (i : Nat) : Nat := 0xE0000 + 4 * i + 128
/-- CPM ALLOC_TAG (R130). -/
abbrev Reg.CPM.ALLOC_TAG : Nat := 0xE0090
/-- CPM ALLOC_REQ (R130). -/
abbrev Reg.CPM.ALLOC_REQ : Nat := 0xE0094
/-- CPM ALLOC_STATUS (R130). -/
abbrev Reg.CPM.ALLOC_STATUS : Nat := 0xE0098
/-- CPM ALLOC_ADDR_LO (R130). -/
abbrev Reg.CPM.ALLOC_ADDR_LO : Nat := 0xE009C
/-- CPM ALLOC_ADDR_HI (R130). -/
abbrev Reg.CPM.ALLOC_ADDR_HI : Nat := 0xE00A0
/-- CPM FREE_ADDR_HI (R130). -/
abbrev Reg.CPM.FREE_ADDR_HI : Nat := 0xE00A4
/-- CPM FREE_ADDR_LO (R130). -/
abbrev Reg.CPM.FREE_ADDR_LO : Nat := 0xE00A8
/-- CPM FREE_REJECT (R130). -/
abbrev Reg.CPM.FREE_REJECT : Nat := 0xE00AC
/-- CPM REJECT_ADDR_LO (R130). -/
abbrev Reg.CPM.REJECT_ADDR_LO : Nat := 0xE00B0
/-- CPM REJECT_ADDR_HI (R130). -/
abbrev Reg.CPM.REJECT_ADDR_HI : Nat := 0xE00B4

/-! DEC -/

/-- DEC CURRENT (R160). -/
abbrev Reg.DEC.CURRENT (n : Nat) : Nat := 0x200000 + 0x4000 * n + 64
/-- DEC PICTURES (R160). -/
abbrev Reg.DEC.PICTURES (n : Nat) : Nat := 0x200000 + 0x4000 * n + 68
/-- DEC CONCEALED_PICS (R160). -/
abbrev Reg.DEC.CONCEALED_PICS (n : Nat) : Nat := 0x200000 + 0x4000 * n + 72
/-- DEC ABANDONED (R160). -/
abbrev Reg.DEC.ABANDONED (n : Nat) : Nat := 0x200000 + 0x4000 * n + 76
/-- DEC REFUSED (R160). -/
abbrev Reg.DEC.REFUSED (n : Nat) : Nat := 0x200000 + 0x4000 * n + 80
/-- DEC SYNTAX_ERR (R160). -/
abbrev Reg.DEC.SYNTAX_ERR (n : Nat) : Nat := 0x200000 + 0x4000 * n + 84
/-- DEC PART_SHORT (R160). -/
abbrev Reg.DEC.PART_SHORT (n : Nat) : Nat := 0x200000 + 0x4000 * n + 88
/-- DEC LAST_CHARGE (R160). -/
abbrev Reg.DEC.LAST_CHARGE (n : Nat) : Nat := 0x200000 + 0x4000 * n + 92
/-- DEC LAST_ELAPSED (R160). -/
abbrev Reg.DEC.LAST_ELAPSED (n : Nat) : Nat := 0x200000 + 0x4000 * n + 96
/-- DEC MAX_RATIO (R160). -/
abbrev Reg.DEC.MAX_RATIO (n : Nat) : Nat := 0x200000 + 0x4000 * n + 100
/-- DEC LAST_REFUSE (R160). -/
abbrev Reg.DEC.LAST_REFUSE (n : Nat) : Nat := 0x200000 + 0x4000 * n + 104
/-- DEC LAST_CONCEAL (R160). -/
abbrev Reg.DEC.LAST_CONCEAL (n : Nat) : Nat := 0x200000 + 0x4000 * n + 108

/-! LNS -/

/-- LNS CURRENT (R182). -/
abbrev Reg.LNS.CURRENT (n : Nat) : Nat := 0x280000 + 0x4000 * n + 64
/-- LNS FRAMES (R182). -/
abbrev Reg.LNS.FRAMES (n : Nat) : Nat := 0x280000 + 0x4000 * n + 68
/-- LNS LAST_CHARGE (R182). -/
abbrev Reg.LNS.LAST_CHARGE (n : Nat) : Nat := 0x280000 + 0x4000 * n + 72
/-- LNS LAST_ELAPSED (R182). -/
abbrev Reg.LNS.LAST_ELAPSED (n : Nat) : Nat := 0x280000 + 0x4000 * n + 76
/-- LNS MAX_RATIO (R182). -/
abbrev Reg.LNS.MAX_RATIO (n : Nat) : Nat := 0x280000 + 0x4000 * n + 80
/-- LNS SAT_CNT (R182). -/
abbrev Reg.LNS.SAT_CNT (n : Nat) : Nat := 0x280000 + 0x4000 * n + 84
/-- LNS SAT_THRESH (R182). -/
abbrev Reg.LNS.SAT_THRESH (n : Nat) : Nat := 0x280000 + 0x4000 * n + 88
/-- LNS LAST_SAT (R182). -/
abbrev Reg.LNS.LAST_SAT (n : Nat) : Nat := 0x280000 + 0x4000 * n + 92
/-- LNS AUG_APPLIED (R182). -/
abbrev Reg.LNS.AUG_APPLIED (n : Nat) : Nat := 0x280000 + 0x4000 * n + 96
/-- LNS AUG_DEFAULT (R182). -/
abbrev Reg.LNS.AUG_DEFAULT (n : Nat) : Nat := 0x280000 + 0x4000 * n + 100
/-- LNS NO_PIC (R182). -/
abbrev Reg.LNS.NO_PIC (n : Nat) : Nat := 0x280000 + 0x4000 * n + 104
/-- LNS POISON_CNT (R182). -/
abbrev Reg.LNS.POISON_CNT (n : Nat) : Nat := 0x280000 + 0x4000 * n + 108
/-- LNS LAST_ERR (R182). -/
abbrev Reg.LNS.LAST_ERR (n : Nat) : Nat := 0x280000 + 0x4000 * n + 112
/-- LNS LAST_AUG (R182). -/
abbrev Reg.LNS.LAST_AUG (n : Nat) : Nat := 0x280000 + 0x4000 * n + 116

/-! TILE -/

/-- TILE SAT_EXP_CNT (R206). -/
abbrev Reg.TILE.SAT_EXP_CNT (n : Nat) : Nat := 0x400000 + 0x10000 * n + 0x1000
/-- TILE SAT_REQ_CNT (R206). -/
abbrev Reg.TILE.SAT_REQ_CNT (n : Nat) : Nat := 0x400000 + 0x10000 * n + 0x1004
/-- TILE INVALID_CNT (R206). -/
abbrev Reg.TILE.INVALID_CNT (n : Nat) : Nat := 0x400000 + 0x10000 * n + 0x1008
/-- TILE SAT_THRESH (R206). -/
abbrev Reg.TILE.SAT_THRESH (n : Nat) : Nat := 0x400000 + 0x10000 * n + 0x100C
/-- TILE LAST_SAT (R206). -/
abbrev Reg.TILE.LAST_SAT (n : Nat) : Nat := 0x400000 + 0x10000 * n + 0x1010
/-- TILE LAST_SAT_CNT (R206). -/
abbrev Reg.TILE.LAST_SAT_CNT (n : Nat) : Nat := 0x400000 + 0x10000 * n + 0x1014
/-- TILE WIN_SAT_CNT (R206). -/
abbrev Reg.TILE.WIN_SAT_CNT (n : Nat) : Nat := 0x400000 + 0x10000 * n + 0x1018
/-- TILE ARR_CTRL (R232). -/
abbrev Reg.TILE.ARR_CTRL (n : Nat) : Nat := 0x400000 + 0x10000 * n + 0x1040
/-- TILE ARR_PASS_CNT (R232). -/
abbrev Reg.TILE.ARR_PASS_CNT (n : Nat) : Nat := 0x400000 + 0x10000 * n + 0x1044
/-- TILE ARR_VEC_CNT (R232). -/
abbrev Reg.TILE.ARR_VEC_CNT (n : Nat) : Nat := 0x400000 + 0x10000 * n + 0x1048
/-- TILE ARR_FREEZE_CNT (R232). -/
abbrev Reg.TILE.ARR_FREEZE_CNT (n : Nat) : Nat := 0x400000 + 0x10000 * n + 0x104C
/-- TILE ARR_FREEZE_DRY (R232). -/
abbrev Reg.TILE.ARR_FREEZE_DRY (n : Nat) : Nat := 0x400000 + 0x10000 * n + 0x1050
/-- TILE ARR_FREEZE_FULL (R232). -/
abbrev Reg.TILE.ARR_FREEZE_FULL (n : Nat) : Nat := 0x400000 + 0x10000 * n + 0x1054
/-- TILE ARR_FREEZE_LOAD (R232). -/
abbrev Reg.TILE.ARR_FREEZE_LOAD (n : Nat) : Nat := 0x400000 + 0x10000 * n + 0x1058
/-- TILE ARR_BUBBLE_CNT (R232). -/
abbrev Reg.TILE.ARR_BUBBLE_CNT (n : Nat) : Nat := 0x400000 + 0x10000 * n + 0x105C
/-- TILE ARR_FREEZE_THRESH (R232). -/
abbrev Reg.TILE.ARR_FREEZE_THRESH (n : Nat) : Nat := 0x400000 + 0x10000 * n + 0x1060
/-- TILE ARR_WIN_FREEZE (R232). -/
abbrev Reg.TILE.ARR_WIN_FREEZE (n : Nat) : Nat := 0x400000 + 0x10000 * n + 0x1064
/-- TILE ARR_LAST_FREEZE (R232). -/
abbrev Reg.TILE.ARR_LAST_FREEZE (n : Nat) : Nat := 0x400000 + 0x10000 * n + 0x1068
/-- TILE ARR_LAST_FREEZE_CNT (R232). -/
abbrev Reg.TILE.ARR_LAST_FREEZE_CNT (n : Nat) : Nat := 0x400000 + 0x10000 * n + 0x106C
/-- TILE PROG_STATE (R260). -/
abbrev Reg.TILE.PROG_STATE (n : Nat) : Nat := 0x400000 + 0x10000 * n + 0x1100
/-- TILE PROG_PC (R260). -/
abbrev Reg.TILE.PROG_PC (n : Nat) : Nat := 0x400000 + 0x10000 * n + 0x1104
/-- TILE INSN_ISSUED (R260). -/
abbrev Reg.TILE.INSN_ISSUED (n : Nat) : Nat := 0x400000 + 0x10000 * n + 0x1108
/-- TILE SKIP_BLOCKS (R260). -/
abbrev Reg.TILE.SKIP_BLOCKS (n : Nat) : Nat := 0x400000 + 0x10000 * n + 0x110C
/-- TILE STAGE_CYCLES (R260). -/
abbrev Reg.TILE.STAGE_CYCLES (n i : Nat) : Nat := 0x400000 + 0x10000 * n + 4 * i + 0x1110
/-- TILE LAST_INVALID (R260). -/
abbrev Reg.TILE.LAST_INVALID (n : Nat) : Nat := 0x400000 + 0x10000 * n + 0x1124
/-- TILE LAST_INVALID_PC (R260). -/
abbrev Reg.TILE.LAST_INVALID_PC (n : Nat) : Nat := 0x400000 + 0x10000 * n + 0x1128
/-- TILE TS_ECC_CORR (R260). -/
abbrev Reg.TILE.TS_ECC_CORR (n : Nat) : Nat := 0x400000 + 0x10000 * n + 0x112C
/-- TILE POISON_CNT (R260). -/
abbrev Reg.TILE.POISON_CNT (n : Nat) : Nat := 0x400000 + 0x10000 * n + 0x1130
/-- TILE STATE_RESET_CNT (R260). -/
abbrev Reg.TILE.STATE_RESET_CNT (n : Nat) : Nat := 0x400000 + 0x10000 * n + 0x1134
/-- TILE ARRIVAL (R260). -/
abbrev Reg.TILE.ARRIVAL (n i : Nat) : Nat := 0x400000 + 0x10000 * n + 4 * i + 0x1140
/-- TILE CHK_VECTORS (R283). -/
abbrev Reg.TILE.CHK_VECTORS (n : Nat) : Nat := 0x400000 + 0x10000 * n + 0x1200
/-- TILE CHK_UNDECIDED (R283). -/
abbrev Reg.TILE.CHK_UNDECIDED (n : Nat) : Nat := 0x400000 + 0x10000 * n + 0x1204
/-- TILE MISMATCH_CNT (R283). -/
abbrev Reg.TILE.MISMATCH_CNT (n : Nat) : Nat := 0x400000 + 0x10000 * n + 0x1208
/-- TILE TRANSIENT_CNT (R283). -/
abbrev Reg.TILE.TRANSIENT_CNT (n : Nat) : Nat := 0x400000 + 0x10000 * n + 0x120C
/-- TILE REPEAT_CNT (R283). -/
abbrev Reg.TILE.REPEAT_CNT (n : Nat) : Nat := 0x400000 + 0x10000 * n + 0x1210
/-- TILE UNRETRIED_CNT (R283). -/
abbrev Reg.TILE.UNRETRIED_CNT (n : Nat) : Nat := 0x400000 + 0x10000 * n + 0x1214
/-- TILE RETRY_USED (R283). -/
abbrev Reg.TILE.RETRY_USED (n : Nat) : Nat := 0x400000 + 0x10000 * n + 0x1218
/-- TILE RETRY_OVER_CNT (R283). -/
abbrev Reg.TILE.RETRY_OVER_CNT (n : Nat) : Nat := 0x400000 + 0x10000 * n + 0x121C
/-- TILE RETRY_CFG (R283). -/
abbrev Reg.TILE.RETRY_CFG (n : Nat) : Nat := 0x400000 + 0x10000 * n + 0x1220
/-- TILE TRANS_LEVEL (R283). -/
abbrev Reg.TILE.TRANS_LEVEL (n : Nat) : Nat := 0x400000 + 0x10000 * n + 0x1224
/-- TILE SUSPECT (R283). -/
abbrev Reg.TILE.SUSPECT (n : Nat) : Nat := 0x400000 + 0x10000 * n + 0x1228
/-- TILE SUSPECT_EPOCH (R283). -/
abbrev Reg.TILE.SUSPECT_EPOCH (n : Nat) : Nat := 0x400000 + 0x10000 * n + 0x122C
/-- TILE LAST_MISMATCH (R283). -/
abbrev Reg.TILE.LAST_MISMATCH (n : Nat) : Nat := 0x400000 + 0x10000 * n + 0x1230
/-- TILE LAST_MISMATCH_POS (R283). -/
abbrev Reg.TILE.LAST_MISMATCH_POS (n : Nat) : Nat := 0x400000 + 0x10000 * n + 0x1234
/-- TILE LAST_DIFF (R283). -/
abbrev Reg.TILE.LAST_DIFF (n : Nat) : Nat := 0x400000 + 0x10000 * n + 0x1238
/-- TILE LAST_TOL (R283). -/
abbrev Reg.TILE.LAST_TOL (n : Nat) : Nat := 0x400000 + 0x10000 * n + 0x123C
/-- TILE MIRROR_INJ (R283). -/
abbrev Reg.TILE.MIRROR_INJ (n : Nat) : Nat := 0x400000 + 0x10000 * n + 0x1240

/-! PFB -/

/-- PFB HOP (R261). -/
abbrev Reg.PFB.HOP : Nat := 0x900040
/-- PFB BEATS (R261). -/
abbrev Reg.PFB.BEATS : Nat := 0x900044
/-- PFB COLLISION_CNT (R261). -/
abbrev Reg.PFB.COLLISION_CNT : Nat := 0x900048
/-- PFB LAST_COLLISION (R261). -/
abbrev Reg.PFB.LAST_COLLISION : Nat := 0x90004C
/-- PFB REPAIR_CTRL (R284). -/
abbrev Reg.PFB.REPAIR_CTRL : Nat := 0x900080
/-- PFB REPAIR_REQ (R284). -/
abbrev Reg.PFB.REPAIR_REQ : Nat := 0x900084
/-- PFB SUSPECT_MASK0 (R284). -/
abbrev Reg.PFB.SUSPECT_MASK0 : Nat := 0x900088
/-- PFB SUSPECT_MASK1 (R284). -/
abbrev Reg.PFB.SUSPECT_MASK1 : Nat := 0x90008C
/-- PFB SUSPECT_MASK2 (R284). -/
abbrev Reg.PFB.SUSPECT_MASK2 : Nat := 0x900090
/-- PFB RETIRED_CNT (R284). -/
abbrev Reg.PFB.RETIRED_CNT : Nat := 0x900094
/-- PFB REPAIR_EPOCH_LO (R284). -/
abbrev Reg.PFB.REPAIR_EPOCH_LO : Nat := 0x900098
/-- PFB REPAIR_EPOCH_HI (R284). -/
abbrev Reg.PFB.REPAIR_EPOCH_HI : Nat := 0x90009C
/-- PFB REPAIR_MAP (R284). -/
abbrev Reg.PFB.REPAIR_MAP (i : Nat) : Nat := 0x900000 + 4 * i + 160

/-! EGR -/

/-- EGR STORE_FREE (R304). -/
abbrev Reg.EGR.STORE_FREE : Nat := 0xC0040
/-- EGR STORE_LOW (R304). -/
abbrev Reg.EGR.STORE_LOW : Nat := 0xC0044
/-- EGR ACCEPTED (R304). -/
abbrev Reg.EGR.ACCEPTED : Nat := 0xC0048
/-- EGR TRUNC_CNT (R304). -/
abbrev Reg.EGR.TRUNC_CNT : Nat := 0xC004C
/-- EGR OBJ_INVALID_CNT (R304). -/
abbrev Reg.EGR.OBJ_INVALID_CNT : Nat := 0xC0050
/-- EGR RING_DROP_CNT (R304). -/
abbrev Reg.EGR.RING_DROP_CNT : Nat := 0xC0054
/-- EGR HOSTLOSS_DROP_CNT (R304). -/
abbrev Reg.EGR.HOSTLOSS_DROP_CNT : Nat := 0xC0058
/-- EGR MAX_DELAY (R304). -/
abbrev Reg.EGR.MAX_DELAY : Nat := 0xC005C
/-- EGR STREAM_RING (R304). -/
abbrev Reg.EGR.STREAM_RING (i : Nat) : Nat := 0xC0000 + 4 * i + 0x400
/-- EGR STREAM_GEN (R304). -/
abbrev Reg.EGR.STREAM_GEN (i : Nat) : Nat := 0xC0000 + 4 * i + 0x800
/-- EGR STREAM_SEQ (R304). -/
abbrev Reg.EGR.STREAM_SEQ (i : Nat) : Nat := 0xC0000 + 4 * i + 0xC00
/-- EGR SINK_CFG (R304). -/
abbrev Reg.EGR.SINK_CFG (k : Nat) : Nat := 0xC0000 + 256 * k + 0x1000
/-- EGR SINK_L4 (R304). -/
abbrev Reg.EGR.SINK_L4 (k : Nat) : Nat := 0xC0000 + 256 * k + 0x1004
/-- EGR SINK_PHY (R304). -/
abbrev Reg.EGR.SINK_PHY (k : Nat) : Nat := 0xC0000 + 256 * k + 0x1008
/-- EGR SINK_DMAC_LO (R304). -/
abbrev Reg.EGR.SINK_DMAC_LO (k : Nat) : Nat := 0xC0000 + 256 * k + 0x100C
/-- EGR SINK_DIP (R304). -/
abbrev Reg.EGR.SINK_DIP (k i : Nat) : Nat := 0xC0000 + 256 * k + 4 * i + 0x1010
/-- EGR SINK_SIP (R304). -/
abbrev Reg.EGR.SINK_SIP (k i : Nat) : Nat := 0xC0000 + 256 * k + 4 * i + 0x1020
/-- EGR SINK_STREAMS (R304). -/
abbrev Reg.EGR.SINK_STREAMS (k i : Nat) : Nat := 0xC0000 + 256 * k + 4 * i + 0x1030
/-- EGR SINK_IP (R304). -/
abbrev Reg.EGR.SINK_IP (k : Nat) : Nat := 0xC0000 + 256 * k + 0x1050
/-- EGR SINK_TX (R304). -/
abbrev Reg.EGR.SINK_TX (k : Nat) : Nat := 0xC0000 + 256 * k + 0x1054
/-- EGR SINK_DROP (R304). -/
abbrev Reg.EGR.SINK_DROP (k : Nat) : Nat := 0xC0000 + 256 * k + 0x1058

/-! DMC -/

/-- DMC MEM_CFG (R338). -/
abbrev Reg.DMC.MEM_CFG (n : Nat) : Nat := 0x300000 + 0x10000 * n + 64
/-- DMC USABLE (R338). -/
abbrev Reg.DMC.USABLE (n : Nat) : Nat := 0x300000 + 0x10000 * n + 68
/-- DMC PORT_PRIO (R338). -/
abbrev Reg.DMC.PORT_PRIO (n : Nat) : Nat := 0x300000 + 0x10000 * n + 72
/-- DMC AGE_LIMIT (R338). -/
abbrev Reg.DMC.AGE_LIMIT (n : Nat) : Nat := 0x300000 + 0x10000 * n + 76
/-- DMC HAMMER_CFG (R338). -/
abbrev Reg.DMC.HAMMER_CFG (n : Nat) : Nat := 0x300000 + 0x10000 * n + 80
/-- DMC SCRUB_CFG (R338). -/
abbrev Reg.DMC.SCRUB_CFG (n : Nat) : Nat := 0x300000 + 0x10000 * n + 84
/-- DMC BAL_CFG (R338). -/
abbrev Reg.DMC.BAL_CFG (n : Nat) : Nat := 0x300000 + 0x10000 * n + 88
/-- DMC BAL_STATUS (R338). -/
abbrev Reg.DMC.BAL_STATUS (n : Nat) : Nat := 0x300000 + 0x10000 * n + 92
/-- DMC CTRL_LOAD (R338). -/
abbrev Reg.DMC.CTRL_LOAD (n : Nat) : Nat := 0x300000 + 0x10000 * n + 96
/-- DMC CHAN_LOAD (R338). -/
abbrev Reg.DMC.CHAN_LOAD (n i : Nat) : Nat := 0x300000 + 0x10000 * n + 4 * i + 100
/-- DMC REFRESH_STATUS (R338). -/
abbrev Reg.DMC.REFRESH_STATUS (n : Nat) : Nat := 0x300000 + 0x10000 * n + 132
/-- DMC FORCED_REF_CNT (R338). -/
abbrev Reg.DMC.FORCED_REF_CNT (n : Nat) : Nat := 0x300000 + 0x10000 * n + 136
/-- DMC HAMMER_CNT (R338). -/
abbrev Reg.DMC.HAMMER_CNT (n : Nat) : Nat := 0x300000 + 0x10000 * n + 140
/-- DMC FWD_CNT (R338). -/
abbrev Reg.DMC.FWD_CNT (n : Nat) : Nat := 0x300000 + 0x10000 * n + 144
/-- DMC PARTIAL_WAIT_CNT (R338). -/
abbrev Reg.DMC.PARTIAL_WAIT_CNT (n : Nat) : Nat := 0x300000 + 0x10000 * n + 148
/-- DMC RMW_CNT (R338). -/
abbrev Reg.DMC.RMW_CNT (n : Nat) : Nat := 0x300000 + 0x10000 * n + 152
/-- DMC DISCARD_CNT (R338). -/
abbrev Reg.DMC.DISCARD_CNT (n : Nat) : Nat := 0x300000 + 0x10000 * n + 156
/-- DMC CE_CNT (R338). -/
abbrev Reg.DMC.CE_CNT (n : Nat) : Nat := 0x300000 + 0x10000 * n + 160
/-- DMC UE_CNT (R338). -/
abbrev Reg.DMC.UE_CNT (n : Nat) : Nat := 0x300000 + 0x10000 * n + 164
/-- DMC LINK_RETRY_CNT (R338). -/
abbrev Reg.DMC.LINK_RETRY_CNT (n : Nat) : Nat := 0x300000 + 0x10000 * n + 168
/-- DMC POISON_READ_CNT (R338). -/
abbrev Reg.DMC.POISON_READ_CNT (n : Nat) : Nat := 0x300000 + 0x10000 * n + 172
/-- DMC LAST_UE_LO (R338). -/
abbrev Reg.DMC.LAST_UE_LO (n : Nat) : Nat := 0x300000 + 0x10000 * n + 176
/-- DMC LAST_UE_HI (R338). -/
abbrev Reg.DMC.LAST_UE_HI (n : Nat) : Nat := 0x300000 + 0x10000 * n + 180
/-- DMC RANK_MAP_LO (R338). -/
abbrev Reg.DMC.RANK_MAP_LO (n : Nat) : Nat := 0x300000 + 0x10000 * n + 192
/-- DMC RANK_MAP_HI (R338). -/
abbrev Reg.DMC.RANK_MAP_HI (n : Nat) : Nat := 0x300000 + 0x10000 * n + 196
/-- DMC RANK_STATE_LO (R338). -/
abbrev Reg.DMC.RANK_STATE_LO (n : Nat) : Nat := 0x300000 + 0x10000 * n + 200
/-- DMC RANK_STATE_HI (R338). -/
abbrev Reg.DMC.RANK_STATE_HI (n : Nat) : Nat := 0x300000 + 0x10000 * n + 204
/-- DMC MIG_STATUS (R338). -/
abbrev Reg.DMC.MIG_STATUS (n : Nat) : Nat := 0x300000 + 0x10000 * n + 208
/-- DMC MIG_TIME (R338). -/
abbrev Reg.DMC.MIG_TIME (n : Nat) : Nat := 0x300000 + 0x10000 * n + 212

/-! RING -/

/-- RING BASE_LO (R346). -/
abbrev Reg.RING.BASE_LO (n : Nat) : Nat := 0x1000000 + 0x1000 * n + 0
/-- RING BASE_HI (R346). -/
abbrev Reg.RING.BASE_HI (n : Nat) : Nat := 0x1000000 + 0x1000 * n + 4
/-- RING MIRROR_LO (R346). -/
abbrev Reg.RING.MIRROR_LO (n : Nat) : Nat := 0x1000000 + 0x1000 * n + 8
/-- RING MIRROR_HI (R346). -/
abbrev Reg.RING.MIRROR_HI (n : Nat) : Nat := 0x1000000 + 0x1000 * n + 12
/-- RING CFG (R346). -/
abbrev Reg.RING.CFG (n : Nat) : Nat := 0x1000000 + 0x1000 * n + 16
/-- RING BIND (R346). -/
abbrev Reg.RING.BIND (n : Nat) : Nat := 0x1000000 + 0x1000 * n + 20
/-- RING HOST_IDX (R346). -/
abbrev Reg.RING.HOST_IDX (n : Nat) : Nat := 0x1000000 + 0x1000 * n + 24
/-- RING DEV_IDX (R346). -/
abbrev Reg.RING.DEV_IDX (n : Nat) : Nat := 0x1000000 + 0x1000 * n + 28
/-- RING STATUS (R346). -/
abbrev Reg.RING.STATUS (n : Nat) : Nat := 0x1000000 + 0x1000 * n + 32
/-- RING FAULT_IDX (R346). -/
abbrev Reg.RING.FAULT_IDX (n : Nat) : Nat := 0x1000000 + 0x1000 * n + 36

/-! FENCE -/

/-- FENCE VALUE_LO (R354). -/
abbrev Reg.FENCE.VALUE_LO (n : Nat) : Nat := 0x3000000 + 64 * n + 0
/-- FENCE VALUE_HI (R354). -/
abbrev Reg.FENCE.VALUE_HI (n : Nat) : Nat := 0x3000000 + 64 * n + 4
/-- FENCE MIRROR_LO (R354). -/
abbrev Reg.FENCE.MIRROR_LO (n : Nat) : Nat := 0x3000000 + 64 * n + 8
/-- FENCE MIRROR_HI (R354). -/
abbrev Reg.FENCE.MIRROR_HI (n : Nat) : Nat := 0x3000000 + 64 * n + 12
/-- FENCE CFG (R354). -/
abbrev Reg.FENCE.CFG (n : Nat) : Nat := 0x3000000 + 64 * n + 16
/-- FENCE INC (R354). -/
abbrev Reg.FENCE.INC (n : Nat) : Nat := 0x3000000 + 64 * n + 20
/-- FENCE SET_LO (R354). -/
abbrev Reg.FENCE.SET_LO (n : Nat) : Nat := 0x3000000 + 64 * n + 24
/-- FENCE SET_HI (R354). -/
abbrev Reg.FENCE.SET_HI (n : Nat) : Nat := 0x3000000 + 64 * n + 28

/-! PEP -/

/-- PEP LINK_STATUS (R365). -/
abbrev Reg.PEP.LINK_STATUS : Nat := 0x60040
/-- PEP TRAIN_LOG (R365). -/
abbrev Reg.PEP.TRAIN_LOG : Nat := 0x60044
/-- PEP PM_CTRL (R365). -/
abbrev Reg.PEP.PM_CTRL : Nat := 0x60048
/-- PEP ATTN_STATUS (R365). -/
abbrev Reg.PEP.ATTN_STATUS : Nat := 0x6004C
/-- PEP ATTN_EN (R365). -/
abbrev Reg.PEP.ATTN_EN : Nat := 0x60050
/-- PEP HOSTLOSS_STATUS (R365). -/
abbrev Reg.PEP.HOSTLOSS_STATUS : Nat := 0x60054
/-- PEP HOSTLOSS_RELEASE (R365). -/
abbrev Reg.PEP.HOSTLOSS_RELEASE : Nat := 0x60058
/-- PEP BAR2_BASE_LO (R365). -/
abbrev Reg.PEP.BAR2_BASE_LO : Nat := 0x6005C
/-- PEP BAR2_BASE_HI (R365). -/
abbrev Reg.PEP.BAR2_BASE_HI : Nat := 0x60060
/-- PEP BAR2_OOR (R365). -/
abbrev Reg.PEP.BAR2_OOR : Nat := 0x60064
/-- PEP CPL_TO_LOG (R365). -/
abbrev Reg.PEP.CPL_TO_LOG : Nat := 0x60068
/-- PEP CPL_TO_CNT (R365). -/
abbrev Reg.PEP.CPL_TO_CNT : Nat := 0x6006C
/-- PEP OUT_DROP_CNT (R365). -/
abbrev Reg.PEP.OUT_DROP_CNT : Nat := 0x60070
/-- PEP RING_FAULT_CNT (R365). -/
abbrev Reg.PEP.RING_FAULT_CNT : Nat := 0x60074
/-- PEP LAST_RING_FAULT (R365). -/
abbrev Reg.PEP.LAST_RING_FAULT : Nat := 0x60078
/-- PEP MIRROR_WR_CNT (R365). -/
abbrev Reg.PEP.MIRROR_WR_CNT : Nat := 0x6007C

/-! SEC -/

/-- SEC SEAL_CTRL (R380). -/
abbrev Reg.SEC.SEAL_CTRL : Nat := 0x11040
/-- SEC SEAL_STATUS (R380). -/
abbrev Reg.SEC.SEAL_STATUS : Nat := 0x11044
/-- SEC MODE_CFG (R380). -/
abbrev Reg.SEC.MODE_CFG : Nat := 0x11048
/-- SEC SEED_LO (R380). -/
abbrev Reg.SEC.SEED_LO : Nat := 0x1104C
/-- SEC SEED_HI (R380). -/
abbrev Reg.SEC.SEED_HI : Nat := 0x11050
/-- SEC DUMP_CFG (R380). -/
abbrev Reg.SEC.DUMP_CFG : Nat := 0x11054
/-- SEC PART_CFG (R380). -/
abbrev Reg.SEC.PART_CFG : Nat := 0x11058
/-- SEC STAMP_PRIV (R380). -/
abbrev Reg.SEC.STAMP_PRIV (i : Nat) : Nat := 0x11000 + 4 * i + 96
/-- SEC FUSE_INFO (R380). -/
abbrev Reg.SEC.FUSE_INFO : Nat := 0x11070
/-- SEC WIN_FAULT (R380). -/
abbrev Reg.SEC.WIN_FAULT : Nat := 0x11074
/-- SEC WIN_FAULT_CNT (R380). -/
abbrev Reg.SEC.WIN_FAULT_CNT : Nat := 0x11078
/-- SEC REQ_WIN_LO (R380). -/
abbrev Reg.SEC.REQ_WIN_LO (i j : Nat) : Nat := 0x11000 + 256 * i + 16 * j + 256
/-- SEC REQ_WIN_HI (R380). -/
abbrev Reg.SEC.REQ_WIN_HI (i j : Nat) : Nat := 0x11000 + 256 * i + 16 * j + 260
/-- SEC REQ_WIN_SIZE (R380). -/
abbrev Reg.SEC.REQ_WIN_SIZE (i j : Nat) : Nat := 0x11000 + 256 * i + 16 * j + 264

/-! STW -/

/-- STW BOOT_STATUS (R381). -/
abbrev Reg.STW.BOOT_STATUS : Nat := 0xB00040
/-- STW HOST_BOOT (R381). -/
abbrev Reg.STW.HOST_BOOT : Nat := 0xB00044
/-- STW CODE_LIMIT (R381). -/
abbrev Reg.STW.CODE_LIMIT : Nat := 0xB00048
/-- STW ENTRY (R381). -/
abbrev Reg.STW.ENTRY : Nat := 0xB0004C
/-- STW WDT_CFG (R381). -/
abbrev Reg.STW.WDT_CFG : Nat := 0xB00050
/-- STW WAKE_STATUS (R381). -/
abbrev Reg.STW.WAKE_STATUS : Nat := 0xB00054
/-- STW WAKE_CNT (R381). -/
abbrev Reg.STW.WAKE_CNT : Nat := 0xB00058
/-- STW STW_RESET_CNT (R381). -/
abbrev Reg.STW.STW_RESET_CNT : Nat := 0xB0005C
/-- STW FW_VER (R381). -/
abbrev Reg.STW.FW_VER : Nat := 0xB00060

/-! MBX -/

/-- MBX LOCK (R382). -/
abbrev Reg.MBX.LOCK (n : Nat) : Nat := (if n < 16 then 0x50000 + 4096 * n else 0x60000 + 4096 * n) + 64
/-- MBX UNLOCK (R382). -/
abbrev Reg.MBX.UNLOCK (n : Nat) : Nat := (if n < 16 then 0x50000 + 4096 * n else 0x60000 + 4096 * n) + 68
/-- MBX CTRL (R382). -/
abbrev Reg.MBX.CTRL (n : Nat) : Nat := (if n < 16 then 0x50000 + 4096 * n else 0x60000 + 4096 * n) + 72
/-- MBX STATUS (R382). -/
abbrev Reg.MBX.STATUS (n : Nat) : Nat := (if n < 16 then 0x50000 + 4096 * n else 0x60000 + 4096 * n) + 76
/-- MBX REQ_STAMP (R382). -/
abbrev Reg.MBX.REQ_STAMP (n : Nat) : Nat := (if n < 16 then 0x50000 + 4096 * n else 0x60000 + 4096 * n) + 80
/-- MBX REQ (R382). -/
abbrev Reg.MBX.REQ (n i : Nat) : Nat := (if n < 16 then 0x50000 + 4096 * n else 0x60000 + 4096 * n) + 4 * i + 256
/-- MBX REPLY (R382). -/
abbrev Reg.MBX.REPLY (n i : Nat) : Nat := (if n < 16 then 0x50000 + 4096 * n else 0x60000 + 4096 * n) + 4 * i + 512

/-! ERC -/

/-- ERC CTRL (R404). -/
abbrev Reg.ERC.CTRL : Nat := 0x40040
/-- ERC ATTN_CLASS (R404). -/
abbrev Reg.ERC.ATTN_CLASS : Nat := 0x40044
/-- ERC LOG_TAIL (R404). -/
abbrev Reg.ERC.LOG_TAIL : Nat := 0x40048
/-- ERC LOG_HEAD (R404). -/
abbrev Reg.ERC.LOG_HEAD : Nat := 0x4004C
/-- ERC OVERFLOW_CNT (R404). -/
abbrev Reg.ERC.OVERFLOW_CNT : Nat := 0x40050
/-- ERC COAL_MISS (R404). -/
abbrev Reg.ERC.COAL_MISS : Nat := 0x40054
/-- ERC COAL_USED (R404). -/
abbrev Reg.ERC.COAL_USED : Nat := 0x40058
/-- ERC CLASS_SUM (R404). -/
abbrev Reg.ERC.CLASS_SUM : Nat := 0x4005C
/-- ERC FATAL_STATUS (R404). -/
abbrev Reg.ERC.FATAL_STATUS : Nat := 0x40060
/-- ERC FATAL_SEQ (R404). -/
abbrev Reg.ERC.FATAL_SEQ : Nat := 0x40064
/-- ERC DUMP_STATUS (R404). -/
abbrev Reg.ERC.DUMP_STATUS : Nat := 0x40068
/-- ERC DUMP_CTRL (R404). -/
abbrev Reg.ERC.DUMP_CTRL : Nat := 0x4006C
/-- ERC DUMP_WIN (R404). -/
abbrev Reg.ERC.DUMP_WIN : Nat := 0x40070
/-- ERC FATAL_TIME_LO (R404). -/
abbrev Reg.ERC.FATAL_TIME_LO : Nat := 0x40074
/-- ERC FATAL_TIME_HI (R404). -/
abbrev Reg.ERC.FATAL_TIME_HI : Nat := 0x40078
/-- ERC FATAL_POS_LO (R404). -/
abbrev Reg.ERC.FATAL_POS_LO : Nat := 0x4007C
/-- ERC FATAL_POS_HI (R404). -/
abbrev Reg.ERC.FATAL_POS_HI : Nat := 0x40080
/-- ERC SUMMARY (R404). -/
abbrev Reg.ERC.SUMMARY (i : Nat) : Nat := 0x40000 + 4 * i + 256
/-- ERC COAL (R404). -/
abbrev Reg.ERC.COAL (i j : Nat) : Nat := 0x40000 + 32 * i + 4 * j + 0x4000
/-- ERC LOG (R404). -/
abbrev Reg.ERC.LOG (i j : Nat) : Nat := 0x40000 + 32 * i + 4 * j + 0x8000

/-! MET -/

/-- MET STATUS (R424). -/
abbrev Reg.MET.STATUS : Nat := 0xA00040
/-- MET DISTANCE_LO (R424). -/
abbrev Reg.MET.DISTANCE_LO : Nat := 0xA00044
/-- MET DISTANCE_HI (R424). -/
abbrev Reg.MET.DISTANCE_HI : Nat := 0xA00048
/-- MET SPEED (R424). -/
abbrev Reg.MET.SPEED : Nat := 0xA0004C
/-- MET METER_TIME_LO (R424). -/
abbrev Reg.MET.METER_TIME_LO : Nat := 0xA00050
/-- MET METER_TIME_HI (R424). -/
abbrev Reg.MET.METER_TIME_HI : Nat := 0xA00054
/-- MET VERSIONS (R424). -/
abbrev Reg.MET.VERSIONS : Nat := 0xA00058
/-- MET SEAL_CNT (R424). -/
abbrev Reg.MET.SEAL_CNT : Nat := 0xA0005C
/-- MET TIME_BOUND (R424). -/
abbrev Reg.MET.TIME_BOUND : Nat := 0xA00060
/-- MET TIME_DIFF (R424). -/
abbrev Reg.MET.TIME_DIFF : Nat := 0xA00064
/-- MET TIME_DIFF_CNT (R424). -/
abbrev Reg.MET.TIME_DIFF_CNT : Nat := 0xA00068
/-- MET SNAP_CNT (R424). -/
abbrev Reg.MET.SNAP_CNT : Nat := 0xA0006C
/-- MET LINK_ERR_CNT (R424). -/
abbrev Reg.MET.LINK_ERR_CNT : Nat := 0xA00070
/-- MET STROBE_MISS_CNT (R424). -/
abbrev Reg.MET.STROBE_MISS_CNT : Nat := 0xA00074
/-- MET STROBE_SNAP (R424). -/
abbrev Reg.MET.STROBE_SNAP (i j : Nat) : Nat := 0xA00000 + 32 * i + 4 * j + 256
/-- MET PERIODIC_SNAP (R424). -/
abbrev Reg.MET.PERIODIC_SNAP (i : Nat) : Nat := 0xA00000 + 4 * i + 384

/-! ### Access masks and reset values -/

/-- One register of the tables: its offset, up to two array dimensions (count, stride), the bits of each access code,
and its reset value. Bits with none of these codes are RO, WO or SC and keep what the device puts there (R11). -/
structure RegDesc where
  off : Nat
  n1 : Nat
  s1 : Nat
  n2 : Nat
  s2 : Nat
  rws : Nat
  rwl : Nat
  w1c : Nat
  boot : Nat
  reset : Nat
  deriving DecidableEq, Repr

/-- The row covers this offset. -/
def RegDesc.covers (d : RegDesc) (off : Nat) : Bool :=
  decide (d.off ≤ off) &&
    (let x := off - d.off
     (decide (x / d.s1 < d.n1)) && (let y := x % d.s1
       decide (y / d.s2 < d.n2) && y % d.s2 == 0))

/-- A single register: offset, RW-S, RW-L, W1C and BOOT bits, reset value. -/
def RegDesc.one (off rws rwl w1c boot reset : Nat) : RegDesc := ⟨off, 1, 4, 1, 4, rws, rwl, w1c, boot, reset⟩

/-- A one-dimensional array of registers. -/
def RegDesc.arr (off n s rws rwl w1c boot reset : Nat) : RegDesc := ⟨off, n, s, 1, 4, rws, rwl, w1c, boot, reset⟩

/-- A two-dimensional array of registers. -/
def RegDesc.arr2 (off n s n2 s2 rws rwl w1c boot reset : Nat) : RegDesc := ⟨off, n, s, n2, s2, rws, rwl, w1c, boot, reset⟩

/-- The registers of DEVCTL beyond the page header (R35). -/
def descsDEVCTL : List RegDesc := [
  .one 64 0 0 0 0 0,
  .one 68 0 0 0 0xFFFF 0,
  .one 72 0 0 0 0 0,
  .one 76 0 0 0 0 0,
  .one 80 0 0 15 0 1,
  .one 84 0 0 0 0 0,
  .one 88 0 0 0 0 0,
  .one 92 0 0 0x80000000 0 0,
  .one 96 0 0xFFFFFFFF 0 0 0,
  .one 128 0 0x8FFFFFFF 0 0 0x30000,
  .one 132 0 0xFFFFFFFF 0 0 0,
  .one 136 0 0xFFFF 0 0 0,
  .one 140 0 0xF0000FFF 0 0 0,
  .one 144 0 0xFFFFFF 0 0 0x800000,
  .one 148 0 0xFFFFFFFF 0 0 0,
  .one 152 0 0 0 0 0,
  .one 156 0 0 0 0 0,
  .one 160 0 0 0 0 0,
  .one 164 0 0 0 0 0,
  .one 168 0 0 0 0 0,
  .one 172 0 0 0 0 0,
  .one 176 0 0 0 0 0,
  .one 192 0 0 0 0 0x2EE0000,
  .one 196 0 0 0 0 0,
  .one 200 0 0 0xFFF 0 0,
  .one 204 0 0 0 0 0]

/-- The registers of TMU beyond the page header (R82). -/
def descsTMU : List RegDesc := [
  .one 64 7 0 0 0 0,
  .one 68 0xFFFFFFFF 0 0 0 0x1FCA055,
  .one 72 0xFFFFFFFF 0 0 0 0,
  .one 76 0xFFFFFFFF 0 0 0 0,
  .one 80 0 0 0 0 0,
  .one 84 0 0 0 0 0,
  .one 88 0 0 0 0 0,
  .one 92 0 0 0 0 0,
  .one 96 0 0 0 0 0,
  .one 100 0 0 0 0 0,
  .one 104 0xFFFFFF 0 0 0 0x4000,
  .one 108 0 0 0 0 0,
  .one 112 0 0xFFFFFFFF 0 0 0,
  .one 116 0 255 0 0 0,
  .one 120 3 0 0 0 0,
  .one 124 0x8F0F00FF 0 0 0 0,
  .arr 128 4 8 0 0x80FFFFFF 0 0 0,
  .arr 132 4 8 0 0xFFFFFF 0 0 0x800]

/-- The registers of PLE beyond the page header (R84). -/
def descsPLE : List RegDesc := [
  .one 64 0 0 0 0 0,
  .one 68 0 0 0x10000000 0 0,
  .one 72 0 0 0 0 0,
  .one 76 0 0 0 0 0,
  .one 80 0 0 0 0 0,
  .one 84 0 0 0 0 0,
  .one 88 0 0 0 0 0,
  .one 92 1023 0 0 0 20,
  .one 96 0 0 0 0 0,
  .one 100 0 0 0 0 0,
  .one 104 0 0 0 0 0,
  .one 108 0 0 0x80000000 0 0,
  .arr 256 16 16 0 0xFFFFF000 0 0 0,
  .arr 260 16 16 0 31 0 0 0,
  .arr 264 16 16 0 0xFFFFFFFF 0 0 0,
  .arr 268 16 16 0 0 0 0 0,
  .arr 0x400 256 4 0 0x3FFFFFF 0 0 0xFFFFFF]

/-- The registers of NIX beyond the page header (R113). -/
def descsNIX : List RegDesc := [
  .one 64 239 0 0 0 128,
  .one 68 0xFFFFFFFF 0 0 0 0,
  .one 72 0xFFFF 0 0 0 0,
  .one 76 0x3FFF 0 0 0 0x2580,
  .one 80 0 0 0 0 0,
  .one 84 0 0 0 0 0,
  .one 88 0 0 0 0 0,
  .one 92 0 0 0 0 0,
  .one 96 0 0 0 0 0,
  .one 100 0 0 0 0 0]

/-- The registers of ING beyond the page header (R114). -/
def descsING : List RegDesc := [
  .one 64 0xFFFFFF 0 0 0 0x4000,
  .one 68 15 0 0 0 4,
  .one 72 0xFFFF07 0 0 0 0x1E0800,
  .one 76 0 0 0 0 0,
  .one 80 0 0 0 0 0,
  .one 84 0 0 0 0 0]

/-- The registers of SCX beyond the page header (R115). -/
def descsSCX : List RegDesc := [
  .one 64 0 0 0 0 0,
  .one 68 0 0 0 0 0,
  .one 72 0x3FFFF 0 0 0 0,
  .one 76 0xFFFFFFFF 0 0 0 0,
  .one 80 0x7F0FFF 0 0 0 0,
  .one 84 0xFFFFFFFF 0 0 0 0,
  .arr 96 4 4 0xFFFFFFFF 0 0 0 0,
  .arr 112 4 4 0xFFFFFFFF 0 0 0 0,
  .one 128 0xF1FFF 0 0 0 0x201A0,
  .one 132 0xFFFFFF 0 0 0 0,
  .one 136 0xFFFFFF 0 0 0 0xBB8,
  .one 140 0xFFFFFFFF 0 0 0 0,
  .one 144 0xFFFFFFFF 0 0 0 0,
  .one 148 255 0 0 0 0,
  .one 152 0xFFFFFFFF 0 0 0 0,
  .one 156 0xFFFFFFFF 0 0 0 0,
  .one 160 0xFFFF 0 0 0 0,
  .one 164 0xFFFFFFFF 0 0 0 0,
  .one 176 0 0 0 0 0,
  .one 180 0 0 0 0 0,
  .one 184 0 0 0xFFF 0 0,
  .one 192 0 0 0 0 0,
  .one 196 0 0 0 0 0,
  .one 200 0 0 0 0 0,
  .one 204 0 0 0 0 0,
  .one 208 0 0 0 0 0,
  .one 212 0 0 0 0 0,
  .one 216 0 0 0 0 0,
  .one 220 0 0 0 0 0,
  .one 224 0 0 0 0 0]

/-- The registers of CPM beyond the page header (R130). -/
def descsCPM : List RegDesc := [
  .one 64 0xFFF00000 0 0 0 0,
  .one 68 31 0 0 0 0,
  .one 72 0x1FFFFFF 0 0 0 0,
  .arr 80 4 4 0x1FFF 0 0 0 0,
  .one 96 0 0 0 0 0,
  .one 100 0 0 0 0 0,
  .one 104 0 0x1FFFFFF 0 0 0,
  .one 108 0 0 0 0 0,
  .one 112 0 0 0 0 0,
  .one 116 0 0 0 0 0,
  .one 120 0 0 0 0 0,
  .arr 128 4 4 0 0 0 0 0,
  .one 144 0 0xFFF 0 0 0,
  .one 148 0 0 0 0 0,
  .one 152 0 0 64 0 0,
  .one 156 0 0 0 0 0,
  .one 160 0 0 0 0 0,
  .one 164 0 0 0 0 0,
  .one 168 0 0 0 0 0,
  .one 172 0 0 0x80000000 0 0,
  .one 176 0 0 0 0 0,
  .one 180 0 0 0 0 0]

/-- The registers of DEC beyond the page header (R160). -/
def descsDEC : List RegDesc := [
  .one 64 0 0 0 0 0,
  .one 68 0 0 0 0 0,
  .one 72 0 0 0 0 0,
  .one 76 0 0 0 0 0,
  .one 80 0 0 0 0 0,
  .one 84 0 0 0 0 0,
  .one 88 0 0 0 0 0,
  .one 92 0 0 0 0 0,
  .one 96 0 0 0 0 0,
  .one 100 0 0 0x7FF 0 0,
  .one 104 0 0 0x80000000 0 0,
  .one 108 0 0 0x80000000 0 0]

/-- The registers of LNS beyond the page header (R182). -/
def descsLNS : List RegDesc := [
  .one 64 0 0 0 0 0,
  .one 68 0 0 0 0 0,
  .one 72 0 0 0 0 0,
  .one 76 0 0 0 0 0,
  .one 80 0 0 0x7FF 0 0,
  .one 84 0 0 0 0 0,
  .one 88 0 0xFFFFFFFF 0 0 0x10000,
  .one 92 0 0 0 0 0,
  .one 96 0 0 0 0 0,
  .one 100 0 0 0 0 0,
  .one 104 0 0 0 0 0,
  .one 108 0 0 0 0 0,
  .one 112 0 0 0x80000000 0 0,
  .one 116 0 0 0x80000000 0 0]

/-- The registers of TILE beyond the page header (R206). -/
def descsTILE : List RegDesc := [
  .one 0x1000 0 0 0 0 0,
  .one 0x1004 0 0 0 0 0,
  .one 0x1008 0 0 0 0 0,
  .one 0x100C 0 0xFFFFFFFF 0 0 0x1000,
  .one 0x1010 0 0 0x80000000 0 0,
  .one 0x1014 0 0 0 0 0,
  .one 0x1018 0 0 0 0 0,
  .one 0x1040 0 0 0 0 0,
  .one 0x1044 0 0 0 0 0,
  .one 0x1048 0 0 0 0 0,
  .one 0x104C 0 0 0 0 0,
  .one 0x1050 0 0 0 0 0,
  .one 0x1054 0 0 0 0 0,
  .one 0x1058 0 0 0 0 0,
  .one 0x105C 0 0 0 0 0,
  .one 0x1060 0 0xFFFFFFFF 0 0 0x10000,
  .one 0x1064 0 0 0 0 0,
  .one 0x1068 0 0 0x80000000 0 0,
  .one 0x106C 0 0 0 0 0,
  .one 0x1100 0 0 0 0 0,
  .one 0x1104 0 0 0 0 0,
  .one 0x1108 0 0 0 0 0,
  .one 0x110C 0 0 0 0 0,
  .arr 0x1110 5 4 0 0 0 0 0,
  .one 0x1124 0 0 0x80000000 0 0,
  .one 0x1128 0 0 0 0 0,
  .one 0x112C 0 0 0 0 0,
  .one 0x1130 0 0 0 0 0,
  .one 0x1134 0 0 0 0 0,
  .arr 0x1140 16 4 0 0 0 0 0,
  .one 0x1200 0 0 0 0 0,
  .one 0x1204 0 0 0 0 0,
  .one 0x1208 0 0 0 0 0,
  .one 0x120C 0 0 0 0 0,
  .one 0x1210 0 0 0 0 0,
  .one 0x1214 0 0 0 0 0,
  .one 0x1218 0 0 0 0 0,
  .one 0x121C 0 0 0 0 0,
  .one 0x1220 0 0xFFFF00FF 0 0 0x1000010,
  .one 0x1224 0 0 0 0 0,
  .one 0x1228 0 0 0 0 0,
  .one 0x122C 0 0 0 0 0,
  .one 0x1230 0 0 0x80000000 0 0,
  .one 0x1234 0 0 0 0 0,
  .one 0x1238 0 0 0 0 0,
  .one 0x123C 0 0 0 0 0,
  .one 0x1240 0 0x6C00FFFF 0 0 0]

/-- The registers of PFB beyond the page header (R261). -/
def descsPFB : List RegDesc := [
  .one 64 0 0 0 0 4,
  .one 68 0 0 0 0 0,
  .one 72 0 0 0 0 0,
  .one 76 0 0 0x80000000 0 0,
  .one 128 0 1 0 0 1,
  .one 132 0 0 0 0 0,
  .one 136 0 0 0 0 0,
  .one 140 0 0 0 0 0,
  .one 144 0 0 0 0 0,
  .one 148 0 0 0 0 0,
  .one 152 0 0 0 0 0,
  .one 156 0 0 0 0 0,
  .arr 160 8 4 0 0 0 0 0]

/-- The registers of EGR beyond the page header (R304). -/
def descsEGR : List RegDesc := [
  .one 64 0 0 0 0 0x1000,
  .one 68 0 0x1FFF 0 0 512,
  .one 72 0 0 0 0 0,
  .one 76 0 0 0 0 0,
  .one 80 0 0 0 0 0,
  .one 84 0 0 0 0 0,
  .one 88 0 0 0 0 0,
  .one 92 0 0 0xFFFFFFFF 0 0,
  .arr 0x400 256 4 0 0x80001FFF 0 0 0,
  .arr 0x800 256 4 0 0 0 0 0,
  .arr 0xC00 256 4 0 0 0 0 0,
  .arr 0x1000 64 256 0 0xFFFFFFFF 0 0 0x5DC,
  .arr 0x1004 64 256 0 0xFFFFFFFF 0 0 0,
  .arr 0x1008 64 256 0 0xFFFFF 0 0 0,
  .arr 0x100C 64 256 0 0xFFFFFFFF 0 0 0,
  .arr2 0x1010 64 256 4 4 0 0xFFFFFFFF 0 0 0,
  .arr2 0x1020 64 256 4 4 0 0xFFFFFFFF 0 0 0,
  .arr2 0x1030 64 256 8 4 0 0xFFFFFFFF 0 0 0,
  .arr 0x1050 64 256 0 0xFF3F 0 0 0x4000,
  .arr 0x1054 64 256 0 0 0 0 0,
  .arr 0x1058 64 256 0 0 0 0 0]

/-- The registers of DMC beyond the page header (R338). -/
def descsDMC : List RegDesc := [
  .one 64 0 0 0 0 0,
  .one 68 0 0 0 0 0,
  .one 72 0xFFFFFF 0 0 0 0x8F6B6F,
  .one 76 0xFFFF 0 0 0 0x7D0,
  .one 80 0xFFFF 0 0 0 0x800,
  .one 84 255 0 0 0 24,
  .one 88 0 0xFFFFFFFF 0 0 0x3E80020,
  .one 92 0 0 0x80000000 0 0,
  .one 96 0 0 0 0 0,
  .arr 100 8 4 0 0 0 0 0,
  .one 132 0 0 0 0 0,
  .one 136 0 0 0 0 0,
  .one 140 0 0 0 0 0,
  .one 144 0 0 0 0 0,
  .one 148 0 0 0 0 0,
  .one 152 0 0 0 0 0,
  .one 156 0 0 0 0 0,
  .one 160 0 0 0 0 0,
  .one 164 0 0 0 0 0,
  .one 168 0 0 0 0 0,
  .one 172 0 0 0 0 0,
  .one 176 0 0 0 0 0,
  .one 180 0 0 0x80000000 0 0,
  .one 192 0 0 0 0 0x76543210,
  .one 196 0 0 0 0 0xFEDCBA98,
  .one 200 0 0 0 0 0,
  .one 204 0 0 0 0 0,
  .one 208 0 0 0 0 0,
  .one 212 0 0 0 0 0]

/-- The registers of RING beyond the page header (R346). -/
def descsRING : List RegDesc := [
  .one 0 0 0xFFFFF000 0 0 0,
  .one 4 0 0xFFFFFFFF 0 0 0,
  .one 8 0 0xFFFFFFFC 0 0 0,
  .one 12 0 0xFFFFFFFF 0 0 0,
  .one 16 0 0xFFC00000 0 0 0x6400000,
  .one 20 0 0xFF001FFF 0 0 0,
  .one 24 0 0xFFFFFFFF 0 0 0,
  .one 28 0 0 0 0 0,
  .one 32 0 0 256 0 0,
  .one 36 0 0 0 0 0]

/-- The registers of FENCE beyond the page header (R354). -/
def descsFENCE : List RegDesc := [
  .one 0 0 0 0 0 0,
  .one 4 0 0 0 0 0,
  .one 8 0 0xFFFFFFF8 0 0 0,
  .one 12 0 0xFFFFFFFF 0 0 0,
  .one 16 0 0xC0000000 0 0 0x40000000,
  .one 20 0 0 0 0 0,
  .one 24 0 0 0 0 0,
  .one 28 0 0 0 0 0]

/-- The registers of PEP beyond the page header (R365). -/
def descsPEP : List RegDesc := [
  .one 64 0 0 0 0 0,
  .one 68 0 0 0 0 0,
  .one 72 0 0xFFFF0007 0 0 0x200007,
  .one 76 0 0 63 0 0,
  .one 80 0 63 0 0 63,
  .one 84 0 0 0 0 0,
  .one 88 0 0 0 0 0,
  .one 92 0 0xC0000000 0 0 0,
  .one 96 0 31 0 0 0,
  .one 100 0 0 0x80000000 0 0,
  .one 104 0 0 0x80000000 0 0,
  .one 108 0 0 0 0 0,
  .one 112 0 0 0 0 0,
  .one 116 0 0 0 0 0,
  .one 120 0 0 0x80000000 0 0,
  .one 124 0 0 0 0 0]

/-- The registers of SEC beyond the page header (R380). -/
def descsSEC : List RegDesc := [
  .one 64 0 0 0 0 0,
  .one 68 0 0 0 0 0,
  .one 72 0 0 0 15 9,
  .one 76 0 0 0 0xFFFFFFFF 0,
  .one 80 0 0 0 0xFFFFFFFF 0,
  .one 84 0 0 0 0x800001FF 0,
  .one 88 0 0 0 0x3FFF3FFF 0x20002000,
  .arr 96 4 4 0 0 0 0x80FFFFFF 0,
  .one 112 0 0 0 0 0,
  .one 116 0 0 0x80000000 0 0,
  .one 120 0 0 0 0 0,
  .arr2 256 4 256 16 16 0 0 0 0xFFFFF003 0,
  .arr2 260 4 256 16 16 0 0 0 0xFFFFFFFF 0,
  .arr2 264 4 256 16 16 0 0 0 0xFFFFFFFF 0]

/-- The registers of STW beyond the page header (R381). -/
def descsSTW : List RegDesc := [
  .one 64 0 0 0 0 0,
  .one 68 0 0 0 0 0,
  .one 72 0 0 0 0x1FF000 0,
  .one 76 0 0 0 0 0,
  .one 80 0 0x8000FFFF 0 0 1000,
  .one 84 0 0 0 0 0,
  .one 88 0 0 0 0 0,
  .one 92 0 0 0 0 0,
  .one 96 0 0xFFFFFFFF 0 0 0]

/-- The registers of MBX beyond the page header (R382). -/
def descsMBX : List RegDesc := [
  .one 64 0 0 0 0 0,
  .one 68 0 0 0 0 0,
  .one 72 0 0 0 0 0,
  .one 76 0 0 0 0 0,
  .one 80 0 0 0 0 0,
  .arr 256 64 4 0 0xFFFFFFFF 0 0 0,
  .arr 512 64 4 0 0 0 0 0]

/-- The registers of ERC beyond the page header (R404). -/
def descsERC : List RegDesc := [
  .one 64 0 0x40001FFF 0 0 0,
  .one 68 0 15 0 0 12,
  .one 72 0 0 0 0 0,
  .one 76 0 0xFFFFFFFF 0 0 0,
  .one 80 0 0 0 0 0,
  .one 84 0 0 0 0 0,
  .one 88 0 0 0 0 0,
  .one 92 0 0 15 0 0,
  .one 96 0 0 0 0 0,
  .one 100 0 0 0 0 0,
  .one 104 0 0 0 0 0,
  .one 108 0 0 0 0 0,
  .one 112 0 3 0 0 0,
  .one 116 0 0 0 0 0,
  .one 120 0 0 0 0 0,
  .one 124 0 0 0 0 0,
  .one 128 0 0 0 0 0,
  .arr 256 14 4 0 0 0xFFFFFFFF 0 0,
  .arr2 0x4000 256 32 8 4 0 0 0 0 0,
  .arr2 0x8000 1024 32 8 4 0 0 0 0 0]

/-- The registers of MET beyond the page header (R424). -/
def descsMET : List RegDesc := [
  .one 64 0 0 0 0 0xFFFF,
  .one 68 0 0 0 0 0,
  .one 72 0 0 0 0 0,
  .one 76 0 0 0 0 0,
  .one 80 0 0 0 0 0,
  .one 84 0 0 0 0 0,
  .one 88 0 0 0 0 0,
  .one 92 0 0 0 0 0,
  .one 96 0 0xFFFFFFFF 0 0 1000,
  .one 100 0 0 0 0 0,
  .one 104 0 0 0 0 0,
  .one 108 0 0 0 0 0,
  .one 112 0 0 0 0 0,
  .one 116 0 0 0 0 0,
  .arr2 256 4 32 8 4 0 0 0 0 0,
  .arr 384 5 4 0 0 0 0 0]

/-- The block-specific PG_ERR bits that the block's chapter lists (R19). -/
def errBlock : Blk → Nat
  | .devctl => 0x7F00
  | .sec => 768
  | .tmu => 0xF00
  | .ple => 0xF00
  | .erc => 768
  | .mbx => 0
  | .pep => 0x7F00
  | .nix => 768
  | .ing => 256
  | .egr => 0x1F00
  | .cpm => 0xF00
  | .scx => 256
  | .dec => 0x3F00
  | .lns => 0xF00
  | .dmc => 0xFF00
  | .tile => 0x3FF00
  | .pfb => 0x700
  | .met => 0x1F00
  | .stw => 0x700

/-- The register rows of a block. -/
def descsOf : Blk → List RegDesc
  | .devctl => descsDEVCTL
  | .sec => descsSEC
  | .tmu => descsTMU
  | .ple => descsPLE
  | .erc => descsERC
  | .mbx => descsMBX
  | .pep => descsPEP
  | .nix => descsNIX
  | .ing => descsING
  | .egr => descsEGR
  | .cpm => descsCPM
  | .scx => descsSCX
  | .dec => descsDEC
  | .lns => descsLNS
  | .dmc => descsDMC
  | .tile => descsTILE
  | .pfb => descsPFB
  | .met => descsMET
  | .stw => descsSTW

end Sys2Proof.Machine
end

