-- ==== Sys2Proof/Machine/Regs.lean ====
section
/-!
DEFINITION. BAR0 (R13): where an address lies, the block instances and their pages (Table 1.1), and what an unlisted
register reads as (its reset value).
-/
namespace Sys2Proof

/-- Instances of each block type on a full part (Table 1.1). -/
def Blk.count : Blk → Nat
  | .mbx => 32 | .nix => 12 | .scx => 256 | .dec => 24 | .lns => 8 | .dmc => 16 | .tile => 72
  | .devctl | .sec | .tmu | .ple | .erc | .pep | .ing | .egr | .cpm | .pfb | .met | .stw => 1

/-- Type code (Table 1.1). -/
def Blk.code : Blk → Nat
  | .devctl => 1 | .sec => 2 | .tmu => 3 | .ple => 4 | .erc => 5 | .mbx => 6 | .pep => 7 | .nix => 8 | .ing => 9
  | .egr => 0xA | .cpm => 0xB | .scx => 0xC | .dec => 0xD | .lns => 0xE | .dmc => 0xF | .tile => 0x10 | .pfb => 0x11
  | .met => 0x12 | .stw => 0x13

/-- 4 KiB pages of an instance (Table 1.1). -/
def Blk.pages : Blk → Nat
  | .devctl | .mbx | .scx => 1
  | .sec => 15
  | .nix | .dec | .lns => 4
  | .tmu | .ple | .erc | .pep | .ing | .dmc | .tile | .met | .stw => 16
  | .egr | .cpm => 32
  | .pfb => 256

/-- BAR0 base of an instance (Table 1.1). -/
def Inst.base (u : Inst) : Nat :=
  match u.blk with
  | .devctl => 0x10000 | .sec => 0x11000 | .tmu => 0x20000 | .ple => 0x30000 | .erc => 0x40000
  | .mbx => if u.idx < 16 then 0x50000 + 0x1000 * u.idx else 0x60000 + 0x1000 * u.idx
  | .pep => 0x60000
  | .nix => if u.idx < 8 then 0x80000 + 0x4000 * u.idx else 0x90000 + 0x4000 * u.idx
  | .ing => 0xA0000 | .egr => 0xC0000 | .cpm => 0xE0000
  | .scx => 0x100000 + 0x1000 * u.idx
  | .dec => 0x200000 + 0x4000 * u.idx
  | .lns => 0x280000 + 0x4000 * u.idx
  | .dmc => 0x300000 + 0x10000 * u.idx
  | .tile => 0x400000 + 0x10000 * u.idx
  | .pfb => 0x900000 | .met => 0xA00000 | .stw => 0xB00000

/-- The instance number is one of Table 1.1. -/
def Inst.ok (u : Inst) : Bool := decide (u.idx < u.blk.count)

/-- PG_CTRL of these blocks ignores writes, and they read RUNNING from power-up (R25). -/
def Blk.alwaysRuns : Blk → Bool
  | .devctl | .sec | .pep | .met => true
  | .tmu | .ple | .erc | .mbx | .nix | .ing | .egr | .cpm | .scx | .dec | .lns | .dmc | .tile | .pfb | .stw => false

end Sys2Proof

namespace Sys2Proof.Machine

/-! ### The page header (Table 1.2) -/

/-- PG_CTRL. -/
abbrev pgCtrl (u : Inst) : Nat := u.base + 8
/-- PG_STATE. -/
abbrev pgState (u : Inst) : Nat := u.base + 0xC
/-- PG_ERR. -/
abbrev pgErr (u : Inst) : Nat := u.base + 0x10
/-- PG_ERR_EN. -/
abbrev pgErrEn (u : Inst) : Nat := u.base + 0x14
/-- PG_ERR_CNT. -/
abbrev pgErrCnt (u : Inst) : Nat := u.base + 0x1C
/-- PG_FIRST_ERR. -/
abbrev pgFirst (u : Inst) : Nat := u.base + 0x20
/-- PG_STATIC_LOG. -/
abbrev pgStatic (u : Inst) : Nat := u.base + 0x24

/-- The defined bits of PG_ERR (R19): the common bits [4:0] and the block's own. -/
def errDefined (b : Blk) : Nat := 0x1F + errBlock b

/-! ### Where an address lies -/

/-- What Table 1.1 puts at a BAR0 address. -/
inductive Place where
  | rom (off : Nat)
  | page (u : Inst) (off : Nat)
  | ring (r off : Nat)
  | fence (f off : Nat)
  | dumpWin (off : Nat)
  | hole
  deriving DecidableEq, Repr

/-- An array of instances at `base`, with stride `st`, `n` of them starting with number `i0`; `f` for the rest. -/
def Place.array (a base st n i0 : Nat) (b : Blk) (f : Place) : Place :=
  if base ≤ a ∧ a < base + st * n then .page ⟨b, i0 + (a - base) / st⟩ ((a - base) % st) else f

/-- Table 1.1. -/
def locate (a : Nat) : Place :=
  if a < 0x10000 then .rom a
  else if 0x8000000 ≤ a then (if a < 0xC000000 then .dumpWin (a - 0x8000000) else .hole)
  else if 0x3000000 ≤ a then
    (if a < 0x3080000 then .fence ((a - 0x3000000) / 64) ((a - 0x3000000) % 64) else .hole)
  else if 0x1000000 ≤ a then .ring ((a - 0x1000000) / 0x1000) ((a - 0x1000000) % 0x1000)
  else
    Place.array a 0x10000 0x1000 1 0 .devctl <|
    Place.array a 0x11000 0xF000 1 0 .sec <|
    Place.array a 0x20000 0x10000 1 0 .tmu <|
    Place.array a 0x30000 0x10000 1 0 .ple <|
    Place.array a 0x40000 0x10000 1 0 .erc <|
    Place.array a 0x50000 0x1000 16 0 .mbx <|
    Place.array a 0x60000 0x10000 1 0 .pep <|
    Place.array a 0x70000 0x1000 16 16 .mbx <|
    Place.array a 0x80000 0x4000 8 0 .nix <|
    Place.array a 0xA0000 0x10000 1 0 .ing <|
    Place.array a 0xB0000 0x4000 4 8 .nix <|
    Place.array a 0xC0000 0x20000 1 0 .egr <|
    Place.array a 0xE0000 0x20000 1 0 .cpm <|
    Place.array a 0x100000 0x1000 256 0 .scx <|
    Place.array a 0x200000 0x4000 24 0 .dec <|
    Place.array a 0x280000 0x4000 8 0 .lns <|
    Place.array a 0x300000 0x10000 16 0 .dmc <|
    Place.array a 0x400000 0x10000 72 0 .tile <|
    Place.array a 0x900000 0x100000 1 0 .pfb <|
    Place.array a 0xA00000 0x10000 1 0 .met <|
    Place.array a 0xB00000 0x10000 1 0 .stw .hole

/-- The register row that covers an address, if the tables name a register there. -/
def descAt (a : Nat) : Option RegDesc :=
  match locate a with
  | .page u off => (descsOf u.blk).find? (fun d => d.covers off)
  | .ring _ off => descsRING.find? (fun d => d.covers off)
  | .fence _ off => descsFENCE.find? (fun d => d.covers off)
  | .rom _ | .dumpWin _ | .hole => none

/-- What an unlisted register reads as: its reset value (Tables 1.2, 1.6 and those of each chapter). -/
def resetOf (a : Nat) : Word :=
  match locate a with
  | .page u off =>
    if off = 0x14 then 0x1E
    else if off = 0xC then (if u.blk.alwaysRuns then 1 else 0)
    else if off = 8 then 0
    else match (descsOf u.blk).find? (fun d => d.covers off) with
      | some d => BitVec.ofNat 32 d.reset
      | none => 0
  | .ring _ off =>
    match descsRING.find? (fun d => d.covers off) with | some d => BitVec.ofNat 32 d.reset | none => 0
  | .fence _ off =>
    match descsFENCE.find? (fun d => d.covers off) with | some d => BitVec.ofNat 32 d.reset | none => 0
  | .rom _ | .dumpWin _ | .hole => 0

end Sys2Proof.Machine
end

