-- ==== Sys2Proof/Machine/State.lean ====
section
/-!
DEFINITION. The state of the YX96: plain data, grouped by block. A register of the manual's tables has its home in
`regs`, keyed by its BAR0 byte address; the groups below hold what the prose gives the machine beside its registers.
-/
namespace Sys2Proof.Machine

/-! ### Identity, power and pins -/

/-- What the fuses fix (R4, R35, R279, R367, R414, R443). -/
structure Fuses where
  part : BitVec 16
  grade : BitVec 4
  stepMaj : BitVec 4
  stepMin : BitVec 4
  retired : List Nat
  revoked : BitVec 2
  keyHash0 : BitVec 384
  keyHash1 : BitVec 384
  serial : BitVec 64
  meterKeyHash : BitVec 256
  avsVolt : BitVec 10
  deriving DecidableEq, Repr

/-- The core die's condition (R440 to R442). -/
inductive CorePower where
  | unpowered | held | running
  deriving DecidableEq, Repr

/-- Power, reset and pins of the core die (18_electrical). -/
structure Power where
  core : CorePower
  faulted : Bool
  straps : BitVec 2
  pwrFaultN : Bool
  thermN : Bool
  ppsOut : Bool
  trigOut : BitVec 4
  strobe : Bool
  warm : Bool
  deriving DecidableEq, Repr

/-- One RW-L write that waits for its instance's next window start (R29): register, field mask, value. -/
structure LiveWrite where
  unit : Inst
  addr : Nat
  mask : Word
  value : Word
  deriving DecidableEq, Repr

/-! ### Time -/

/-- Epoch, phase and device time (02_epoch_and_plans, Time base); `up` counts the nanoseconds of the local oscillator since
cold reset, in which slewing (R43) and refresh (R323) are paced; `holdHist` is SYNC_STATUS.HOLDOVER at the last boundaries, newest first
(Table 11.3). -/
structure Clock where
  time : BitVec 64
  up : Nat
  epoch : BitVec 40
  phase : BitVec 24
  epochStart : Nat
  rate : Nat
  waiting : Bool
  slew : Int
  lastEdge : Option Nat
  sinceEdge : Nat
  replayTarget : BitVec 40
  ppsUntil : Option Nat
  ppsLast : Nat
  trigCfg : List (Word × Word)
  trigEnd : List (Option Nat)
  refilled : Nat
  holdHist : List Bool
  deriving DecidableEq, Repr

/-- What one PTP instance knows (R44): grandmaster priority vector, validity, the two-step Sync that waits for its
Follow_Up (sequence number, arrival), the Pdelay_Req sent (sequence number, when), its response (the partner's receive
time, arrival), the link delay, the device time of its last valid synchronisation and the sync interval in ns (R45). -/
structure PtpPort where
  gm : Option Nat
  valid : Bool
  last : Nat
  interval : Nat
  syncRx : Option (Nat × Nat)
  reqSeq : Nat
  reqTx : Option Nat
  resp : Option (Nat × Nat)
  delay : Nat
  deriving DecidableEq, Repr

/-- 802.1AS state: frames handed over and not yet taken, and the two PTP instances (R44). -/
structure Sync where
  inbox : List (BitVec 4 × Bytes × BitVec 64)
  main : PtpPort
  alt : PtpPort
  onAlt : Bool
  deriving DecidableEq, Repr

/-! ### Plans and windows -/

/-- A window table entry (Table 2.3). -/
structure PlanWindow where
  srcFrame : Bool
  swapOut : Bool
  swapIn : Bool
  emit : Bool
  kind : Nat
  start : Nat
  stream : Nat
  latest : Nat
  divLog2 : Nat
  sub : Nat
  lag : Nat
  deadline : Nat
  depCount : Nat
  dep1 : Nat
  dep0 : Nat
  divRes : Nat
  tiles : Nat
  lns : Nat
  decs : Nat
  progNum : Nat
  progFirst : Nat
  cycles : Nat
  retryCycles : Nat
  swapCycles : Nat
  reservedZero : Bool
  deriving DecidableEq, Repr, Inhabited

/-- A program entry, a reference entry and an area entry (R56). -/
structure PlanProgram where
  target : Nat
  codeOff : Nat
  codeSize : Nat
  refFirst : Nat
  refCount : Nat
  reservedZero : Bool
  deriving DecidableEq, Repr, Inhabited

/-- A reference entry (R56). -/
structure PlanRef where
  offset : Nat
  length : Nat
  area : Nat
  access : Nat
  reservedZero : Bool
  deriving DecidableEq, Repr, Inhabited

/-- An area entry (R56). -/
structure PlanArea where
  shared : Bool
  stream : Nat
  base : Nat
  pages : Nat
  deriving DecidableEq, Repr, Inhabited

/-- A plan image as PLE holds it once checked (R54 to R56): where it lies, its header fields and its tables. -/
structure Plan where
  slot : Nat
  base : Nat
  planId : Nat
  imageSize : Nat
  minPeriod : Nat
  maxPeriod : Nat
  minClk : Nat
  windows : List PlanWindow
  programs : List PlanProgram
  refs : List PlanRef
  areas : List PlanArea
  deriving DecidableEq, Repr, Inhabited

/-- The states of Table 2.4. -/
inductive WinSt where
  | waiting | open | fired | done | skipped | forced | closed
  deriving DecidableEq, Repr, Inhabited

/-- A delivered access unit (R103, R105, R108): its slot, descriptor fields, and its chain of cells. -/
structure AccessUnit where
  slot : Int
  epoch : BitVec 40
  sub : BitVec 2
  rtpTs : Word
  ra : Bool
  frag : Bool
  tsJump : Bool
  noMarker : Bool
  loss : Bool
  cells : List Nat
  bytes : Nat
  deriving DecidableEq, Repr, Inhabited

/-- A decode descriptor (Table 5.4), PART_INDEX apart. -/
structure DecDesc where
  mode : Nat
  k : Nat
  dpbMax : Nat
  outHold : Nat
  depthMax : Nat
  codec : Nat
  maxW : Nat
  maxH : Nat
  levelMax : Nat
  opSel : Nat
  statsDepth : Nat
  cpxEn : Bool
  mvEn : Bool
  pliPermille : Nat
  profileMask : Nat
  deriving DecidableEq, Repr, Inhabited

/-- A picture of the store (R151, R152, R156, R157): its buffer, whether it is a reference, whether it is 10-bit, its concealed
fraction, TAINT. -/
structure StorePic where
  buffer : Nat
  isRef : Bool
  deep : Bool
  permille : Nat
  taint : Bool
  deriving DecidableEq, Repr, Inhabited

/-- A picture that a fired DECODE window works on (05_decode): its descriptor and references' addresses, the access unit's
bytes and the units decoded, the decode state read at firing with its store and output table, the copy to be written, the
event of Table 5.8 that conceals it whole (6 or 7, else 0), the core that owns each partition and the units of it that are
reconstructed, and what ended it early. -/
structure PicRun where
  desc : DecDesc
  stateBase : Nat
  storeBase : Nat
  statsBase : Nat
  info : PicInfo
  ra : Bool
  data : Bytes
  nals : AuUnits
  decState : Bytes
  store : List StorePic
  table : Bytes
  older : Nat
  whole : Nat
  owner : List Nat
  units : List Nat
  abandoned : Bool
  elapsed : Bool
  deriving DecidableEq, Repr

/-- One window of the epoch in progress (R61 to R69) and the conditions its chain carries into the record (R288). -/
structure WinRun where
  st : WinSt
  blocked : Bool
  closing : WinSt
  fireAt : Option (BitVec 24)
  closeAt : Option (BitVec 24)
  fireTime : Nat
  flags : Word
  retries : Nat
  permille : Nat
  left : List Inst
  failed : Bool
  au : Option AccessUnit
  pic : Option PicRun
  objs : Option Bytes
  handed : Bool
  deriving DecidableEq, Repr

/-- PLE beside its registers (R58 to R77), the state copies found to mismatch (R259), and where the stream's last swap-out
did not complete, keyed by 64 × stream + logical tile (R80, R271). -/
structure Ple where
  loading : Option Nat
  checking : Option (Nat × BitVec 24 × BitVec 40 × Bool)
  plan : Option Plan
  next : Option (Plan × BitVec 40)
  wins : SMap WinRun
  badCopies : List Nat
  stale : SMap Bool
  deriving DecidableEq, Repr

/-! ### Ingress -/

/-- A packet in the reorder stage (R101): its RTP fields, payload and arrival; `dropped` when the policer discarded it. -/
structure Packet where
  seq : BitVec 16
  ts : Word
  marker : Bool
  payload : Bytes
  time : BitVec 64
  epoch : BitVec 40
  phase : BitVec 24
  dropped : Bool
  deriving DecidableEq, Repr, Inhabited

/-- An access unit under assembly (R102, R103): `data` holds complete units with their length prefixes, `partUnit` the
bytes of a fragmented unit still open, `gap` a loss declared since its last packet, `drop` an oversize unit. -/
structure Assembly where
  ts : Word
  seqFirst : BitVec 16
  seqLast : BitVec 16
  units : Nat
  data : Bytes
  partUnit : Option Bytes
  cells : List Nat
  time : BitVec 64
  epoch : BitVec 40
  phase : BitVec 24
  lastEpoch : BitVec 40
  lastPhase : BitVec 24
  seqHdr : Bool
  key : Bool
  ra : Bool
  frag : Bool
  loss : Bool
  gap : Bool
  drop : Bool
  deriving DecidableEq, Repr, Inhabited

/-- Where a context's RTCP goes (R112). -/
structure RtcpDest where
  port : BitVec 4
  mac : Bytes
  vlan : Option (BitVec 12)
  ip6 : Bool
  srcIp : Bytes
  dstIp : Bytes
  srcPort : BitVec 16
  deriving DecidableEq, Repr, Inhabited

/-- A source heard in an epoch (R96): its SSRC, when its last packet arrived, and where its RTCP would go. -/
structure HeardSsrc where
  ssrc : Word
  time : BitVec 64
  dest : RtcpDest
  deriving DecidableEq, Repr, Inhabited

/-- What a receiver report reports of a source (RFC 3550, log 24): first and highest extended number, packets
received, the values at the last report, jitter scaled by 16, transit time, and the last sender report. -/
structure RtpStats where
  base : Nat
  high : Nat
  received : Nat
  expPrior : Nat
  recPrior : Nat
  jitter16 : Nat
  transit : Option Nat
  lsr : Nat
  lsrTime : Nat
  deriving DecidableEq, Repr

/-- A stream context beside its registers (03_network_ingress): `next` is the sequence number due, `held` the packets
held, by distance from it; `latched` says that SSRC_LATCHED holds the stream's SSRC. -/
structure Scx where
  bucket : Nat
  latched : Bool
  next : Option (BitVec 16)
  held : List Packet
  lossNext : Bool
  asm : Option Assembly
  waitRa : Bool
  anchored : Bool
  prev : Option (Int × Word)
  aus : List AccessUnit
  lastPli : Option (BitVec 40)
  lastRr : BitVec 40
  gaps : List (BitVec 16)
  rtcp : Option RtcpDest
  stats : RtpStats
  seen : List HeardSsrc
  history : List (List HeardSsrc)
  deriving DecidableEq, Repr

/-! ### Cell pool -/

/-- A chain return asked of CPM (R124, R127): SOURCE and UNIT of FREE_REJECT, the stream, the first cell. -/
structure ChainRet where
  source : Nat
  unit : Nat
  stream : Nat
  first : Nat
  deriving DecidableEq, Repr

/-- CPM beside its registers (04_cell_pool). -/
structure Cpm where
  alloc : SMap Bool
  free : List Nat
  fresh : Nat
  bufs : SMap Nat
  req : Option Nat
  freeHi : Word
  asked : List ChainRet
  walking : List (ChainRet × Nat × List Nat)
  deriving DecidableEq, Repr

/-! ### Decode and lens -/

/-- A decode core at work (R142 to R147): its window and part, whether its charge will stop it, whether it has stopped or
finished, and its elapsed cycles. -/
structure DecJob where
  win : BitVec 12
  part : Nat
  overrun : Bool
  stopped : Bool
  done : Bool
  elapsed : Nat
  deriving DecidableEq, Repr, Inhabited

/-- An output table entry of a decode-state copy (Table 5.6). -/
structure OutEntry where
  epoch : Nat
  sub : Nat
  buffer : Nat
  taint : Bool
  abandoned : Bool
  concealed : Bool
  valid : Bool
  width : Nat
  height : Nat
  permille : Nat
  depth : Nat
  deriving DecidableEq, Repr, Inhabited

/-- An augmentation entry (Table 6.5); gains and offsets are FP16 codes. -/
structure AugEntry where
  dx : Int
  dy : Int
  sx : Nat
  sy : Nat
  gain : List Nat
  off : List Nat
  hflip : Bool
  vflip : Bool
  deriving DecidableEq, Repr, Inhabited

/-- A lens engine at work (R165, R172): its window, whether the window fired, the ring and its read in progress and what came
of it, the entries examined, whether its parameters are settled, the entry applied to each output, the picture's
entry once read, and whether it has finished. -/
structure LnsJob where
  win : BitVec 12
  fired : Bool
  ring : Option Nat
  tag : Option Nat
  raw : Option (CplStatus × Bytes)
  examined : Nat
  settled : Bool
  aug : List (Option AugEntry)
  src : Option OutEntry
  done : Bool
  deriving DecidableEq, Repr

/-! ### Tiles and fabric -/

/-- A matrix operation as read at issue (R242): its three descriptors and the output blocks that its skip bitmap names. -/
structure MopDesc where
  opd : Bytes
  epd : Bytes
  prd : Bytes
  skip : List Nat
  deriving DecidableEq, Repr

/-- A stationary operand: for each filled row and column the codes of its values in the internal format, two for an INT16
element, or the raw code under HAMMING. -/
abbrev Operand := List (List (List (BitVec 19)))

/-- An operand in the retention buffer (R218): its pass, what was loaded, and the cells of the array that hold another value. -/
structure Retained where
  pass : Nat
  operand : Operand
  held : List CellUpset
  deriving DecidableEq, Repr

/-- How far a matrix operation has come: fused vectors that have entered (R254); the pass and the vector whose verdict is
next, and the LOAD verdicts taken (R263 to R265); the fronts loaded and the retention buffer (R214, R218); and the FP32
accumulators of its output elements, with whether one clipped (R197, R266). -/
structure MopRun where
  entered : Nat
  pass : Nat
  vec : Nat
  loads : Nat
  fronts : Nat
  kept : List Retained
  acc : SMap (Word × Bool)
  deriving DecidableEq, Repr

/-- An operation that has not begun. -/
def MopRun.start : MopRun := { entered := 0, pass := 0, vec := 0, loads := 0, fronts := 0, kept := [], acc := [] }

/-- What an instruction in flight still has to do (R236): a matrix operation with its progress; a LOAD or SEND with the
beats still to land, a SEND with the tile-clock cycle of its issue too (R252); a STORE with its transfer. -/
inductive UnitOp where
  | matrix (d : MopDesc) (r : MopRun)
  | vector
  | loadOp (addr ts left : Nat) (ctr : Option Nat)
  | storeOp (addr ts units : Nat)
  | sendOp (dest src dst left ctr slots issued : Nat)
  deriving DecidableEq, Repr

/-- An instruction in flight and the stage kind under which it issued (R255). -/
structure Flight where
  kind : Nat
  op : UnitOp
  deriving DecidableEq, Repr

/-- A tile program in progress (R234 to R240): `mark` counts the tile-clock cycles since firing that STAGE_CYCLES has
taken up; `stateAddr` is the state area's address; `stale` says that the stream's last swap-out on this logical tile did
not complete (R80). -/
structure TileProg where
  win : BitVec 12
  stream : BitVec 8
  ltile : Nat
  insns : List (Word × Word × Word × Word)
  refs : List (Nat × Nat × Nat)
  pc : Nat
  kind : Nat
  swapTs : Nat
  swapUnits : Nat
  stateKey : Word
  stateAddr : Nat
  stale : Bool
  started : Bool
  halted : Bool
  ended : Bool
  mark : Nat
  deriving DecidableEq, Repr

/-- A replay under way (R266, R267): the check that failed (0 SUM, 1 LOAD, 2 DUP), its pass and vector, whether it was
injected, whether the replay is forced to fail, and whether a REPEATED outcome flags no tile (R281). -/
structure Replay where
  check : Nat
  pass : Nat
  vec : Nat
  inj : Bool
  persist : Bool
  noRetire : Bool
  deriving DecidableEq, Repr

/-- An armed injection (R281): the check, the passes still to let go by, PERSIST and NO_RETIRE. -/
structure MirrorArm where
  check : Nat
  left : Nat
  persist : Bool
  noRetire : Bool
  deriving DecidableEq, Repr

/-- One physical tile beside its registers (07 to 10); `vPrev` holds the streaming cycles of the tile's previous pass (R215),
`retrying` the replays under way, the latest first (R266, R267). -/
structure Tile where
  store : SMap Byte
  vreg : SMap Word
  prog : Option TileProg
  qMatrix : List Flight
  qVector : List Flight
  qXfer : List Flight
  qFabric : List Flight
  waitCtr : Option (Nat × Word)
  emitting : Bool
  vPrev : Option Nat
  retrying : List Replay
  repeated : Bool
  overCounted : Bool
  inj : Option MirrorArm
  flagEpoch : Option (BitVec 40)
  swappedOut : Bool
  decayed : Option (BitVec 40)
  deriving DecidableEq, Repr

/-- A physical row's repair state (R275, R276, Table 10.6). -/
structure RepairRow where
  gap : Nat
  spareFree : Bool
  factory : Bool
  blocked : Bool
  deriving DecidableEq, Repr

/-- The plan fabric beside PFB's registers (R249 to R253, R275). -/
structure Fabric where
  beats : SMap Nat
  rows : List RepairRow
  autoFrom : Option (BitVec 40 × BitVec 24)
  deriving DecidableEq, Repr

/-! ### Records -/

/-- A record held in the record store (R296): its bytes and the destinations still owed. -/
structure Rec where
  data : Bytes
  stream : BitVec 8
  ring : Option (BitVec 13)
  sinks : List Nat
  time : BitVec 64
  deriving DecidableEq, Repr

/-- The settings of a UDP sink, as taken up (R305). -/
structure SinkSet where
  cfg : Word
  l4 : Word
  phy : Word
  dmacLo : Word
  dip : List Word
  sip : List Word
  streams : List Word
  ip : Word
  deriving DecidableEq, Repr

/-- EGR beside its registers (11_results); `dropBefore` is keyed by 8,192 × stream + ring (R299). -/
structure Egr where
  store : List Rec
  dropBefore : SMap Bool
  sinks : SMap SinkSet
  deriving DecidableEq, Repr

/-! ### DRAM -/

/-- An entry of a channel's write queue (R318, R319): one 64-byte block, its bytes, its byte mask, and whether it carries
the poison marker. -/
structure WqEntry where
  block : Nat
  data : Bytes
  mask : BitVec 64
  mark : Bool
  deriving DecidableEq, Repr

/-- A read beat in a channel's read queue (R318): its requester, its block, the local nanosecond of its arrival, and whether
its data will be discarded (R332). -/
structure MemRead where
  unit : Inst
  block : Nat
  time : Nat
  drop : Bool
  deriving DecidableEq, Repr

/-- A request that a controller holds: a read beat that found no room (R318), or what reached a controller before its
initialisation was complete (R459) or while SEAL was under way (R370). -/
inductive MemReq where
  | read (unit : Inst) (block : Nat)
  | write (unit : Inst) (e : WqEntry)
  | bar2 (off : BitVec 37) (acc : Bar2Acc)
  deriving DecidableEq, Repr

/-- One controller beside its registers (12_memory): `owed` holds, per bank pair, the refreshes owed at a local nanosecond,
`since` the one at which the channels were initialised; `thresh`, `hours`, `prio` and `age` are the HAMMER_CFG,
SCRUB_CFG, PORT_PRIO and AGE_LIMIT in force (R337). -/
structure Dmc where
  initDone : Bool
  badRanks : List Nat
  wq : SMap (List WqEntry)
  rq : SMap (List MemRead)
  owed : SMap (Int × Nat)
  since : Nat
  openRow : SMap (Option Nat)
  hammer : SMap (List (Nat × Nat))
  chanBeats : SMap Nat
  portBeats : SMap Nat
  streakChan : Nat
  streakCtl : Nat
  migTime : Nat
  thresh : Nat
  hours : Nat
  prio : Word
  age : Nat
  deriving DecidableEq, Repr

/-- The DRAM stacks and the mapping in force (R307 to R313). Bytes and poison markers are keyed by physical place, and so are
`faults`: the symbol errors that a block has collected, and the tries of its next beat that will fail (R313, R327).
`held` holds the requests not yet accepted; `beat` is what the last read beat returned, to the requester `beatFor`. -/
structure Dram where
  cells : SMap Byte
  poison : SMap Bool
  faults : SMap (Nat × Nat)
  held : List MemReq
  seed : BitVec 64
  na : Nat
  beat : Bytes
  beatPoison : Bool
  beatFor : Option Inst
  ctl : SMap Dmc
  deriving DecidableEq, Repr

/-! ### Host interface -/

/-- Who asked for a read of host memory (R357). -/
inductive ReadBy where
  | augment (ring : BitVec 13) (engine : Nat)
  | descriptor (ring : BitVec 13)
  | copyIn (ring : BitVec 13)
  deriving DecidableEq, Repr

/-- A read of host memory outstanding (R357); `dropped` says that a warm reset or the end of its ring has given it up (R39,
R348). -/
structure HostRead where
  tag : Nat
  by' : ReadBy
  addr : Nat
  len : Nat
  time : BitVec 64
  dropped : Bool
  deriving DecidableEq, Repr

/-- An UPLOAD ring being served (R352): the descriptor as read, its fields once checked, and whether the copy is done. -/
structure Upload where
  tag : Option Nat
  raw : Option Bytes
  checked : Bool
  op : Nat
  hostAddr : Nat
  devAddr : Nat
  length : Nat
  fence : Option (BitVec 13)
  finished : Bool
  deriving DecidableEq, Repr

/-- The configuration-space fields that this manual's rules name (R340 to R342, R356 to R361, R364): the Command register's
Bus Master Enable and Interrupt Disable, what the host programs beside it, D3hot, and the AER status. -/
structure CfgSpace where
  busMaster : Bool
  intDisable : Bool
  prog : HostCfg
  d3hot : Bool
  aerUnc : Word
  aerCor : Word
  deriving DecidableEq, Repr

/-- PEP beside its registers (13_host_interface). -/
structure Pep where
  attempt : Nat
  cfg : CfgSpace
  inta : Bool
  reads : List HostRead
  nextTag : Nat
  fences : SMap (BitVec 64)
  fenceOwed : SMap Bool
  idxOwed : SMap Bool
  uploads : SMap (Option Upload)
  deriving DecidableEq, Repr

/-! ### Steward, mailboxes, errors -/

/-- The image that the boot ROM started (R366, R376). -/
structure BootImage where
  svn : BitVec 8
  slot : Nat
  deriving DecidableEq, Repr

/-- The steward domain and protection set-up beside their registers (14_boot). -/
structure Stw where
  sram : SMap Byte
  flash : SMap Byte
  svn : BitVec 8
  asleep : Bool
  image : Option BootImage
  hostTry : Option Nat
  hostFailed : Bool
  trySlot : Nat
  sealing : Bool
  retired : List Nat
  followOn : Bool
  /-- Reset causes that firmware has read and not yet handed to ERC (R375). -/
  fwLog : List Word
  deriving DecidableEq, Repr

/-- A mailbox beside its registers (R377 to R379). -/
structure Mbx where
  owner : Stamp
  lastWrite : Nat
  result : Option (Nat × Bytes)
  deriving DecidableEq, Repr

/-- A report waiting in its instance (R386): when it arose, its class (Table 15.1), the window and stream it belongs
to; `fatal` says that ERC detected a fatal error with it (R385). -/
structure Report where
  unit : Inst
  bit : Nat
  cls : Nat
  count : Nat
  inj : Bool
  fatal : Bool
  win : Option (BitVec 12 × BitVec 8)
  time : BitVec 64
  epoch : BitVec 40
  phase : BitVec 24
  deriving DecidableEq, Repr

/-- A fatal error that ERC has logged, or found no room for, and not yet recorded (R396, R464). -/
structure FatalNote where
  unit : Inst
  bit : Nat
  logged : Bool
  seq : Word
  time : BitVec 64
  epoch : BitVec 40
  phase : BitVec 24
  deriving DecidableEq, Repr

/-- A dump (R397, R401): medium and its tiles, section table and total length once the sections are written, when the
fatal error was, and whether DUMP_NOW asked for it. -/
structure DumpRun where
  fallback : Bool
  tiles : List Nat
  written : Bool
  table : List (Nat × Nat × Nat × Nat)
  total : Nat
  began : Nat
  now : Bool
  deriving DecidableEq, Repr

/-- ERC beside its registers (15_errors). -/
structure Erc where
  pending : List Report
  fatalPend : List FatalNote
  fatalCount : Nat
  logLost : Bool
  dump : Option DumpRun
  reset : Bool
  deriving DecidableEq, Repr

/-! ### Meter die, bridge, pair -/

/-- A quadrature channel of the meter die (R408, R411). -/
structure QuadChan where
  ab : BitVec 2
  seqErr : Nat
  zCount : Int
  zBad : Nat
  zSeen : Bool
  deriving DecidableEq, Repr

/-- The meter die (16_meter_die). -/
structure Meter where
  distance : BitVec 48
  speed : BitVec 16
  time : BitVec 48
  motion : BitVec 2
  timeValid : Bool
  paramVer : BitVec 16
  fwVer : BitVec 16
  sealCnt : Word
  backlog : Nat
  residue : Nat
  params : MeterParams
  newParams : Option MeterParams
  newKey : Option (BitVec 128)
  newImage : Option MeterImage
  key : Option (BitVec 128)
  image : Option MeterImage
  prevImage : Option MeterImage
  running : Bool
  recent : List Int
  slice : Int
  ch0 : QuadChan
  ch1 : QuadChan
  cross : List Nat
  fault : Bool
  clean : Nat
  sealOpen : Bool
  battery : Bool
  stopped : Bool
  frameCtr : Word
  lastAdj : Option (BitVec 48)
  latched : Option Bytes
  deriving DecidableEq, Repr

/-- The bridge MET beside its registers (R420 to R424). -/
structure Met where
  line : List Bytes
  newest : Option (Bytes × Nat)
  slots : SMap (Bytes × BitVec 40 × Bool)
  awaiting : Option (BitVec 40 × Nat)
  lastSnap : Option Nat
  absent : Bool
  diffFail : Bool
  cmpSec : Nat
  deriving DecidableEq, Repr

/-- A primacy request that is due at a boundary (R432). -/
structure PairDue where
  claim : Bool
  term : Word
  epoch : BitVec 40
  deriving DecidableEq, Repr

/-- Pair logic beside DEVCTL's registers (17_scale_out): frames handed over and not yet read, the request due, the last
valid heartbeat of this epoch and of the one that ended (claim, term, node), the epochs of the last heartbeat sent and
of the last primacy update, and whether MISSED has just reached HB_MISS. -/
structure Pair where
  inbox : List Bytes
  due : Option PairDue
  got : Option (Bool × Word × BitVec 16)
  ended : Option (Bool × Word × BitVec 16)
  sentEpoch : Option (BitVec 40)
  updated : Option (BitVec 40)
  lostOwed : Bool
  deriving DecidableEq, Repr

/-! ### Outputs -/

/-- What the device emits, in order. -/
inductive Out where
  | eth (port : Nat) (frame : Bytes)
  | hostWrite (addr : Nat) (data : Bytes) (poisoned : Bool)
  | hostRead (tag addr len : Nat)
  | completion (data : Bytes) (poisoned : Bool)
  | intx (assert : Bool)
  | avs (mv : Nat)
  | indicator (frame : Bytes)
  | unsupported (req : BadReq)
  | errMsg (level : Nat)
  | ltr (snoopNs noSnoopNs : Nat)
  deriving DecidableEq, Repr

/-! ### The state -/

/-- The YX96. -/
structure State where
  pending : List Instr
  fuses : Fuses
  power : Power
  regs : SMap Word
  live : List LiveWrite
  clock : Clock
  sync : Sync
  ple : Ple
  scx : SMap Scx
  cpm : Cpm
  dec : SMap (Option DecJob)
  lns : SMap (Option LnsJob)
  tiles : SMap Tile
  fabric : Fabric
  egr : Egr
  dram : Dram
  pep : Pep
  stw : Stw
  mbx : SMap Mbx
  erc : Erc
  meter : Meter
  met : Met
  pair : Pair
  out : List Out
  rdata : Word
  fresh : Nat
  deriving DecidableEq, Repr

/-- The fuses of the part that `State.reset` describes: a full YX96-A (log 3). -/
def Fuses.yx96a : Fuses :=
  { part := 0x0096, grade := 1, stepMaj := 1, stepMin := 0, retired := [], revoked := 0, keyHash0 := 0, keyHash1 := 0,
    serial := 0, meterKeyHash := 0, avsVolt := 750 }

/-- No source heard (R112). -/
def RtpStats.none : RtpStats :=
  { base := 0, high := 0, received := 0, expPrior := 0, recPrior := 0, jitter16 := 0, transit := Option.none, lsr := 0,
    lsrTime := 0 }

/-- A context that is FREE and was never used (R94, Table 3.9). -/
def Scx.free : Scx :=
  { bucket := 0, latched := false, next := none, held := [], lossNext := false, asm := none, waitRa := false,
    anchored := false, prev := none, aus := [], lastPli := none, lastRr := 0, gaps := [], rtcp := none,
    stats := RtpStats.none, seen := [], history := [] }

/-- A tile that runs nothing. -/
def Tile.idle : Tile :=
  { store := [], vreg := [], prog := none, qMatrix := [], qVector := [], qXfer := [], qFabric := [], waitCtr := none,
    emitting := false, vPrev := none, retrying := [], repeated := false, overCounted := false, inj := none,
    flagEpoch := none, swappedOut := false, decayed := none }

/-- A controller right after POR_N rises (R337, R459): its channels are not initialised yet. -/
def Dmc.cold : Dmc :=
  { initDone := false, badRanks := [], wq := [], rq := [], owed := [], since := 0, openRow := [], hammer := [],
    chanBeats := [], portBeats := [], streakChan := 0, streakCtl := 0, migTime := 0,
    thresh := 2048, hours := 24, prio := 0x8F6B6F, age := 2000 }

/-- A free mailbox (R377). -/
def Mbx.free : Mbx := { owner := 0, lastWrite := 0, result := none }

/-- A PTP instance that has heard nothing (R44); PRESUMED: the sync interval of IEEE 802.1AS is 125 ms until a Sync message
carries another (log 62). -/
def PtpPort.quiet : PtpPort :=
  { gm := none, valid := false, last := 0, interval := 125000000, syncRx := none, reqSeq := 0, reqTx := none, resp := none, delay := 0 }

/-- A quadrature channel at rest (R408; log 9). -/
def QuadChan.rest : QuadChan := { ab := 0, seqErr := 0, zCount := 0, zBad := 0, zSeen := false }

/-- The settings of a sink at reset (Table 11.6). -/
def SinkSet.reset : SinkSet :=
  { cfg := 1500, l4 := 0, phy := 0, dmacLo := 0, dip := [0, 0, 0, 0], sip := [0, 0, 0, 0],
    streams := [0, 0, 0, 0, 0, 0, 0, 0], ip := 0x4000 }

/-- A physical row at reset: the gap at column 8, or at the column retired at manufacture (R275, R279). -/
def RepairRow.ofFuses (f : Fuses) (r : Nat) : RepairRow :=
  match f.retired.find? (fun t => t / 9 == r) with
  | some t => { gap := t % 9, spareFree := false, factory := true, blocked := false }
  | none => { gap := 8, spareFree := true, factory := false, blocked := false }

/-- TMU's clock at reset: PERIOD_NS 33,333,333 is the rate until TMU runs (Table 2.11; log 4). -/
def Clock.reset : Clock :=
  { time := 0, up := 0, epoch := 0, phase := 0, epochStart := 0, rate := 0x01FCA055, waiting := false, slew := 0,
    lastEdge := none, sinceEdge := 0, replayTarget := 0, ppsUntil := none, ppsLast := 0,
    trigCfg := [(0, 0x800), (0, 0x800), (0, 0x800), (0, 0x800)], trigEnd := [none, none, none, none], refilled := 0,
    holdHist := [] }

/-- The meter die as the model's run begins (R407: it is never reset with the core die; log 9). -/
def Meter.begin : Meter :=
  { distance := 0, speed := 0, time := 0, motion := 0, timeValid := false, paramVer := 0, fwVer := 0, sealCnt := 0,
    backlog := 0, residue := 0,
    params := { k0 := 125000, ppr0 := 0, k1 := 0, ppr1 := 0, cross := 1, xtalTrim := 0 },
    newParams := none, newKey := none, newImage := none, key := none,
    image := some { ver := 0, data := [] }, prevImage := none, running := true, recent := [],
    slice := 0, ch0 := QuadChan.rest, ch1 := QuadChan.rest, cross := [], fault := false, clean := 0,
    sealOpen := false, battery := false, stopped := false, frameCtr := 0, lastAdj := none, latched := none }

/-- What the host has programmed, after a reset: BAR2 of 8 GiB (Table 13.1); AER masks and severities as PCIe gives them
(log 8). -/
def HostCfg.reset : HostCfg :=
  { ctoCode := 0, mps := 0, l1En := false, l11En := false, l12En := false, l0pEn := false, ltrEn := false, l12Threshold := 0,
    bar2Log2 := 33, aerUncMask := 0x00400000, aerUncSev := 0x00462010, aerCorMask := 0x00006000 }

/-- Configuration space after a fundamental reset (PRESUMED: PCIe defaults, log 8; BAR2 8 GiB by Table 13.1). -/
def CfgSpace.reset : CfgSpace :=
  { busMaster := false, intDisable := false, prog := HostCfg.reset, d3hot := false, aerUnc := 0, aerCor := 0 }

/-- The core die and its surroundings right after a cold reset, for given fuses, flash and meter die (R445). The
straps are those sampled; registers are at their reset values, so none is listed. -/
def State.cold (f : Fuses) (straps : BitVec 2) (flash : SMap Byte) (svn : BitVec 8) (m : Meter) : State :=
  { pending := [], fuses := f,
    power := { core := .running, faulted := false, straps := straps, pwrFaultN := true, thermN := true,
               ppsOut := false, trigOut := 0, strobe := false, warm := false },
    regs := [], live := [], clock := Clock.reset,
    sync := { inbox := [], main := PtpPort.quiet, alt := PtpPort.quiet, onAlt := false },
    ple := { loading := none, checking := none, plan := none, next := none, wins := [], badCopies := [], stale := [] },
    scx := [],
    cpm := { alloc := [], free := [], fresh := 0, bufs := [], req := none, freeHi := 0, asked := [], walking := [] },
    dec := [], lns := [], tiles := [],
    fabric := { beats := [], rows := (List.range 8).map (RepairRow.ofFuses f), autoFrom := none },
    egr := { store := [], dropBefore := [], sinks := [] },
    dram := { cells := [], poison := [], faults := [], held := [], seed := 0, na := 16, beat := [], beatPoison := false,
              beatFor := none, ctl := [] },
    pep := { attempt := 0, cfg := CfgSpace.reset, inta := false, reads := [], nextTag := 0, fences := [],
             fenceOwed := [], idxOwed := [], uploads := [] },
    stw := { sram := [], flash := flash, svn := svn, asleep := false, image := none,
             hostTry := none, hostFailed := false, trySlot := 0, sealing := false, retired := [],
             followOn := false, fwLog := [] },
    mbx := [],
    erc := { pending := [], fatalPend := [], fatalCount := 0, logLost := false, dump := none, reset := false },
    meter := m,
    met := { line := [], newest := none, slots := [], awaiting := none, lastSnap := none, absent := false, diffFail := false, cmpSec := 0 },
    pair := { inbox := [], due := none, got := none, ended := none, sentEpoch := none, updated := none, lostOwed := false },
    out := [], rdata := 0, fresh := 0 }

/-- The machine right after reset: a YX96-A at the rise of POR_N with strap BOOT_SRC 0 and nothing commanded (R445; log 3). -/
def State.reset : State := State.cold Fuses.yx96a 0 [] 0 Meter.begin

/-- The reasons a command can stop the model with a fault. -/
inductive Fault where
  /-- Raised by a command that names an instance, a port or a sink beyond those of Table 1.1 or Table 11.6: the manual
  has no such unit, so there is nothing that could act. Safe: the model stops where the hardware has nothing. -/
  | noSuchInstance
  deriving DecidableEq, Repr

/-- The reasons a command is refused. -/
inductive Refusal where
  /-- Raised by an arm of `exec` whose command has no meaning yet. Safe: the model stops. -/
  | notModelled (mnemonic : String)
  deriving DecidableEq, Repr

end Sys2Proof.Machine
end

