-- ==== Sys2Proof/Machine/Ops.lean ====
section
/-!
DEFINITION. The shared operations over the state: reading and writing registers, run states (R20), error events
(R17 to R19), flagging a tile (R272), free values, outputs, and the units that a part provides (R4).
-/
namespace Sys2Proof.Machine

/-! ### Registers -/

/-- The value a register holds. -/
def State.reg (s : State) (a : Nat) : Word := s.regs.get resetOf a

/-- Write a register's home. -/
def State.setReg (s : State) (a : Nat) (v : Word) : State := { s with regs := s.regs.set resetOf a v }

/-- Field [hi:lo] of a register. -/
def State.rfld (s : State) (a hi lo : Nat) : Nat := fld (s.reg a) hi lo

/-- Bit `n` of a register. -/
def State.rbit (s : State) (a n : Nat) : Bool := tst (s.reg a) n

/-- Write field [hi:lo] of a register. -/
def State.setFld (s : State) (a hi lo v : Nat) : State := s.setReg a (putBits (s.reg a) hi lo v)

/-- Set bit `n` of a register. -/
def State.setBit (s : State) (a n : Nat) : State := s.setReg a (s.reg a ||| bit1 n)

/-- Clear bit `n` of a register. -/
def State.clrBit (s : State) (a n : Nat) : State := s.setReg a (s.reg a &&& ~~~ bit1 n)

/-- Add `n` to a wrapping 32-bit counter. -/
def State.incW (s : State) (a : Nat) (n : Nat := 1) : State := s.setReg a (addWrap (s.reg a) n)

/-- Add `n` to a saturating 32-bit counter. -/
def State.incS (s : State) (a : Nat) (n : Nat := 1) : State := s.setReg a (addSat (s.reg a) n)

/-- Add 1 to a saturating counter held in [31:16] of a register. -/
def State.incHi (s : State) (a : Nat) : State := s.setFld a 31 16 (min 0xFFFF (s.rfld a 31 16 + 1))

/-- Write a number as a whole register. -/
def State.setNum (s : State) (a n : Nat) : State := s.setReg a (BitVec.ofNat 32 n)

/-- A 64-bit value held in two registers, low word first. -/
def State.reg64 (s : State) (lo hi : Nat) : Nat := (s.reg lo).toNat + 2 ^ 32 * (s.reg hi).toNat

/-- Write a 64-bit value into two registers. -/
def State.setReg64 (s : State) (lo hi n : Nat) : State := (s.setNum lo n).setNum hi (n / 2 ^ 32)

/-! ### Outputs, read data, free values -/

/-- The device emits something. -/
def State.emit (s : State) (o : Out) : State := { s with out := s.out ++ [o] }

/-- What a read returned. -/
def State.answer (s : State) (w : Word) : State := { s with rdata := w }

/-- The free value of `w` bits that the counter names (log 5). -/
def State.freeBits (s : State) (w : Nat) : BitVec w := Config.freeBits w s.fresh

/-- Move the counter on, so that the next free value is another one (log 5). -/
def State.drawn (s : State) : State := { s with fresh := s.fresh + 1 }

/-! ### What the part provides (R4, Table 0.2) -/

/-- Enabled tile rows. -/
def Fuses.rows (f : Fuses) : Nat := if f.part = 0x48 then 6 else if f.part = 0x32 then 4 else 8

/-- Instances of a block that the part provides (Table 0.2). -/
def Fuses.units (f : Fuses) (b : Blk) : Nat :=
  match b with
  | .tile => 9 * f.rows
  | .dec => 3 * f.rows
  | .lns => f.rows
  | .scx => 32 * f.rows
  | .devctl | .sec | .tmu | .ple | .erc | .mbx | .pep | .nix | .ing | .egr | .cpm | .dmc | .pfb | .met | .stw => b.count

/-- The part provides this instance. -/
def State.has (s : State) (u : Inst) : Bool := decide (u.idx < s.fuses.units u.blk)

/-- D grade (Table 1.6, IDENT.GRADE). -/
def State.gradeD (s : State) : Bool := s.fuses.grade == 2

/-! ### Run states (Table 1.3) -/

/-- PG_STATE.STATE: 0 STOPPED, 1 RUNNING, 2 STOPPING, 3 FAULTED, 4 RETIRED. A tile retired at manufacture reads
RETIRED from cold reset (R279). -/
def State.runState (s : State) (u : Inst) : Nat :=
  if u.blk = .tile ∧ s.fuses.retired.contains u.idx then 4 else s.rfld (pgState u) 2 0

/-- The instance is RUNNING. -/
def State.running (s : State) (u : Inst) : Bool := s.runState u == 1

/-- Write PG_STATE. -/
def State.setRun (s : State) (u : Inst) (n : Nat) : State := s.setNum (pgState u) n

/-- TMU. -/
abbrev U.tmu : Inst := ⟨.tmu, 0⟩
/-- PLE. -/
abbrev U.ple : Inst := ⟨.ple, 0⟩
/-- ING. -/
abbrev U.ing : Inst := ⟨.ing, 0⟩
/-- CPM. -/
abbrev U.cpm : Inst := ⟨.cpm, 0⟩
/-- EGR. -/
abbrev U.egr : Inst := ⟨.egr, 0⟩
/-- PFB. -/
abbrev U.pfb : Inst := ⟨.pfb, 0⟩
/-- PEP. -/
abbrev U.pep : Inst := ⟨.pep, 0⟩
/-- ERC. -/
abbrev U.erc : Inst := ⟨.erc, 0⟩
/-- SEC. -/
abbrev U.sec : Inst := ⟨.sec, 0⟩
/-- STW. -/
abbrev U.stw : Inst := ⟨.stw, 0⟩
/-- MET. -/
abbrev U.met : Inst := ⟨.met, 0⟩
/-- DEVCTL. -/
abbrev U.devctl : Inst := ⟨.devctl, 0⟩
/-- NIX[n]. -/
abbrev U.nix (n : Nat) : Inst := ⟨.nix, n⟩
/-- SCX[n]. -/
abbrev U.scx (n : Nat) : Inst := ⟨.scx, n⟩
/-- DEC[n]. -/
abbrev U.dec (n : Nat) : Inst := ⟨.dec, n⟩
/-- LNS[n]. -/
abbrev U.lns (n : Nat) : Inst := ⟨.lns, n⟩
/-- DMC[n]. -/
abbrev U.dmc (n : Nat) : Inst := ⟨.dmc, n⟩
/-- TILE by linear index. -/
abbrev U.tile (n : Nat) : Inst := ⟨.tile, n⟩
/-- MBX[n]. -/
abbrev U.mbx (n : Nat) : Inst := ⟨.mbx, n⟩

/-! ### SEAL and the modes it fixes (R370) -/

/-- SEAL is set. -/
def State.isSealed (s : State) : Bool := s.rbit Reg.SEC.SEAL_STATUS 31

/-- Host-loss mode ALLONES (Table 14.7, MODE_CFG.HOSTLOSS). -/
def State.allOnes (s : State) : Bool := s.rbit Reg.SEC.MODE_CFG 2

/-- SPLIT mailbox mode (Table 14.7, MODE_CFG.MBX_MODE 0). -/
def State.split (s : State) : Bool := !s.rbit Reg.SEC.MODE_CFG 1

/-! ### Stream contexts, per-unit records -/

/-- What SCX[n] holds beside its registers. -/
def State.scxOf (s : State) (n : Nat) : Scx := s.scx.get (fun _ => Scx.free) n

/-- Change it. -/
def State.setScx (s : State) (n : Nat) (x : Scx) : State := { s with scx := s.scx.set (fun _ => Scx.free) n x }

/-- SCX STATE.STATE: 0 FREE, 1 ADMITTED, 2 ACTIVE, 3 HELD, 4 DRAINING (Table 3.9). -/
def State.streamState (s : State) (n : Nat) : Nat := s.rfld (Reg.SCX.STATE n) 2 0

/-- Some stream context is in a state other than FREE. -/
def State.streamsInUse (s : State) : Bool := (List.range 256).any fun n => s.streamState n != 0

/-- What a tile holds beside its registers. -/
def State.tileOf (s : State) (t : Nat) : Tile := s.tiles.get (fun _ => Tile.idle) t

/-- Change it. -/
def State.setTile (s : State) (t : Nat) (x : Tile) : State := { s with tiles := s.tiles.set (fun _ => Tile.idle) t x }

/-- What a controller holds beside its registers. -/
def State.dmcOf (s : State) (c : Nat) : Dmc := s.dram.ctl.get (fun _ => Dmc.cold) c

/-- Change it. -/
def State.setDmc (s : State) (c : Nat) (x : Dmc) : State :=
  { s with dram := { s.dram with ctl := s.dram.ctl.set (fun _ => Dmc.cold) c x } }

/-- The job of a decode core. -/
def State.decOf (s : State) (n : Nat) : Option DecJob := s.dec.get (fun _ => none) n

/-- Change it. -/
def State.setDec (s : State) (n : Nat) (x : Option DecJob) : State := { s with dec := s.dec.set (fun _ => none) n x }

/-- The job of a lens engine. -/
def State.lnsOf (s : State) (n : Nat) : Option LnsJob := s.lns.get (fun _ => none) n

/-- Change it. -/
def State.setLns (s : State) (n : Nat) (x : Option LnsJob) : State := { s with lns := s.lns.set (fun _ => none) n x }

/-- What a mailbox holds beside its registers. -/
def State.mbxOf (s : State) (n : Nat) : Mbx := s.mbx.get (fun _ => Mbx.free) n

/-- Change it. -/
def State.setMbx (s : State) (n : Nat) (x : Mbx) : State := { s with mbx := s.mbx.set (fun _ => Mbx.free) n x }

/-- The window run that does not exist. -/
def WinRun.waiting : WinRun :=
  { st := .waiting, blocked := false, closing := .waiting, fireAt := none, closeAt := none, fireTime := 0, flags := 0,
    retries := 0, permille := 0, left := [], failed := false, au := none, pic := none, objs := none, handed := false }

/-- A window that does not exist in this epoch counts as CLOSED, and closed in no state of Table 2.4 (log 21). -/
def WinRun.absent : WinRun := { WinRun.waiting with st := .closed }

/-- The run of window `w` in the epoch in progress. -/
def State.win (s : State) (w : Nat) : WinRun := s.ple.wins.get (fun _ => WinRun.absent) w

/-- Change it. -/
def State.setWin (s : State) (w : Nat) (x : WinRun) : State :=
  { s with ple := { s.ple with wins := s.ple.wins.set (fun _ => WinRun.absent) w x } }

/-- The window's entry in the plan in effect. -/
def State.planWin (s : State) (w : Nat) : Option PlanWindow := s.ple.plan.bind fun p => p.windows[w]?

/-! ### Logical tiles (R275) -/

/-- REPAIR_MAP of a row. -/
def State.row (s : State) (r : Nat) : RepairRow :=
  s.fabric.rows.getD r { gap := 8, spareFree := false, factory := false, blocked := false }

/-- The physical tile of logical tile L[n]: TILE[r, i] below the gap, TILE[r, i + 1] from it on. -/
def State.physTile (s : State) (n : Nat) : Nat :=
  let r := n / 8
  let i := n % 8
  9 * r + (if i < (s.row r).gap then i else i + 1)

/-- The logical tile that a physical tile serves; the gap tile serves none. -/
def State.logTile (s : State) (t : Nat) : Option Nat :=
  let r := t / 9
  let c := t % 9
  let g := (s.row r).gap
  if c = g then none else some (8 * r + (if c < g then c else c - 1))

/-- The unit instances a window entry names, by its KIND (Table 2.3). -/
def State.unitsOf (s : State) (w : PlanWindow) : List Inst :=
  match w.kind with
  | 0 => (maskList w.decs 24).map U.dec
  | 1 => (maskList w.lns 8).map U.lns
  | 2 => (maskList w.tiles 64).map fun n => U.tile (s.physTile n)
  | _ => []

/-- The instances that must be RUNNING for a window: the named units, and PFB when it names tiles (R27, R261). -/
def State.needs (s : State) (w : PlanWindow) : List Inst :=
  s.unitsOf w ++ (if w.kind = 2 then [U.pfb] else [])

/-- A window run has started and has neither ended nor been forced closed (Tables 1.3 and 2.4). -/
def WinRun.atWork (r : WinRun) : Bool := r.st == .fired

/-- The instance serves a window at this moment (Table 1.3). -/
def State.serving (s : State) (u : Inst) : Bool :=
  match s.ple.plan with
  | none => false
  | some p => (List.range p.windows.length).any fun w =>
      (s.win w).atWork && (match p.windows[w]? with | some e => (s.needs e).contains u | none => false)

/-- The plan in effect names the instance in some window, and PLE is not STOPPED (R29). -/
def State.servesWindows (s : State) (u : Inst) : Bool :=
  s.runState U.ple != 0 &&
  match s.ple.plan with
  | none => false
  | some p => p.windows.any fun e => (s.needs e).contains u

/-! ### Error events (R17 to R19, R386) -/

/-- Where an event belongs: a window and its stream, when it is tied to one (Table 15.2). -/
abbrev EvWin := Option (BitVec 12 × BitVec 8)

/-- Add a report to those that wait in their instances: at most one per bit, with a saturating count (R386). -/
def addReport (l : List Report) (r : Report) : List Report :=
  if l.any (fun q => q.unit = r.unit ∧ q.bit = r.bit) then
    l.map fun q => if q.unit = r.unit ∧ q.bit = r.bit then
        { q with count := min 65535 (q.count + r.count), cls := Nat.max q.cls r.cls, inj := q.inj || r.inj,
                 fatal := q.fatal || r.fatal }
      else q
  else l ++ [r]

/-- The fatal set of R384. -/
def State.inFatalSet (s : State) (u : Inst) : Bool :=
  match u.blk with
  | .ple | .tmu | .pfb | .egr | .erc | .sec | .pep => true
  | .dmc => s.isSealed
  | .devctl | .mbx | .nix | .ing | .cpm | .scx | .dec | .lns | .tile | .met | .stw => false

/-- Class of an event that takes no instance to FAULTED (Table 15.1): 3 FATAL, 2 FAULT, 0 CORRECTED, 1 EVENT. LOCKSTEP of
PLE is FATAL whatever PLE's run state. -/
def eventClass (u : Inst) (bit : Nat) : Nat :=
  if u.blk == .ple && bit == 8 then 3
  else if (u.blk == .tile && (bit == 15 || bit == 16)) || (u.blk == .dmc && (bit == 9 || bit == 11 || bit == 13)) ||
      (u.blk == .stw && (bit == 8 || bit == 9)) then 2
  else if bit == 2 || (u.blk == .dmc && (bit == 8 || bit == 10)) then 0
  else 1

/-- The directory entry index of an instance (R33): entries in ascending order of base address, fused-off units left out. -/
def State.dirIndex (s : State) (u : Inst) : Nat :=
  let below (b : Blk) (n : Nat) : Nat := min n (s.fuses.units b)
  let nd := s.fuses.units .dec
  let nl := s.fuses.units .lns
  let nx := s.fuses.units .scx
  let nt := s.fuses.units .tile
  match u.blk with
  | .devctl => 0 | .sec => 1 | .tmu => 2 | .ple => 3 | .erc => 4
  | .mbx => if u.idx < 16 then 5 + u.idx else 6 + u.idx
  | .pep => 21
  | .nix => if u.idx < 8 then 38 + u.idx else 39 + u.idx
  | .ing => 46 | .egr => 51 | .cpm => 52
  | .scx => 53 + below .scx u.idx
  | .dec => 53 + nx + below .dec u.idx
  | .lns => 53 + nx + nd + below .lns u.idx
  | .dmc => 53 + nx + nd + nl + u.idx
  | .tile => 69 + nx + nd + nl + below .tile u.idx
  | .pfb => 69 + nx + nd + nl + nt
  | .met => 70 + nx + nd + nl + nt
  | .stw => 71 + nx + nd + nl + nt

/-- ERC SUMMARY bit of an instance (Table 15.9). -/
def State.markSummary (s : State) (u : Inst) : State :=
  let i := s.dirIndex u
  s.setBit (Reg.ERC.SUMMARY (i / 32)) (i % 32)

/-- PG_ERR, PG_FIRST_ERR and PG_ERR_CNT of an event, whatever PG_ERR_EN holds (R17). -/
def State.markErr (s : State) (u : Inst) (bit : Nat) : State :=
  let s1 := if s.rbit (pgFirst u) 31 then s else s.setNum (pgFirst u) (2 ^ 31 + bit)
  (s1.setBit (pgErr u) bit).incS (pgErrCnt u)

/-- Queue a report in its instance. -/
def State.queueReport (s : State) (u : Inst) (bit cls : Nat) (win : EvWin) (inj fatal : Bool) : State :=
  { s with erc := { s.erc with pending := addReport s.erc.pending <|
      { unit := u, bit := bit, cls := cls, count := 1, inj := inj, fatal := fatal, win := win, time := s.clock.time,
        epoch := s.clock.epoch, phase := s.clock.phase } } }

/-- The report of an event to ERC, when PG_ERR_EN forwards it (R17); ERC's own events only set its SUMMARY bit (R388). -/
def State.report (s : State) (u : Inst) (bit cls : Nat) (win : EvWin) (inj : Bool) : State :=
  if u.blk = .erc then s.markSummary u
  else if s.rbit (pgErrEn u) bit then s.queueReport u bit cls win inj false
  else s

/-- One event of a PG_ERR bit, without a change of run state. -/
def State.event (s : State) (u : Inst) (bit : Nat) (win : EvWin := none) (inj : Bool := false) : State :=
  (s.markErr u bit).report u bit (eventClass u bit) win inj

/-- Flag a tile (R272): the first cause stands, with its phase and epoch; every flagging sets PG_ERR.SUSPECT. -/
def State.flagTile (s : State) (t cause : Nat) (inj : Bool := false) : State :=
  let s := s.event (U.tile t) 16 none inj
  if s.rbit (Reg.TILE.SUSPECT t) 31 then s
  else
    let s := s.setNum (Reg.TILE.SUSPECT t) (2 ^ 31 + cause * 2 ^ 28 + s.clock.phase.toNat)
    let s := s.setNum (Reg.TILE.SUSPECT_EPOCH t) s.clock.epoch.toNat
    s.setTile t { s.tileOf t with flagEpoch := some s.clock.epoch }

/-- The PG_ERR bit of a fatal error (R385): that of PG_FIRST_ERR, or 3 when it holds none. -/
def State.fatalBitOf (s : State) (u : Inst) : Nat := if s.rbit (pgFirst u) 31 then s.rfld (pgFirst u) 7 0 else 3

/-- ERC detects a fatal error from the run state itself, whatever PG_ERR_EN holds (R385). -/
def State.noteFatal (s : State) (u : Inst) (inj : Bool) : State :=
  s.queueReport u (s.fatalBitOf u) 3 none inj true

/-- A port leaves RUNNING (R91): its link goes DOWN and the ladder stops, with no LINK_DOWN event. -/
def State.portStops (s : State) (n : Nat) : State := s.setFld (Reg.NIX.LINK_STATUS n) 2 0 0

/-- An instance enters FAULTED (Table 1.3), with what its chapter says of it: a tile is flagged (R272), a port's link
goes DOWN (R91), TMU drives PPS_OUT low (R46), ERC's log becomes unreliable (R388). -/
def State.enterFaulted (s : State) (u : Inst) (inj : Bool) : State :=
  let s := s.setRun u 3
  let s := if s.inFatalSet u then s.noteFatal u inj else s
  match u.blk with
  | .tile => s.flagTile u.idx 3 inj
  | .nix => s.portStops u.idx
  | .tmu => { s with power := { s.power with ppsOut := false }, clock := { s.clock with ppsUntil := none } }
  | .erc => { s with erc := { s.erc with logLost := true } }
  | .devctl | .sec | .ple | .mbx | .pep | .ing | .egr | .cpm | .scx | .dec | .lns | .dmc | .pfb | .met | .stw => s

/-- The bits that take an instance to FAULTED: ECC_UNCORR of any block, LOCKSTEP of PLE (R20, R84). -/
def fatalBit (u : Inst) (bit : Nat) : Bool := bit == 3 || (u.blk == .ple && bit == 8)

/-- One error event of bit `bit` of instance `u`, with its change of run state (R17, R19, R20). The report of an event
that ERC detects as a fatal error is that detection's (R385). -/
def State.raise (s : State) (u : Inst) (bit : Nat) (win : EvWin := none) (inj : Bool := false) : State :=
  if fatalBit u bit ∧ s.runState u < 3 then
    let s := (s.markErr u bit).enterFaulted u inj
    if s.inFatalSet u then (if s.fatalBitOf u = bit then s else s.report u bit 3 win inj) else s.report u bit 2 win inj
  else s.event u bit win inj

/-- PG_ERR.PROTOCOL. -/
def State.protocol (s : State) (u : Inst) : State := s.raise u 4

/-- PG_ERR.ACCESS. -/
def State.access (s : State) (u : Inst) : State := s.raise u 1

/-! ### Outcomes -/

/-- What a command answers. -/
abbrev Res := Host.Outcome State Fault Refusal

/-- A command of the core die acts only while the core die runs: in reset, or without power, nothing of it happens
(R442, R445; log 6). -/
def onCore (s : State) (f : State → State) : Res :=
  if s.power.core = .running then .next (f s) else .next s

/-- The effect of `f` where the condition holds, and nothing otherwise: an event that is not due, or not enabled,
does not happen (log 2). -/
def State.when (s : State) (c : Bool) (f : State → State) : State := if c then f s else s

/-- An event inside a unit: an instance number beyond Table 1.1 names nothing, and in a unit that the part does not
provide nothing happens (R4). -/
def onUnit (s : State) (u : Inst) (f : State → State) : Res :=
  if !u.ok then .fault .noSuchInstance else onCore s fun s => s.when (s.has u) f

/-- The first access to an uncovered address is recorded (R14). -/
def State.noteUnmapped (s : State) (a : Nat) : State :=
  s.when (!s.rbit Reg.DEVCTL.UNMAPPED_ADDR 31) fun s => s.setNum Reg.DEVCTL.UNMAPPED_ADDR (2 ^ 31 + a % 2 ^ 28 / 4 * 4)

/-- A BAR0 write: during a warm reset it is ignored (R39). -/
def onBus (s : State) (f : State → State) : Res := onCore s fun s => s.when (!s.power.warm) f

/-- A BAR0 write to register `a` of an instance (R4, R14, R24, R39): an absent instance is an uncovered address, and a
RETIRED one ignores it. -/
def onReg (s : State) (u : Inst) (a : Nat) (f : State → State) : Res :=
  if !u.ok then .fault .noSuchInstance
  else onBus s fun s => if !s.has u then s.noteUnmapped a else s.when (s.runState u != 4) f

/-! ### The layout of the pool region (R117) -/

/-- REGION_CELLS. -/
def State.poolCells (s : State) : Nat := s.rfld Reg.CPM.REGION_CELLS 24 0

/-- CLASS_COUNT[k]. -/
def State.classCount (s : State) (k : Nat) : Nat := s.rfld (Reg.CPM.CLASS_COUNT k) 12 0

/-- Cells of one buffer of class k: 2 KiB, 16 KiB, 128 KiB, 1 MiB. -/
def classCells (k : Nat) : Nat := 8 * 8 ^ k

/-- First cell of class k: the larger classes come first (R117). -/
def State.classStart (s : State) (k : Nat) : Nat :=
  (List.range (3 - k)).foldl (fun a i => a + s.classCount (3 - i) * classCells (3 - i)) 0

/-- Index of the first chain cell. -/
def State.chainStart (s : State) : Nat := s.classStart 0 + s.classCount 0 * classCells 0

/-- CHAIN_CELLS (R117). -/
def State.chainCells (s : State) : Nat := s.poolCells - s.chainStart

end Sys2Proof.Machine
end

