-- ==== Sys2Proof/Machine/TileMem.lean ====
section
/-!
DEFINITION. The 4 MiB store of a tile (R238) as bytes and little-endian words.
-/
namespace Sys2Proof.Machine

/-- What a byte of tile store reads as that nothing has written (log 7). -/
def tile0 : Nat → Byte := fun _ => 0

/-- Bytes of a tile's store. -/
def storeSize : Nat := 0x400000

/-- Read `n` bytes of a tile's store. -/
def Tile.rd (x : Tile) (a n : Nat) : Bytes := x.store.getRange tile0 a n

/-- Write bytes of a tile's store. -/
def Tile.wr (x : Tile) (a : Nat) (d : Bytes) : Tile := { x with store := x.store.setRange tile0 a d }

/-- Read a little-endian word of a tile's store. -/
def Tile.rdW (x : Tile) (a : Nat) : Word := BitVec.ofNat 32 (leNat (x.rd a 4))

/-- Read bytes of tile t. -/
def State.tileRd (s : State) (t a n : Nat) : Bytes := (s.tileOf t).rd a n

/-- Write bytes of tile t. -/
def State.tileWr (s : State) (t a : Nat) (d : Bytes) : State := s.setTile t ((s.tileOf t).wr a d)

end Sys2Proof.Machine
end

