-- ==== Sys2Proof/Machine/ArrayOps.lean ====
section
/-!
DEFINITION. What a matrix operation computes (07_number_formats, 08_matrix_array, 09_tile_programs): its descriptors and
their checks, the shape of its passes, and every output element through prologue, array and epilogue.
-/
namespace Sys2Proof.Machine

/-! ### Descriptors (Tables 9.4 to 9.6) -/

/-- An operation descriptor. -/
structure Opd where
  mode : Nat
  stat : Nat
  fmtW : Nat
  fmtX : Nat
  fmtY : Nat
  scW : Nat
  scX : Nat
  gsize : Nat
  sfW : Nat
  sfX : Nat
  conv : Bool
  zfEn : Bool
  knEn : Bool
  proEn : Bool
  skipEn : Bool
  fuseEn : Bool
  n : Nat
  k : Nat
  m : Nat
  wTs : Nat
  xTs : Nat
  yTs : Nat
  epdTs : Nat
  swTs : Nat
  sxTs : Nat
  zfTs : Nat
  knTs : Nat
  iw : Nat
  ih : Nat
  cin : Nat
  groups : Nat
  kw : Nat
  kh : Nat
  sx : Nat
  sy : Nat
  dx : Nat
  dy : Nat
  pad : Nat
  pl : Nat
  pr : Nat
  pt : Nat
  pb : Nat
  cst : Nat
  za : Int
  prdTs : Nat
  skmTs : Nat
  fuseCtr : Nat
  fuseBase : Nat
  deriving DecidableEq, Repr, Inhabited

/-- Read it (Table 9.4). -/
def Opd.ofBytes (b : Bytes) : Opd :=
  let f (i hi lo : Nat) : Nat := bitsOf (wordAt b i) hi lo
  let t (i n : Nat) : Bool := bitOf (wordAt b i) n
  { mode := f 0 31 29, stat := f 0 28 28, fmtW := f 0 27 24, fmtX := f 0 23 20, fmtY := f 0 19 16, scW := f 0 15 14
    scX := f 0 13 12, gsize := f 0 11 10, sfW := f 0 9 8, sfX := f 0 7 6, conv := t 0 5, zfEn := t 0 4, knEn := t 0 3
    proEn := t 0 2, skipEn := t 0 1, fuseEn := t 0 0, n := f 1 31 16, k := f 2 23 0, m := f 3 23 0, wTs := f 4 31 16
    xTs := f 4 15 0, yTs := f 5 31 16, epdTs := f 5 15 0, swTs := f 6 31 16, sxTs := f 6 15 0, zfTs := f 7 31 16
    knTs := f 7 15 0, iw := f 8 31 16, ih := f 8 15 0, cin := f 9 31 16, groups := f 9 15 0, kw := f 10 31 28
    kh := f 10 27 24, sx := f 10 23 20, sy := f 10 19 16, dx := f 10 15 12, dy := f 10 11 8, pad := f 10 7 6
    pl := f 11 31 28, pr := f 11 27 24, pt := f 11 23 20, pb := f 11 19 16, cst := f 11 15 8
    za := signedN 8 (f 11 7 0), prdTs := f 12 31 16, skmTs := f 12 15 0, fuseCtr := f 13 31 28, fuseBase := f 13 23 0 }

/-- A reserved field of an operation descriptor is not zero, or a field holds a reserved value (Table 9.4, R242). -/
def opdReserved (b : Bytes) (o : Opd) : Bool :=
  let f (i hi lo : Nat) : Bool := bitsOf (wordAt b i) hi lo != 0
  f 1 15 0 || f 2 31 24 || f 3 31 24 || f 10 5 0 || f 13 27 24 || f 14 31 0 || f 15 31 0 ||
    decide (5 < o.mode ∨ 2 < o.scW ∨ 2 < o.scX ∨ 2 < o.gsize ∨ 2 < o.sfW ∨ 2 < o.sfX) ||
    (!o.conv && (f 8 31 0 || f 9 31 0 || f 10 31 0 || f 11 31 0))

/-- An epilogue descriptor (Table 9.6). -/
structure Epd where
  biasEn : Bool
  biasI32 : Bool
  act : Nat
  resEn : Bool
  resPos : Bool
  gateEn : Bool
  mulCh : Bool
  resFmt : Nat
  gateFmt : Nat
  zpOut : Int
  biasTs : Nat
  tblTs : Nat
  resTs : Nat
  gateTs : Nat
  resScale : Fv
  gateScale : Fv
  slope : Fv
  mul : Fv
  mulTs : Nat
  deriving DecidableEq, Repr, Inhabited

/-- Read it. -/
def Epd.ofBytes (b : Bytes) : Epd :=
  let f (i hi lo : Nat) : Nat := bitsOf (wordAt b i) hi lo
  let t (n : Nat) : Bool := bitOf (wordAt b 0) n
  let v (i : Nat) : Fv := ffFP32.decode (wordAt b i)
  { biasEn := t 31, biasI32 := t 30, act := f 0 29 28, resEn := t 27, resPos := t 26, gateEn := t 25, mulCh := t 24
    resFmt := f 0 23 20, gateFmt := f 0 19 16, zpOut := signedN 8 (f 0 15 8), biasTs := f 1 31 16, tblTs := f 1 15 0
    resTs := f 2 31 16, gateTs := f 2 15 0, resScale := v 3, gateScale := v 4, slope := v 5, mul := v 6, mulTs := f 7 31 16 }

/-- A reserved field of an epilogue descriptor is not zero. -/
def epdReserved (b : Bytes) : Bool :=
  bitsOf (wordAt b 0) 7 0 != 0 || bitsOf (wordAt b 7) 15 0 != 0 || (List.range 8).any fun i => wordAt b (8 + i) != 0

/-- A prologue descriptor (Table 9.5). -/
structure Prd where
  act : Nat
  norm : Nat
  aTs : Nat
  bTs : Nat
  stTs : Nat
  tblTs : Nat
  slope : Fv
  deriving DecidableEq, Repr, Inhabited

/-- Read it. -/
def Prd.ofBytes (b : Bytes) : Prd :=
  let f (i hi lo : Nat) : Nat := bitsOf (wordAt b i) hi lo
  { act := f 0 3 2, norm := f 0 1 0, aTs := f 1 31 16, bTs := f 1 15 0, stTs := f 2 31 16, tblTs := f 2 15 0
    slope := ffFP32.decode (wordAt b 3) }

/-- A reserved field of a prologue descriptor is not zero, or NORM is reserved. -/
def prdReserved (b : Bytes) : Bool :=
  bitsOf (wordAt b 0) 31 4 != 0 || bitsOf (wordAt b 0) 1 0 == 3 || (List.range 12).any fun i => wordAt b (4 + i) != 0

/-! ### Rates and dimensions (R190, R209, R213, R226 to R230) -/

/-- The cell rate of a stationary and a streaming format: 0 single, 1 double, 2 half; none outside Table 7.4. -/
def pairRate (mode st dn : Nat) : Option Nat :=
  let wide (f : Nat) : Bool := f == 0xB || f == 0xC
  if mode = 5 then (if 6 ≤ st ∧ st ≤ 9 ∧ 6 ≤ dn ∧ dn ≤ 9 then some 0 else none)
  else if st ≤ 5 ∧ dn ≤ 5 then some 1
  else if st ≤ 9 ∧ dn ≤ 9 then some 0
  else if (decide (st ≤ 9) || wide st) && (decide (dn ≤ 9) || wide dn) then some 2
  else if st = 0xA ∧ dn ≤ 9 then some 2
  else none

/-- The operation's rate. -/
def Opd.rate (o : Opd) : Option Nat := if o.stat = 0 then pairRate o.mode o.fmtX o.fmtW else pairRate o.mode o.fmtW o.fmtX

/-- Reduction depth of a pass (Table 8.1). -/
def Opd.depth (o : Opd) : Nat := if o.rate = some 1 then 128 else 64

/-- Array cycles per vector (Table 8.1). -/
def Opd.cpv (o : Opd) : Nat := if o.rate = some 2 then 2 else 1

/-- The internal format (Table 7.4). -/
def Opd.ff (o : Opd) : FF := if o.rate = some 1 then ffAIFN else ffAIF

/-- Groups. -/
def Opd.g (o : Opd) : Nat := if o.conv then max 1 o.groups else 1

/-- Input channels of a group. -/
def Opd.cg (o : Opd) : Nat := o.cin / o.g

/-- Output channels of a group. -/
def Opd.ng (o : Opd) : Nat := o.n / o.g

/-- The reduction length of a group (R228, R230). -/
def Opd.q (o : Opd) : Nat := if o.conv then o.kh * o.kw * o.cg else o.k

/-- An output dimension (Table 8.6); 0 where none is at least 1. -/
def outDim (i p r d k st : Nat) : Nat := if i + p + r < d * (k - 1) + 1 then 0 else (i + p + r - d * (k - 1) - 1) / max 1 st + 1

/-- OW. -/
def Opd.ow (o : Opd) : Nat := if o.conv then outDim o.iw o.pl o.pr o.dx o.kw o.sx else o.m

/-- OH. -/
def Opd.oh (o : Opd) : Nat := if o.conv then outDim o.ih o.pt o.pb o.dy o.kh o.sy else 1

/-- Output positions. -/
def Opd.pos (o : Opd) : Nat := o.ow * o.oh

/-- Diagonal packing (R230). -/
def Opd.diag (o : Opd) : Bool := decide (1 < o.g ∧ o.q ≤ o.depth)

/-- Groups per pack. -/
def Opd.perPack (o : Opd) : Nat := o.depth / o.q

/-- Elements of a scale group (GSIZE). -/
def Opd.gs (o : Opd) : Nat := 32 * 2 ^ o.gsize

/-- NG (R243). -/
def Opd.numGroups (o : Opd) : Nat := ceilDiv o.q o.gs

/-- A row pitch: its bytes rounded up to a multiple of 64 (R243). -/
def pitch (f n : Nat) : Nat := roundUp (fmtBytes f n) 64

/-- The scale format of a field (Table 9.4). -/
def scaleFmt (sf : Nat) : Nat := if sf = 0 then 0xF else if sf = 1 then 8 else 0xB

/-- Output blocks of 256 positions. -/
def Opd.blocks (o : Opd) : Nat := ceilDiv o.pos 256

/-! ### Checks (R240, R242; causes of Table 9.2) -/

/-- ZERO_POINT (R198, R230, R244): a zero point where the format, the mode, the scale mode, diagonal packing or the
prologue forbids one. -/
def Opd.badZero (o : Opd) (e : Epd) : Bool :=
  (o.zfEn && (o.mode != 0 || !fmtZp o.fmtW || o.diag)) ||
  (o.za != 0 && (o.mode != 0 || !fmtZp o.fmtX || o.scX == 2 || o.proEn)) ||
  (e.zpOut != 0 && (o.mode != 0 || !fmtZp o.fmtY))

/-- GEOMETRY (R227, R230, R242, R244, R254). -/
def Opd.badGeometry (o : Opd) : Bool :=
  o.n == 0 || (o.proEn && o.stat != 0) || (o.fuseEn && o.conv && o.stat == 1) ||
  (if o.conv then
    o.k != 0 || o.m != 0 || decide (o.iw < 1 ∨ 8192 < o.iw ∨ o.ih < 1 ∨ 8192 < o.ih ∨ o.groups < 1 ∨ o.cin < o.groups ∨
      o.kw < 1 ∨ o.kh < 1 ∨ o.sx < 1 ∨ 8 < o.sx ∨ o.sy < 1 ∨ 8 < o.sy ∨ o.dx < 1 ∨ 8 < o.dx ∨ o.dy < 1 ∨ 8 < o.dy ∨
      o.ow < 1 ∨ o.oh < 1 ∨ 2 ^ fmtBits o.fmtX ≤ o.cst) || o.cin % max 1 o.groups != 0 || o.n % max 1 o.groups != 0 ||
      (o.pad == 2 && decide (o.iw ≤ o.pl ∨ o.iw ≤ o.pr ∨ o.ih ≤ o.pt ∨ o.ih ≤ o.pb)) || (o.diag && o.stat != 0)
   else o.k == 0 || o.m == 0)

/-- The tile-store regions of an operation: first unit and bytes (R243 to R246). -/
def Opd.regions (o : Opd) (e : Epd) (p : Prd) : List (Nat × Nat) :=
  let y (f : Nat) : Nat := o.oh * pitch f (o.ow * o.n)
  let sc (ts mode sf rows : Nat) : List (Nat × Nat) :=
    if mode = 0 then [] else [(ts, fmtBytes (scaleFmt sf) (if mode = 2 then rows * o.numGroups else 1))]
  let opt (b : Bool) (ts n : Nat) : List (Nat × Nat) := if b then [(ts, n)] else []
  let ch := if o.conv then o.cin else o.k
  let inp := if o.conv then o.iw * o.ih else o.m
  [(o.wTs, o.n * pitch o.fmtW o.q),
   (o.xTs, if o.conv then o.ih * pitch o.fmtX (o.iw * o.cin) else o.m * pitch o.fmtX o.k), (o.yTs, y o.fmtY), (o.epdTs, 64)] ++
  sc o.swTs o.scW o.sfW o.n ++ sc o.sxTs o.scX o.sfX o.pos ++ opt o.zfEn o.zfTs (4 * o.n * o.numGroups) ++
  opt o.knEn o.knTs (4 * o.n) ++ opt o.skipEn o.skmTs (ceilDiv o.blocks 8) ++ opt o.proEn o.prdTs 64 ++
  opt (o.proEn && p.norm != 0) p.aTs (4 * ch) ++ opt (o.proEn && p.norm != 0) p.bTs (4 * ch) ++
  opt (o.proEn && p.norm == 2) p.stTs (8 * inp) ++ opt (o.proEn && p.act == 3) p.tblTs 1028 ++
  opt e.biasEn e.biasTs (4 * o.n) ++ opt (e.act == 3) e.tblTs 1028 ++ opt e.resEn e.resTs (y e.resFmt) ++
  opt e.gateEn e.gateTs (y e.gateFmt) ++ opt e.mulCh e.mulTs (4 * o.n)

/-- The cause that a matrix operation breaks, 0 for none: the lowest of Table 9.2 (log 50). -/
def mopCause (ob eb pb : Bytes) : Nat :=
  let o := Opd.ofBytes ob
  let e := Epd.ofBytes eb
  let p := Prd.ofBytes pb
  if opdReserved ob o || epdReserved eb || (o.proEn && prdReserved pb) then 2
  else if o.rate.isNone then 3
  else if o.badZero e then 4
  else if o.badGeometry then 5
  else if (o.regions e p).any fun r => decide (65536 < r.1 + ceilDiv r.2 64) then 6
  else if o.skipEn && o.stat != 0 then 9
  else 0

/-! ### Passes (R209 to R212, R215, R230) -/

/-- The output blocks that the skip bitmap does not name (R257). -/
def Opd.liveBlocks (o : Opd) (skip : List Nat) : List Nat := (List.range o.blocks).filter fun b => !skip.contains b

/-- A pass (R209): its first group, the output position (ACT) or the group's channel (WGT) of column 0, the reduction index
of row 0, the rows and columns it fills, and its vectors. -/
structure Pass where
  grp : Nat
  base : Nat
  k0 : Nat
  rows : Nat
  cols : Nat
  vecs : Nat
  deriving DecidableEq, Repr, Inhabited

/-- Blocks of up to 256 of `n` columns: the first of each, and how many it fills. -/
def columnBlocks (n : Nat) (bs : List Nat) : List (Nat × Nat) := bs.map fun b => (256 * b, min 256 (n - 256 * b))

/-- The passes of an operation, in order (R212, R230): output block by output block, and within one by increasing k0, or
by pack under diagonal packing. -/
def Opd.passes (o : Opd) (skip : List Nat) : List Pass :=
  if o.diag then
    (columnBlocks o.pos (o.liveBlocks skip)).flatMap fun c => (List.range (ceilDiv o.g o.perPack)).map fun i =>
      let n := min o.perPack (o.g - i * o.perPack)
      { grp := i * o.perPack, base := c.1, k0 := 0, rows := n * o.q, cols := c.2, vecs := n * o.ng }
  else
    let cs := if o.stat = 0 then columnBlocks o.pos (o.liveBlocks skip)
      else columnBlocks o.ng (List.range (ceilDiv o.ng 256))
    (List.range o.g).flatMap fun g => cs.flatMap fun c => (List.range (ceilDiv o.q o.depth)).map fun i =>
      { grp := g, base := c.1, k0 := i * o.depth, rows := min o.depth (o.q - i * o.depth), cols := c.2,
        vecs := if o.stat = 0 then o.ng else o.pos }

/-- Vectors streamed by passes. -/
def vectorsOf (l : List Pass) : Nat := l.foldl (fun a P => a + P.vecs) 0

/-- The first output channel of a pass's vectors (ACT) or columns (WGT). -/
def Opd.chan0 (o : Opd) (P : Pass) : Nat := P.grp * o.ng + if o.stat = 0 then 0 else P.base

/-- The channel (ACT) or position (WGT) of the vector that enters after `k` others (R254). -/
def Opd.vectorAt (o : Opd) : List Pass → Nat → Nat
  | [], k => k
  | P :: l, k => if k < P.vecs then (if o.stat = 0 then P.grp * o.ng + k else k) else o.vectorAt l (k - P.vecs)

/-- The pass of the vector that enters after `k` others. -/
def passAt : List Pass → Nat → Nat
  | [], _ => 0
  | P :: l, k => if k < P.vecs then 0 else passAt l (k - P.vecs) + 1

/-- Bubble cycles before a pass (R215), from the streaming cycles of the tile's pass before it. -/
def bubbleOf (prev : Option Nat) : Nat := match prev with | some u => 64 - u | none => 0

/-- Bubble cycles of passes in order. -/
def bubbles (cpv : Nat) : List Pass → Option Nat → Nat
  | [], _ => 0
  | P :: l, prev => bubbleOf prev + bubbles cpv l (some (P.vecs * cpv))

/-- Row pitch of the streaming operand (R254). -/
def Opd.streamPitch (o : Opd) : Nat := if o.stat = 0 then pitch o.fmtW o.q else pitch o.fmtX (if o.conv then o.iw * o.cin else o.k)

/-- The arrivals that the vector after `k` others waits for (R254). -/
def Opd.fuseNeed (o : Opd) (skip : List Nat) (k : Nat) : Nat :=
  o.fuseBase + (o.vectorAt (o.passes skip) k + 1) * o.streamPitch / 64

/-! ### Reading operands (R187, R243) -/

/-- Code `i` of a packed row of a format at a store address. -/
def Tile.code (x : Tile) (f a i : Nat) : Nat :=
  let bit := i * fmtBits f
  leNat (x.rd (a + bit / 8) 4) / 2 ^ (bit % 8) % 2 ^ fmtBits f

/-- FP32 element `i` of an array. -/
def Tile.f32At (x : Tile) (a i : Nat) : Fv := ffFP32.decode (leNat (x.rd (a + 4 * i) 4))

/-- An expanded element: one value, or the two halves of an INT16 (R192). -/
structure Elem where
  vs : List Dy
  sat : Bool
  bad : Bool
  deriving DecidableEq, Repr, Inhabited

/-- The element that fills unused rows (R195). -/
def Elem.zero : Elem := { vs := [Dy.zero], sat := false, bad := false }

/-- The sum of an element's values. -/
def Elem.sum (e : Elem) : Dy := e.vs.foldl Dy.add Dy.zero

/-- Expand a value of a format under its group's scale (R191 to R193). -/
def elemOf (ff : FF) (f : Nat) (v s : Fv) : Elem :=
  if f = 0xA then
    match s with
    | .fin _ k =>
      let i := v.dy.toInt
      let h := expandDy ff ((Dy.ofInt (i / 256 * 256)).mul k)
      let l := expandDy ff ((Dy.ofInt (i % 256)).mul k)
      { vs := [h.v, l.v], sat := h.sat || l.sat, bad := false }
    | .nan => { vs := [Dy.zero], sat := false, bad := true }
    | .inf _ => { vs := [Dy.zero], sat := false, bad := true }
  else
    let e := expand ff v s
    { vs := [e.v], sat := e.sat, bad := e.bad }

/-- One. -/
def fvOne : Fv := .fin false (Dy.ofInt 1)

/-- The scale of group k/G of row r (R194, R243). -/
def Tile.scale (x : Tile) (o : Opd) (mode ts sf r k : Nat) : Fv :=
  if mode = 0 then fvOne
  else fmtValue (scaleFmt sf) (x.code (scaleFmt sf) (64 * ts) (if mode = 1 then 0 else r * o.numGroups + k / o.gs))

/-- The weight code of channel n, reduction index k. -/
def Tile.wCode (x : Tile) (o : Opd) (n k : Nat) : Nat := x.code o.fmtW (64 * o.wTs + n * pitch o.fmtW o.q) k

/-- The weight of channel n, reduction index k, expanded. -/
def Tile.wElem (x : Tile) (o : Opd) (n k : Nat) : Elem :=
  elemOf o.ff o.fmtW (fmtValue o.fmtW (x.wCode o n k)) (x.scale o o.scW o.swTs o.sfW n k)

/-- An activation sample: its code and value, its channel, its position in the input, and whether ZERO padding
supplied it. -/
structure Samp where
  code : Nat
  v : Fv
  chan : Nat
  col : Int
  row : Int
  inside : Bool
  zero : Bool
  deriving DecidableEq, Repr, Inhabited

/-- A coordinate under the padding mode (Table 8.7); none where ZERO or CONST supplies the sample. -/
def padCoord (mode w : Nat) (v : Int) : Option Nat :=
  if 0 ≤ v ∧ v < (w : Int) then some v.toNat
  else if mode = 2 then some (if v < 0 then (-v).toNat else (2 * (w : Int) - 2 - v).toNat)
  else if mode = 3 then some (if v < 0 then 0 else w - 1)
  else none

/-- The activation sample of group g, reduction index k, position m (R228 to R230, R243). -/
def Tile.samp (x : Tile) (o : Opd) (g k m : Nat) : Samp :=
  if !o.conv then
    let c := x.code o.fmtX (64 * o.xTs + m * pitch o.fmtX o.k) k
    { code := c, v := fmtValue o.fmtX c, chan := k, col := m, row := 0, inside := true, zero := false }
  else
    let c := g * o.cg + k % o.cg
    let kx := k / o.cg % o.kw
    let ky := k / o.cg / o.kw
    let cx : Int := ((m % o.ow * o.sx + kx * o.dx : Nat) : Int) - (o.pl : Int)
    let cy : Int := ((m / o.ow * o.sy + ky * o.dy : Nat) : Int) - (o.pt : Int)
    match padCoord o.pad o.iw cx, padCoord o.pad o.ih cy with
    | some a, some b =>
      let d := x.code o.fmtX (64 * o.xTs + b * pitch o.fmtX (o.iw * o.cin)) (a * o.cin + c)
      { code := d, v := fmtValue o.fmtX d, chan := c, col := a, row := b, inside := true, zero := false }
    | _, _ =>
      if o.pad = 0 then
        { code := if fmtInt o.fmtX then wrapN (fmtBits o.fmtX) o.za else 0
          v := .fin false (Dy.ofInt (if fmtInt o.fmtX then o.za else 0)), chan := c, col := cx, row := cy, inside := false
          zero := true }
      else
        { code := o.cst, v := fmtValue o.fmtX o.cst, chan := c, col := cx, row := cy, inside := false, zero := false }

/-! ### Prologue (R244, R246) -/

/-- An activation of R246 on u: 0 NONE, 1 RELU, 2 LEAKY, 3 TABLE. -/
def Tile.activate (x : Tile) (act : Nat) (slope : Fv) (tbl : Nat) (u : Fv) : Fv :=
  match act with
  | 1 => (match u with | .nan => .nan | _ => if (Fv.fin false Dy.zero).lt u then u else .fin false Dy.zero)
  | 2 => if u.lt (.fin false Dy.zero) then (fvMul u slope).1 else u
  | 3 =>
    match u with
    | .nan => .nan
    | .inf n => if n then x.f32At (64 * tbl) 0 else u
    | .fin _ d =>
      if d.lt (Dy.ofInt (-8)) then x.f32At (64 * tbl) 0
      else if d.lt (Dy.ofInt 8) then
        let t := ffFP32.rnd ((ffFP32.rnd (d.add (Dy.ofInt 8))).mul (Dy.ofInt 16))
        let i := min (t.truncTo 0).toInt.toNat 255
        let f := t.sub (Dy.ofInt i)
        let t0 := x.f32At (64 * tbl) i
        let dt := (fvAdd (x.f32At (64 * tbl) (i + 1)) t0.neg).1
        (fvAdd t0 (fvMul (.fin false f) dt).1).1
      else u
  | _ => u

/-- μ and ρ of a sample's position (LNSTAT output, Table 9.8); free where padding supplies the sample (log 55). -/
def Tile.stats (x : Tile) (o : Opd) (p : Prd) (y : Samp) : Fv × Fv :=
  if y.inside then
    let i := y.row.toNat * o.iw + y.col.toNat
    let i := if o.conv then i else y.col.toNat
    (x.f32At (64 * p.stTs) (2 * i), x.f32At (64 * p.stTs) (2 * i + 1))
  else (f32 (Config.padStat 0 y.col y.row), f32 (Config.padStat 1 y.col y.row))

/-- The normalisation of R244. -/
def Tile.normalise (x : Tile) (o : Opd) (p : Prd) (y : Samp) (v : Fv) : Fv :=
  let a := x.f32At (64 * p.aTs) y.chan
  let b := x.f32At (64 * p.bTs) y.chan
  if p.norm = 0 then v
  else if p.norm = 1 then (fvAdd (fvMul v a).1 b).1
  else
    let st := x.stats o p y
    (fvAdd (fvMul (fvMul (fvAdd v st.1.neg).1 st.2).1 a).1 b).1

/-- A stationary element through the prologue (R244). -/
def Tile.proElem (x : Tile) (o : Opd) (p : Prd) (y : Samp) (s : Fv) : Elem :=
  if y.zero then Elem.zero
  else
    let v := match s with | .fin _ _ => (fvMul y.v s).1 | .nan => .nan | .inf _ => .nan
    match x.activate p.act p.slope p.tblTs (x.normalise o p y v) with
    | .nan => { vs := [Dy.zero], sat := false, bad := true }
    | .inf n => { vs := [(o.ff.decode (o.ff.sign n + o.ff.maxCode)).dy], sat := true, bad := false }
    | .fin _ d =>
      let r := expandDy o.ff d
      { vs := [r.v], sat := r.sat, bad := false }

/-- The activation of group g, index k, position m, expanded. -/
def Tile.xElem (x : Tile) (o : Opd) (p : Prd) (g k m : Nat) : Elem :=
  let y := x.samp o g k m
  let s := x.scale o o.scX o.sxTs o.sfX m k
  if o.proEn then x.proElem o p y s else elemOf o.ff o.fmtX y.v s

/-! ### The array (R196, R197, R211, R223 to R226) -/

/-- A bit count. -/
def popcount (n : Nat) : Nat := (List.range 8).foldl (fun a i => a + b2n (n.testBit i)) 0

/-- The cell term t(a, b) of a MODE (Table 8.5); b is the streaming value. -/
def cellTerm (mode : Nat) (a b : Dy) : Dy :=
  match mode with
  | 0 => a.mul b
  | 1 => (a.sub b).abs
  | 2 => (a.sub b).mul (a.sub b)
  | 5 => Dy.ofInt (popcount (a.toInt.toNat ^^^ b.toInt.toNat))
  | _ => a.add b

/-- The largest leading exponent of terms that are not zero. -/
def eMax : List Dy → Option Int
  | [] => none
  | t :: l =>
    let r := eMax l
    if t.m = 0 then r else match r with | some e => some (max e t.lead) | none => some t.lead

/-- A pass sum (R196): terms aligned to e_max, truncated at 2^(e_max - 40), added exactly, rounded once. -/
def passSum (l : List Dy) : Word :=
  match eMax l with
  | none => 0
  | some e => toF32 false (l.foldl (fun a t => a.add (t.truncTo (e - 40))) Dy.zero)

/-- The larger (mode 3) or smaller number. -/
def pickDy (mode : Nat) (a b : Dy) : Dy := if mode = 3 then (if a.lt b then b else a) else (if b.lt a then b else a)

/-- The extreme of terms. -/
def extreme (mode : Nat) : List Dy → Dy
  | [] => Dy.zero
  | t :: l => l.foldl (pickDy mode) t

/-- Terms combined within a pass (Table 8.5): R196's sum, the extreme rounded once, or the exact count of HAMMING. -/
def combine (mode : Nat) (ts : List Dy) : Word :=
  if mode < 3 then passSum ts
  else toF32 false (if mode = 5 then ts.foldl Dy.add Dy.zero else extreme mode ts)

/-- The raw code of HAMMING as an element (R226). -/
def rawElem (c : Nat) : Elem := { vs := [Dy.ofInt c], sat := false, bad := false }

/-- The weight of channel n, reduction index k, as the array takes it. -/
def Tile.weightIn (x : Tile) (o : Opd) (n k : Nat) : Elem := if o.mode = 5 then rawElem (x.wCode o n k) else x.wElem o n k

/-- The activation of group g, index k, position m, as the array takes it. -/
def Tile.actIn (x : Tile) (o : Opd) (p : Prd) (g k m : Nat) : Elem :=
  if o.mode = 5 then rawElem (x.samp o g k m).code else x.xElem o p g k m

/-- The stationary element a[k][j] of a pass (R211, R230). -/
def Tile.statElem (x : Tile) (o : Opd) (p : Prd) (P : Pass) (k j : Nat) : Elem :=
  if o.stat ≠ 0 then x.weightIn o (P.grp * o.ng + P.base + j) (P.k0 + k)
  else if o.diag then x.actIn o p (P.grp + k / o.q) (k % o.q) (P.base + j)
  else x.actIn o p P.grp (P.k0 + k) (P.base + j)

/-- The stationary operand of a pass: its filled rows and columns. -/
def Tile.statBlock (x : Tile) (o : Opd) (p : Prd) (P : Pass) : List (List Elem) :=
  (List.range P.rows).map fun k => (List.range P.cols).map fun j => x.statElem o p P k j

/-- The streaming vector b[k] of a pass (R211): under diagonal packing +0 in the rows of the other groups (R230; log 56). -/
def Tile.streamVec (x : Tile) (o : Opd) (p : Prd) (P : Pass) (v : Nat) : List Elem :=
  (List.range P.rows).map fun k =>
    if o.stat ≠ 0 then x.actIn o p P.grp (P.k0 + k) v
    else if !o.diag then x.weightIn o (P.grp * o.ng + v) (P.k0 + k)
    else if k / o.q = v / o.ng then x.weightIn o (P.grp * o.ng + v) (k % o.q)
    else Elem.zero

/-- Elements clipped and invalid at expansion (R193, R203). -/
def elemCounts (l : List Elem) : Nat × Nat := ((l.filter (·.sat)).length, (l.filter (·.bad)).length)

/-- The code of a stationary value in the array: that of the internal format, or the raw code. -/
def Opd.cellCode (o : Opd) (v : Dy) : BitVec 19 :=
  BitVec.ofNat 19 (if o.mode = 5 then v.toInt.toNat else (o.ff.roundSat v).1)

/-- Its value. -/
def Opd.cellValue (o : Opd) (c : BitVec 19) : Dy := if o.mode = 5 then Dy.ofInt c.toNat else (o.ff.decode c.toNat).dy

/-- The values of a stationary operand: row, column, halves. -/
def Opd.valuesOf (o : Opd) (a : Operand) : List (List (List Dy)) := a.map fun r => r.map fun c => c.map o.cellValue

/-- The operand as the cells hold it. -/
def Retained.cells (r : Retained) : Operand :=
  r.held.foldl (fun a u => modAt a u.row.toNat fun row => modAt row u.col.toNat fun c =>
    modAt c (if u.low then 1 else 0) fun _ => u.code) r.operand

/-- The rows that take part in a vector (R225): under MAXPLUS and MINPLUS with diagonal packing those of its group. -/
def Opd.rowsOf (o : Opd) (P : Pass) (v : Nat) : List Nat :=
  (List.range P.rows).filter fun k => !(o.diag && (o.mode == 3 || o.mode == 4)) || k / o.q == v / o.ng

/-- The result of column j of a vector (R196, R225, R226). -/
def Opd.column (o : Opd) (P : Pass) (v : Nat) (a : List (List (List Dy))) (b : List (List Dy)) (j : Nat) : Word :=
  combine o.mode ((o.rowsOf P v).flatMap fun k =>
    ((a.getD k []).getD j []).flatMap fun u => (b.getD k []).map fun w => cellTerm o.mode u w)

/-- The results of a vector. -/
def Opd.columns (o : Opd) (P : Pass) (v : Nat) (a : List (List (List Dy))) (b : List (List Dy)) : List Word :=
  (List.range P.cols).map (o.column P v a b)

/-- An FP32 word as a number, saturated (R197; log 165 for a NaN), and whether it had to be. -/
def satWord (w : Word) : Dy × Bool :=
  match f32 w with
  | .fin _ v => (v, false)
  | .inf n => ((ffFP32.decode (ffFP32.sign n + ffFP32.maxCode)).dy, true)
  | .nan => ((ffFP32.decode ffFP32.maxCode).dy, true)

/-- A pass result joins an accumulator (R197, R225, R226). -/
def accAdd (mode : Nat) (a : Word × Bool) (y : Word) : Word × Bool :=
  let u := satWord a.1
  let w := satWord y
  if mode = 3 ∨ mode = 4 then (toF32 false (pickDy mode u.1 w.1), a.2 || w.2)
  else
    let r := ffFP32.roundSat (u.1.add w.1)
    (BitVec.ofNat 32 r.1, a.2 || w.2 || r.2)

/-- The accumulator that nothing has entered. -/
def acc0 : Nat → Word × Bool := fun _ => (0, false)

/-- The output element that column j of vector v of a pass belongs to, as position × N + channel. -/
def Opd.element (o : Opd) (P : Pass) (v j : Nat) : Nat :=
  if o.stat = 0 then (P.base + j) * o.n + P.grp * o.ng + v else v * o.n + P.grp * o.ng + P.base + j

/-- The results of a vector enter the accumulators (R266): the pass of k0 0 begins them. -/
def Opd.enterAcc (o : Opd) (P : Pass) (v : Nat) (ys : List Word) (m : SMap (Word × Bool)) : SMap (Word × Bool) :=
  ys.zipIdx.foldl (fun m x =>
    let i := o.element P v x.2
    m.set acc0 i (accAdd o.mode (if P.k0 = 0 then
      (if o.mode = 3 ∨ o.mode = 4 then (toF32 false (satWord x.1).1, false) else acc0 i) else m.get acc0 i) x.1)) m

/-! ### The values of the checks (R262 to R265) -/

/-- The largest FP32 word at or below a number that is not negative. -/
def f32Down (x : Dy) : Nat :=
  let c := min 0x7F7FFFFF (ffFP32.roundMag x).1
  match ffFP32.decode c with
  | .fin _ v => if x.lt v then c - 1 else c
  | _ => c

/-- The smallest FP32 word at or above a number that is not negative; an infinity beyond the largest. -/
def f32Up (x : Dy) : Nat :=
  let c := (ffFP32.roundMag x).1
  if 0x7F7FFFFF < c then 0x7F800000
  else match ffFP32.decode c with
    | .fin _ v => if v.lt x then c + 1 else c
    | _ => c

/-- What a check makes of the values that the array formed: undecided, or whether it passes, with LAST_DIFF and LAST_TOL
(none where they are not finite). -/
structure Verdict where
  undecided : Bool
  pass : Bool
  diff : Option (Nat × Nat)
  deriving DecidableEq, Repr

/-- The verdict on values beyond the finite FP32 range (R263). -/
def Verdict.open : Verdict := { undecided := true, pass := true, diff := none }

/-- SUM: |S_Y − S_M| ≤ 2^-14 × A + 2^-24 × N_c, evaluated exactly; undecided beyond the finite FP32 range (R263). -/
def sumVerdict (ncols : Nat) (sY sM a : Word) : Verdict :=
  match f32 sY, f32 sM, f32 a with
  | .fin _ y, .fin _ m, .fin _ v =>
    let d := (y.sub m).abs
    let tol : Dy := ({ m := v.m, e := v.e - 14 } : Dy).add { m := (ncols : Int), e := -24 }
    { undecided := false, pass := !tol.lt d, diff := some (f32Up d, f32Down tol) }
  | _, _, _ => Verdict.open

/-- DUP: bit-identical (R264). -/
def dupVerdict (y m : Word) : Verdict := { undecided := false, pass := y == m, diff := some (0, 0) }

/-- The word is a finite FP32 number. -/
def finite32 (w : Word) : Bool := match f32 w with | .fin _ _ => true | .nan => false | .inf _ => false

/-- LOAD: bit-identical, or both beyond the FP32 range (R265). -/
def loadVerdict (x m : Word) : Verdict :=
  { undecided := false, pass := x == m || (!finite32 x && !finite32 m), diff := some (0, 0) }

/-- A sum formed exactly and rounded once to FP32. -/
def sum32 (l : List Dy) : Word := toF32 false (l.foldl Dy.add Dy.zero)

/-- m[k] of a row, or m⁺[k] with `abs`: one sum for each half of an INT16 row (R262). -/
def mirrorRow (abs : Bool) (row : List (List Dy)) : List Word :=
  (List.range (row.foldl (fun n c => Nat.max n c.length) 0)).map fun h =>
    sum32 (row.map fun c => let v := c.getD h Dy.zero; if abs then v.abs else v)

/-- S_M, or A with `abs` (R262): Σ_k m[k] × b[k] with the arithmetic of R196. -/
def mirrorSum (abs : Bool) (a : List (List (List Dy))) (b : List (List Dy)) : Word :=
  passSum (a.zipIdx.flatMap fun r => (mirrorRow abs r.1).flatMap fun m => (b.getD r.2 []).map fun w =>
    ((f32 m).dy).mul (if abs then w.abs else w))

/-- SUM over what the array held and gave (R262, R263): S_Y over the column results, S_M and A from the operand that the
mirror column holds. -/
def sumCheck (a : List (List (List Dy))) (b : List (List Dy)) (ys : List Word) (u : ColUpset) : Verdict :=
  let ok := (a.all fun r => (mirrorRow false r ++ mirrorRow true r).all finite32) && ys.all finite32
  if ok then sumVerdict ys.length (sum32 (ys.map fun y => (f32 y).dy)) (u.mirror.getD (mirrorSum false a b))
      (u.bound.getD (mirrorSum true a b))
  else Verdict.open

/-- The results with an upset's columns replaced. -/
def upsetCols (ys : List Word) (u : ColUpset) : List Word := u.cols.foldl (fun l c => modAt l c.1.toNat fun _ => c.2) ys

/-- The verdict on vector v of pass number p (Table 10.1): SUM in MAC; in every other mode DUP over column p mod N_c and its
copy, which the mirror column computes from the operand as it was loaded (R264). -/
def Opd.vectorVerdict (o : Opd) (P : Pass) (p v : Nat) (a : List (List (List Dy))) (b : List (List Dy)) (ys : List Word)
    (u : ColUpset) : Verdict :=
  if o.mode = 0 then sumCheck a b ys u
  else
    let j := p % Nat.max 1 P.cols
    dupVerdict (ys.getD j 0) (u.mirror.getD (o.column P v a b j))

/-- The verdict on a front (R265): the sum-row totals over what the cells hold, the mirror column's over what was loaded
(log 165). -/
def Opd.frontVerdict (o : Opd) (r : Retained) (u : LoadUpset) : Verdict :=
  let total (a : Operand) : Word := sum32 ((o.valuesOf a).flatten.flatten)
  loadVerdict (u.sumRow.getD (total ({ r with held := u.cells } : Retained).cells)) (u.mirror.getD (total r.operand))

/-! ### Epilogue (R199 to R202, R245) -/

/-- A_g,m (R199): formed exactly, rounded once, and whether that overflowed. -/
def Tile.groupSum (x : Tile) (o : Opd) (p : Prd) (g m j : Nat) : Fv × Bool :=
  let ks := (List.range (min o.gs (o.q - j * o.gs))).map (j * o.gs + ·)
  sat32 (ks.foldl (fun a k => a.add (x.xElem o p g k m).sum) Dy.zero)

/-- C_a (R199), and whether a rounding overflowed (R197). -/
def Tile.corrA (x : Tile) (o : Opd) (p : Prd) (g n m : Nat) : Fv × Bool :=
  (List.range o.numGroups).foldl (fun (a : Fv × Bool) j =>
    let y := x.groupSum o p g m j
    let t := fvMul (x.f32At (64 * o.zfTs) (n * o.numGroups + j)) y.1
    let r := fvAdd a.1 t.1
    (r.1, a.2 || y.2 || t.2 || r.2)) (.fin false Dy.zero, false)

/-- The code of a tensor laid out as Y (R243) at position m, channel n. -/
def Tile.yCode (x : Tile) (o : Opd) (f ts m n : Nat) : Nat :=
  x.code f (64 * ts + m / o.ow * pitch f (o.ow * o.n)) (m % o.ow * o.n + n)

/-- A residual or gate operand: rnd(code × scale). -/
def Tile.sideVal (x : Tile) (o : Opd) (f ts : Nat) (scale : Fv) (m n : Nat) : Fv :=
  (fvMul (fmtValue f (x.yCode o f ts m n)) scale).1

/-- One output element from its accumulator: its code, whether it clipped at requantisation, the accumulator or a correction, and whether it
is invalid (R197, R200 to R202, R245). -/
def Tile.outElem (x : Tile) (o : Opd) (e : Epd) (p : Prd) (acc : Word × Bool) (m n : Nat) : Nat × Bool × Bool :=
  let g := n / max 1 o.ng
  let y : Fv × Bool := (f32 acc.1, acc.2)
  let y := if o.zfEn then
      let c := x.corrA o p g n m
      let r := fvAdd y.1 c.1.neg
      (r.1, y.2 || c.2 || r.2)
    else y
  let y := if o.knEn then
      let r := fvAdd y.1 (x.f32At (64 * o.knTs) n)
      (r.1, y.2 || r.2)
    else y
  let sat := y.2
  let v := y.1
  let v := if e.biasEn then
      (fvAdd v (if e.biasI32 then (sat32 (Dy.ofInt (signedN 32 (leNat (x.rd (64 * e.biasTs + 4 * n) 4))))).1
        else x.f32At (64 * e.biasTs) n)).1
    else v
  let res := x.sideVal o e.resFmt e.resTs e.resScale m n
  let v := if e.resEn && !e.resPos then (fvAdd v res).1 else v
  let v := x.activate e.act e.slope e.tblTs v
  let v := if e.resEn && e.resPos then (fvAdd v res).1 else v
  let v := if e.gateEn then (fvMul v (x.sideVal o e.gateFmt e.gateTs e.gateScale m n)).1 else v
  let r := requant o.fmtY v (if e.mulCh then x.f32At (64 * e.mulTs) n else e.mul) e.zpOut
  (r.1, sat || r.2.1, r.2.2)

/-! ### The end of an operation -/

/-- A pass gives the element at position m, channel n its last pass sum, in this vector; none where it gives it none. -/
def Opd.lastVec (o : Opd) (P : Pass) (m n : Nat) : Option Nat :=
  let c := n - P.grp * o.ng
  if P.grp * o.ng ≤ n ∧ o.q ≤ P.k0 + o.depth then
    if o.stat = 0 then (if P.base ≤ m ∧ m < P.base + P.cols ∧ c < P.vecs then some c else none)
    else (if P.base ≤ c ∧ c < P.base + P.cols ∧ c < o.ng then some m else none)
  else none

/-- Every pass sum of an output element has entered its accumulator. -/
def Opd.summed (o : Opd) (ps : List Pass) (r : MopRun) (m n : Nat) : Bool :=
  ps.zipIdx.any fun x => match o.lastVec x.1 m n with
    | some v => decide (x.2 < r.pass ∨ x.2 = r.pass ∧ v < r.vec)
    | none => false

/-- The epilogue's work so far: the store with the elements of Y whose sums are complete, and how many of them clipped at
requantisation or before, and are invalid (R203, R245). -/
def Tile.writeY (x : Tile) (d : MopDesc) (r : MopRun) : Tile × Nat × Nat :=
  let o := Opd.ofBytes d.opd
  let e := Epd.ofBytes d.epd
  let p := Prd.ofBytes d.prd
  let ps := o.passes d.skip
  let rows := (List.range o.oh).map fun y => (List.range (o.ow * o.n)).map fun i =>
    let m := y * o.ow + i / o.n
    let n := i % o.n
    if o.summed ps r m n then some (x.outElem o e p (r.acc.get acc0 (m * o.n + n)) m n) else none
  let out := rows.zipIdx.foldl (fun (z : Tile) y =>
    if y.1.any Option.isSome then
      z.wr (64 * o.yTs + y.2 * pitch o.fmtY (o.ow * o.n)) (packCodes o.fmtY (y.1.zipIdx.map fun c => match c.1 with
        | some v => v.1
        | none => x.code o.fmtY (64 * o.yTs + y.2 * pitch o.fmtY (o.ow * o.n)) c.2))
    else z) x
  let all := rows.flatten.filterMap id
  (out, (all.filter (·.2.1)).length, (all.filter (·.2.2)).length)

end Sys2Proof.Machine
end

