-- ==== Sys2Proof/Machine/DramOps.lean ====
section
/-!
DEFINITION. The operations over device DRAM: the address mapping (R311, R312), where a block lies, reading and
writing with the write queues overlaid (R318 to R321), poison (R313, R314), rank faults (R328).
-/
namespace Sys2Proof.Machine

/-! ### The mapping (R311) -/

/-- The XOR of the `n` low 4-bit nibbles of a number (fold4 of R311). -/
def fold4 : Nat → Nat → Nat
  | 0, _ => 0
  | n + 1, x => (x % 16) ^^^ fold4 n (x / 16)

/-- rotr(SEED, k mod 64)[3:0]: four seed bits from position k on, around the end. -/
def seedNibble (seed : BitVec 64) (k : Nat) : Nat := ((seed.rotateRight (k % 64)).toNat) % 16

/-- The set bit positions of `x` below `n` (bits of x, R311). -/
def bitsSet (x n : Nat) : List Nat := (List.range n).filter fun i => x.testBit i

/-- The XOR of the key nibbles over the bits of L. -/
def ctlKey (seed : BitVec 64) (L : Nat) : Nat :=
  (bitsSet L 32).foldl (fun a i => a ^^^ seedNibble seed (5 * i)) 0

/-- The sum of the key nibbles over the bits of r. -/
def rankOff (seed : BitVec 64) (r : Nat) : Nat :=
  (bitsSet r 32).foldl (fun a i => a + seedNibble seed (5 * i + 32)) 0

/-- Where a device address lies: controller, logical rank, rank-local granule (R311). -/
structure Spot where
  ctl : Nat
  q : Nat
  r : Nat
  deriving DecidableEq, Repr

/-- R311, for a seed and a number of active ranks. -/
def mapGranule (seed : BitVec 64) (na g : Nat) : Spot :=
  let L := g / 16
  let r := L / na
  { ctl := (g % 16) ^^^ fold4 16 L ^^^ ctlKey seed L, q := (L % na + rankOff seed r) % na, r := r }

/-- The granule that a spot belongs to: the inverse of R311. -/
def unmapGranule (seed : BitVec 64) (na : Nat) (x : Spot) : Nat :=
  let L := x.r * na + (x.q + na - rankOff seed x.r % na) % na
  L * 16 + (x.ctl ^^^ fold4 16 L ^^^ ctlKey seed L)

/-- Granules of an active rank (R311). -/
def rankGranules : Nat := 1966080

/-- Usable device capacity U in bytes: 480 MiB in each active rank of 16 controllers (R308, R309). -/
def State.usable (s : State) : Nat := 16 * s.dram.na * 503316480

/-- The segment of a rank-local granule (R312). -/
def segOf (r : Nat) : Nat := r / 15

/-- Bank and row of a granule (R312). -/
def bankRow (r : Nat) : Nat × Nat :=
  let sg := r / 15
  let j := r % 15
  (if j < 8 then sg % 8 else sg % 8 + 8, sg / 8)

/-- Bank that holds a granule's ECC (R312). -/
def eccBank (r : Nat) : Nat := r / 15 % 8 + 8

/-- Column at which a granule begins in the row of its bank (R312). -/
def column (r : Nat) : Nat := if r % 15 < 8 then 256 * (r % 15) else 256 * (r % 15 - 8)

/-- Column at which its 16 bytes of ECC begin, in the same row of bank b + 8 (R312). -/
def eccColumn (r : Nat) : Nat := 1792 + 16 * (r % 15)

/-- The granule whose data, or whose ECC, holds a column of a row of a bank, and the byte of it (R312); none for the last
16 columns of banks 8 to 15. -/
def granuleAt (bank row col : Nat) : Option (Nat × Bool × Nat) :=
  let r := (row * 8 + bank % 8) * 15
  if bank < 8 then some (r + col / 256, false, col % 256)
  else if col < 1792 then some (r + 8 + col / 256, false, col % 256)
  else if col < 2032 then some (r + (col - 1792) / 16, true, (col - 1792) % 16)
  else none

/-- The four ECC bytes of a block (R312): three check symbols, a free function of the data (log 161), and a byte with the
poison marker in bit 0. -/
def eccBytes (data : Bytes) (mark : Bool) : Bytes :=
  (List.range 3).map (Config.checkSymbol data) ++ [BitVec.ofNat 8 (b2n mark)]

/-! ### Ranks of a controller -/

/-- A nibble of a register pair such as RANK_MAP. -/
def State.nib (s : State) (lo hi n : Nat) : Nat :=
  if n < 8 then s.rfld lo (4 * n + 3) (4 * n) else s.rfld hi (4 * (n - 8) + 3) (4 * (n - 8))

/-- Write one. -/
def State.setNib (s : State) (lo hi n v : Nat) : State :=
  if n < 8 then s.setFld lo (4 * n + 3) (4 * n) v else s.setFld hi (4 * (n - 8) + 3) (4 * (n - 8)) v

/-- RANK_MAP[q] of a controller. -/
def State.rankMap (s : State) (c q : Nat) : Nat := s.nib (Reg.DMC.RANK_MAP_LO c) (Reg.DMC.RANK_MAP_HI c) q

/-- RANK_STATE of physical rank p: 0 IN_SERVICE, 1 SPARE, 2 MIG_FROM, 3 MIG_TO, 4 RETIRED, 5 DEGRADED. -/
def State.rankState (s : State) (c p : Nat) : Nat := s.nib (Reg.DMC.RANK_STATE_LO c) (Reg.DMC.RANK_STATE_HI c) p

/-- Write it. -/
def State.setRankState (s : State) (c p v : Nat) : State :=
  s.setNib (Reg.DMC.RANK_STATE_LO c) (Reg.DMC.RANK_STATE_HI c) p v

/-- A migration runs (MIG_STATUS.STATE COPYING). -/
def State.migrating (s : State) (c : Nat) : Bool := s.rfld (Reg.DMC.MIG_STATUS c) 31 30 == 1

/-- The spot of a device address. -/
def State.spot (s : State) (a : Nat) : Spot := mapGranule s.dram.seed s.dram.na (a / 256)

/-- The physical ranks that hold a spot's data, the one that reads first (R329): the mapped rank; while a migration
copies it, the target reads below segment SEG and both are written. -/
def State.ranksOf (s : State) (x : Spot) : List Nat :=
  let p := s.rankMap x.ctl x.q
  let st := Reg.DMC.MIG_STATUS x.ctl
  if s.migrating x.ctl ∧ s.rfld st 27 24 = p ∧ segOf x.r < s.rfld st 17 0 then [s.rfld st 23 20, p] else [p]

/-- The physical rank that reads of a spot go to. -/
def State.readRank (s : State) (x : Spot) : Nat := (s.ranksOf x).headD 0

/-- Byte place of a granule's byte in physical rank p. -/
def bytePlace (c p r off : Nat) : Nat := ((c * 16 + p) * rankGranules + r) * 256 + off

/-- Block place of block k of a granule. -/
def blockPlace (c p r k : Nat) : Nat := ((c * 16 + p) * rankGranules + r) * 4 + k

/-- What a place of DRAM reads as that nothing has written: zero, with a clear poison marker (R459). -/
def dram0 : Nat → Byte := fun _ => 0

/-- No poison marker. -/
def noPoison : Nat → Bool := fun _ => false

/-! ### Blocks -/

/-- The write queue of a channel. -/
def Dmc.queue (d : Dmc) (ch : Nat) : List WqEntry := d.wq.get (fun _ => []) ch

/-- The read queue of a channel. -/
def Dmc.reads (d : Dmc) (ch : Nat) : List MemRead := d.rq.get (fun _ => []) ch

/-- The byte of a row of a bank of physical rank p of controller c, as its stack stores it (R312). -/
def State.rowByte (s : State) (c p bank row col : Nat) : Byte :=
  match granuleAt bank row col with
  | some (r, false, i) => s.dram.cells.get dram0 (bytePlace c p r i)
  | some (r, true, i) => (eccBytes (s.dram.cells.getRange dram0 (bytePlace c p r (i / 4 * 64)) 64)
      (s.dram.poison.get noPoison (blockPlace c p r (i / 4)))).getD (i % 4) 0
  | none => 0

/-- The symbol errors that a physical block has collected, and the tries of its next beat that will fail (R313, R327). -/
def State.faultsAt (s : State) (k : Nat) : Nat × Nat := s.dram.faults.get (fun _ => (0, 0)) k

/-- Write them. -/
def State.setFaults (s : State) (k : Nat) (v : Nat × Nat) : State :=
  { s with dram := { s.dram with faults := s.dram.faults.set (fun _ => (0, 0)) k v } }

/-- A physical block collects symbol errors, and link errors wait for its next beat. -/
def State.upset (s : State) (x : Upset) : State :=
  let k := blockPlace x.ctl.toNat x.rank.toNat (x.block.toNat / 4) (x.block.toNat % 4)
  s.setFaults k ((s.faultsAt k).1 + x.errs, (s.faultsAt k).2 + x.fails)

/-- Both retries of a beat failed (R327). -/
def linkDead (fails : Nat) : Bool := decide (3 ≤ fails)

/-- The queued entry of a device block, if there is one (R319). -/
def State.queued (s : State) (blk : Nat) : Option WqEntry :=
  let x := s.spot (blk * 64)
  ((s.dmcOf x.ctl).queue (s.rankMap x.ctl x.q / 2)).find? fun e => e.block = blk

/-- The 64 bytes of a device block as DRAM stores them. -/
def State.stored (s : State) (blk : Nat) : Bytes :=
  let x := s.spot (blk * 64)
  s.dram.cells.getRange dram0 (bytePlace x.ctl (s.readRank x) x.r (blk % 4 * 64)) 64

/-- The poison marker of a device block. -/
def State.marked (s : State) (blk : Nat) : Bool :=
  let x := s.spot (blk * 64)
  s.dram.poison.get noPoison (blockPlace x.ctl (s.readRank x) x.r (blk % 4))

/-- The bytes of an entry over those beneath, by its mask (R319). -/
def overlay (old new : Bytes) (mask : BitVec 64) : Bytes :=
  (List.range 64).map fun i => if mask.getLsbD i then new.getD i 0 else old.getD i 0

/-- The mask that enables every byte. -/
def fullMask : BitVec 64 := BitVec.allOnes 64

/-- A controller answers reads poisoned and drops writes: it is FAULTED (R337), or the rank failed initialisation
(R309, R331). -/
def State.deadRank (s : State) (x : Spot) : Bool :=
  s.runState (U.dmc x.ctl) == 3 || (s.dmcOf x.ctl).badRanks.contains (s.readRank x)

/-- The block lies at or above the usable capacity, where there is no memory (R309). -/
def State.beyond (s : State) (blk : Nat) : Bool := decide (s.usable ≤ blk * 64)

/-- The faults of a device block, in the rank that it is read from. -/
def State.blockFaults (s : State) (blk : Nat) : Nat × Nat :=
  let x := s.spot (blk * 64)
  s.faultsAt (blockPlace x.ctl (s.readRank x) x.r (blk % 4))

/-- A read of the block from DRAM comes back poisoned: it is marked, two symbols or more are wrong, or both retries of its
beat fail (R313, R327). -/
def State.unreadable (s : State) (blk : Nat) : Bool :=
  s.marked blk || decide (2 ≤ (s.blockFaults blk).1) || linkDead (s.blockFaults blk).2

/-- What a read of a device block returns, and whether it is poisoned (R313, R320, R321, R327, R337). Beyond the usable
capacity the bytes are free values (log 40). -/
def State.readBlock (s : State) (blk : Nat) : Bytes × Bool :=
  if s.beyond blk then ((List.range 64).map fun i => Config.beyondByte (blk * 64 + i), false)
  else if s.deadRank (s.spot (blk * 64)) then (List.replicate 64 0, true)
  else match s.queued blk with
    | some e => (overlay (s.stored blk) e.data e.mask, e.mark || (s.unreadable blk && e.mask != fullMask))
    | none => (s.stored blk, s.unreadable blk)

/-- The device blocks that a byte range touches. -/
def blocksOf (a n : Nat) : List Nat :=
  if n = 0 then [] else (List.range ((a + n - 1) / 64 + 1 - a / 64)).map fun i => a / 64 + i

/-- A byte of device memory as a reader sees it. -/
def State.readByte (s : State) (a : Nat) : Byte := (s.readBlock (a / 64)).1.getD (a % 64) 0

/-- `n` bytes of device memory from `a`. -/
def State.readMem (s : State) (a n : Nat) : Bytes := (List.range n).map fun i => s.readByte (a + i)

/-- Some block of the range reads poisoned. -/
def State.poisoned (s : State) (a n : Nat) : Bool := (blocksOf a n).any fun b => (s.readBlock b).2

/-- The bytes of the range, those of poisoned blocks as zeros (R241). -/
def State.readMemZ (s : State) (a n : Nat) : Bytes :=
  (List.range n).map fun i => if (s.readBlock ((a + i) / 64)).2 then 0 else s.readByte (a + i)

/-- Store a block's bytes in every rank that holds it, with new ECC and its marker (R314, R329). -/
def State.storeBlock (s : State) (blk : Nat) (data : Bytes) (mark : Bool) : State :=
  let x := s.spot (blk * 64)
  (s.ranksOf x).foldl (fun s p =>
    { s with dram := { s.dram with
        cells := s.dram.cells.setRange dram0 (bytePlace x.ctl p x.r (blk % 4 * 64)) (sliceB data 0 64),
        poison := s.dram.poison.set noPoison (blockPlace x.ctl p x.r (blk % 4)) mark,
        faults := s.dram.faults.set (fun _ => (0, 0)) (blockPlace x.ctl p x.r (blk % 4)) (0, 0) } }) s

/-- Replace a channel's queue. -/
def State.setQueue (s : State) (c ch : Nat) (q : List WqEntry) : State :=
  let d := s.dmcOf c
  s.setDmc c { d with wq := d.wq.set (fun _ => []) ch q }

/-- Replace a channel's read queue. -/
def State.setReads (s : State) (c ch : Nat) (q : List MemRead) : State :=
  let d := s.dmcOf c
  s.setDmc c { d with rq := d.rq.set (fun _ => []) ch q }

/-- Merge a write into a queue: bytes of the later beat replace earlier ones and the masks are combined (R319); one that
covers the block takes its own marker (R314). -/
def mergeEntry (q : List WqEntry) (e : WqEntry) : List WqEntry :=
  if q.any (fun x => x.block = e.block) then
    q.map fun x => if x.block = e.block then
        { x with data := overlay x.data e.data e.mask, mask := x.mask ||| e.mask,
                 mark := e.mark || (x.mark && e.mask != fullMask) }
      else x
  else q ++ [e]

/-- The mask of the bytes [lo, hi) of a block. -/
def rangeMask (lo hi : Nat) : BitVec 64 := BitVec.ofNat 64 ((2 ^ (hi - lo) - 1) * 2 ^ lo)

/-! ### Errors and ranks -/

/-- LAST_UE of a block (Table 12.8). -/
def State.noteUe (s : State) (c p blk : Nat) : State :=
  let s := s.setNum (Reg.DMC.LAST_UE_LO c) (blk * 64)
  s.setNum (Reg.DMC.LAST_UE_HI c) (2 ^ 31 + p * 256 + blk * 64 / 2 ^ 32 % 32)

/-- An uncorrectable read: UE_CNT, PG_ERR.DRAM_UE, LAST_UE (Table 12.2). -/
def State.countUe (s : State) (c p blk : Nat) : State :=
  ((s.incS (Reg.DMC.UE_CNT c)).noteUe c p blk).raise (U.dmc c) 9

/-- A corrected read: CE_CNT, PG_ERR.DRAM_CE (Table 12.2). -/
def State.countCe (s : State) (c : Nat) : State := (s.incS (Reg.DMC.CE_CNT c)).raise (U.dmc c) 8

/-- The lowest rank of a controller in state `v`. -/
def State.rankIn (s : State) (c v : Nat) : Option Nat := (List.range 16).find? fun p => s.rankState c p == v

/-- A rank fault (Table 12.5). -/
def State.rankFault (s : State) (c p : Nat) : State :=
  let u := U.dmc c
  match s.rankState c p with
  | 0 =>
    match s.rankIn c 1, s.migrating c with
    | some t, false =>
      let s := ((s.setRankState c p 2).setRankState c t 3).setNum (Reg.DMC.MIG_STATUS c) (2 ^ 30 + p * 2 ^ 24 + t * 2 ^ 20)
      (s.setDmc c { s.dmcOf c with migTime := s.clock.up }).raise u 11
    | _, _ => ((s.setRankState c p 5).raise u 11).raise u 13
  | 3 =>
    let src := s.rfld (Reg.DMC.MIG_STATUS c) 27 24
    let s := (s.setRankState c p 4).setRankState c src 5
    ((s.setFld (Reg.DMC.MIG_STATUS c) 31 30 3).raise u 11).raise u 13
  | 1 => (s.setRankState c p 4).raise u 11
  | _ => s

/-- A link or command error and its retries (R327): `fails` tries failed before one succeeded; three failures confirm
the error. -/
def State.linkRetry (s : State) (c fails : Nat) : State :=
  if fails = 1 ∨ fails = 2 then (s.incS (Reg.DMC.LINK_RETRY_CNT c)).raise (U.dmc c) 10 else s

/-! ### Refresh (R323, R324) -/

/-- Refresh interval of a bank pair, ns, at the rate in force (Table 12.4, R324): 3.906 µs at 1×. -/
def refreshNs (rate : Nat) : Nat := if rate = 0 then 3906 else if rate = 1 then 1953 else 976

/-- The refresh interval in force. -/
def State.refreshStep (s : State) (c : Nat) : Nat := refreshNs (s.rfld (Reg.DMC.REFRESH_STATUS c) 1 0)

/-- What a bank pair owed when last settled, and when that was; a controller owes from its initialisation on. -/
def State.owedAt (s : State) (c rank pair : Nat) : Int × Nat :=
  let d := s.dmcOf c
  let o := d.owed.get (fun _ => (0, 0)) (rank * 8 + pair)
  (o.1, Nat.max o.2 d.since)

/-- Refreshes a bank pair owes now (R323): those owed when last settled and those that have fallen due since, at most 8. -/
def State.owes (s : State) (c rank pair : Nat) : Int :=
  let o := s.owedAt c rank pair
  min 8 (o.1 + (((s.clock.up - o.2) / s.refreshStep c : Nat) : Int))

/-- Settle what a bank pair owes at this moment. -/
def State.settle (s : State) (c rank pair : Nat) (n : Int) : State :=
  let d := s.dmcOf c
  let o := s.owedAt c rank pair
  let at' := o.2 + (s.clock.up - o.2) / s.refreshStep c * s.refreshStep c
  s.setDmc c { d with owed := d.owed.set (fun _ => (0, 0)) (rank * 8 + pair) (n, at') }

/-- One refresh of a bank pair, counted when it is forced; it leaves both banks precharged. -/
def State.refreshPair (s : State) (c rank pair : Nat) : State :=
  let owed := s.owes c rank pair
  let s := if 8 ≤ owed then s.incW (Reg.DMC.FORCED_REF_CNT c) else s
  let s := s.settle c rank pair (owed - 1)
  let d := s.dmcOf c
  let shut (m : SMap (Option Nat)) (b : Nat) := m.set (fun _ => none) (rank * 16 + b) none
  s.setDmc c { d with openRow := shut (shut d.openRow pair) (pair + 8) }

/-! ### Beats (R325, R327, R333) -/

/-- The row-hammer table after an activate of `row` (R325), and whether its count reached the threshold. -/
def hammerStep (l : List (Nat × Nat)) (row thresh : Nat) : List (Nat × Nat) × Bool :=
  let add : List (Nat × Nat) :=
    if l.any (fun e => e.1 = row) then l.map fun e => if e.1 = row then (row, e.2 + 1) else e
    else if l.length < 16 then l ++ [(row, 1)]
    else
      let low := (l.map (·.2)).foldl min (l.headD (0, 0)).2
      let i := l.findIdx fun e => e.2 == low
      l.set i (row, low + 1)
  if add.any (fun e => e.1 = row ∧ thresh ≤ e.2) then (add.map fun e => if e.1 = row then (row, 0) else e, true)
  else (add, false)

/-- A command opens a row of a bank of a rank: an activate when it is not open, counted for the row-hammer defence;
at the threshold the neighbours are refreshed and the bank is left precharged (R325; log 23). -/
def State.activate (s : State) (c p bank row : Nat) : State :=
  let d := s.dmcOf c
  let k := p * 16 + bank
  if d.openRow.get (fun _ => none) k = some row then s
  else
    let h := hammerStep (d.hammer.get (fun _ => []) k) row d.thresh
    let s := s.setDmc c { d with openRow := d.openRow.set (fun _ => none) k (if h.2 then none else some row),
                                 hammer := d.hammer.set (fun _ => []) k h.1 }
    if h.2 then s.incW (Reg.DMC.HAMMER_CNT c) else s

/-- A beat reaches DRAM: a pair that owes 8 refreshes is refreshed first (R324), then the granule's bank and the bank of its
ECC are opened (R312, R325). -/
def State.touch (s : State) (c p r : Nat) : State :=
  let br := bankRow r
  let s := if 8 ≤ s.owes c p (br.1 % 8) then s.refreshPair c p (br.1 % 8) else s
  (s.activate c p br.1 br.2).activate c p (eccBank r) br.2

/-- A beat to block k of granule r of a physical rank, with its retries (R327): whether its error is confirmed. -/
def State.beatTo (s : State) (c p r k : Nat) : Bool × State :=
  let s := s.touch c p r
  let i := blockPlace c p r k
  let f := s.faultsAt i
  (linkDead f.2, (s.setFaults i (f.1, 0)).linkRetry c f.2)

/-- A beat to a block in each of some ranks, in turn: the ranks whose error is confirmed (R327, R329). -/
def State.beatsTo (s : State) (c r k : Nat) : List Nat → State × List Nat
  | [] => (s, [])
  | p :: l =>
    let b := s.beatTo c p r k
    let t := b.2.beatsTo c r k l
    (t.1, if b.1 then p :: t.2 else t.2)

/-- Beats of a channel and of a port on it, for the imbalance monitor (R333). -/
def State.countBeat (s : State) (c ch port : Nat) : State :=
  let d := s.dmcOf c
  s.setDmc c { d with chanBeats := d.chanBeats.upd (fun _ => 0) ch (· + 1),
                      portBeats := d.portBeats.upd (fun _ => 0) (ch * 8 + port) (· + 1) }

/-- The channel whose queue takes the writes of a spot. -/
def State.chanOf (s : State) (x : Spot) : Nat := s.rankMap x.ctl x.q / 2

/-! ### The write queue (R314, R318 to R320) -/

/-- What a read-modify-write counts when it reads the block (R313, R314): a corrected or an uncorrectable error. -/
def State.rmwErrors (s : State) (c p blk errs : Nat) : State :=
  if errs = 0 then s else if errs = 1 then s.countCe c else s.countUe c p blk

/-- Drain one queued entry of a channel (R314, R327): a full block stores new ECC and clears the marker; a partial one
is merged by read-modify-write and keeps the marker of what it merged with. While a rank migrates both ranks are written
(R329). A controller gone to FAULTED drops the entry (R337). -/
def State.drainEntry (s : State) (c : Nat) (e : WqEntry) : State :=
  let x := s.spot (e.block * 64)
  if s.deadRank x then s
  else
    let p := s.readRank x
    let data := overlay (s.stored e.block) e.data e.mask
    let part := e.mask != fullMask
    let mark := part && s.marked e.block
    let errs := if part && !mark then (s.blockFaults e.block).1 else 0
    let ue := decide (2 ≤ errs)
    let s := (s.when part fun s => s.incW (Reg.DMC.RMW_CNT c)).rmwErrors c p e.block errs
    let r := s.beatsTo c x.r (e.block % 4) (s.ranksOf x)
    let s := r.1.storeBlock e.block data (mark || e.mark || ue || !r.2.isEmpty)
    (if ue then p :: r.2 else r.2).foldl (fun s t => s.rankFault c t) s

/-- A channel drains its oldest entries until n remain (R322). -/
def State.drainTo (s : State) (c ch n : Nat) : State :=
  let q := (s.dmcOf c).queue ch
  (q.take (q.length - n)).foldl (fun s e => s.drainEntry c e) (s.setQueue c ch (q.drop (q.length - n)))

/-- A write beat enters the write queue of its channel (R318, R319): a full queue drains first, to 16 entries. -/
def State.enqueueWrite (s : State) (e : WqEntry) : State :=
  let x := s.spot (e.block * 64)
  let ch := s.chanOf x
  let q := (s.dmcOf x.ctl).queue ch
  let s := if 64 ≤ q.length ∧ !q.any (fun f => f.block = e.block) then s.drainTo x.ctl ch 16 else s
  s.setQueue x.ctl ch (mergeEntry ((s.dmcOf x.ctl).queue ch) e)

/-! ### Reads (Table 12.2, R320) -/

/-- What a read of a block from DRAM does beside returning data (Table 12.2, R325, R327): a corrected block goes back
through the write queue. -/
def State.readStored (s : State) (blk : Nat) : State :=
  let x := s.spot (blk * 64)
  let c := x.ctl
  let p := s.readRank x
  let b := s.beatTo c p x.r (blk % 4)
  let s := b.2
  let errs := (s.blockFaults blk).1
  if b.1 then s.rankFault c p
  else if s.marked blk then s.incS (Reg.DMC.POISON_READ_CNT c)
  else if errs = 0 then s
  else if errs = 1 then (s.countCe c).enqueueWrite { block := blk, data := s.stored blk, mask := fullMask, mark := false }
  else ((s.countUe c p blk).storeBlock blk (s.stored blk) true).rankFault c p

/-- What a read beat of a port does beside returning data (R320, R333): a block whose entry covers it is forwarded from the
queue; an entry that covers a part of it is drained first. -/
def State.readEffect (s : State) (port blk : Nat) : State :=
  let x := s.spot (blk * 64)
  let c := x.ctl
  if s.beyond blk ∨ s.deadRank x then s
  else
    let s := s.countBeat c (s.readRank x / 2) port
    match s.queued blk with
    | some e =>
      if e.mask = fullMask then s.incW (Reg.DMC.FWD_CNT c)
      else
        let ch := s.chanOf x
        let s := s.incW (Reg.DMC.PARTIAL_WAIT_CNT c)
        let s := s.setQueue c ch (((s.dmcOf c).queue ch).filter fun f => f.block != blk)
        (s.drainEntry c e).readStored blk
    | none => s.readStored blk

/-- The port through which a unit reaches DRAM (Table 12.3); those that the table does not name make no request. -/
def portOf (u : Inst) : Nat :=
  match u.blk with
  | .ple => 0 | .tile => 1 | .dec => 2 | .lns => 3 | .ing | .cpm => 4 | .egr => 5 | .pep => 6
  | .stw | .devctl | .sec | .tmu | .erc | .mbx | .nix | .scx | .dmc | .pfb | .met => 7

/-- A unit reads `n` bytes from `a`: what its beats do beside returning data (R317). -/
def State.readBeats (s : State) (u : Inst) (a n : Nat) : State :=
  (blocksOf a n).foldl (fun s b => s.readEffect (portOf u) b) s

/-! ### Writes of units -/

/-- A controller accepts requests: it is initialised, and no seal is under way (R370, R459). -/
def State.memReady (s : State) (c : Nat) : Bool := (s.dmcOf c).initDone && !s.stw.sealing

/-- A request is held. -/
def State.holdReq (s : State) (r : MemReq) : State := { s with dram := { s.dram with held := s.dram.held ++ [r] } }

/-- A write beat of a unit (R314, R318, R319, R333, R337, R459): accepted into the write queue, or held by a controller that
does not accept requests; at or above U there is nothing to write. -/
def State.writeBlock (s : State) (u : Inst) (e : WqEntry) : State :=
  let x := s.spot (e.block * 64)
  if s.beyond e.block then s
  else if !s.memReady x.ctl then s.holdReq (.write u e)
  else if s.deadRank x then s
  else (s.countBeat x.ctl (s.chanOf x) (portOf u)).enqueueWrite e

/-- A unit's write of bytes to device memory; `en` holds one enable a byte, true where it ends; `mark` sets the poison marker
of every block touched (R341, R358). -/
def State.writeBytes (s : State) (u : Inst) (a : Nat) (data : Bytes) (en : List Bool) (mark : Bool) : State :=
  (blocksOf a data.length).foldl (fun s b =>
    let at' (i : Nat) : Nat := b * 64 + i - a
    let inside (i : Nat) : Bool := decide (a ≤ b * 64 + i ∧ b * 64 + i < a + data.length)
    s.writeBlock u { block := b,
                     data := (List.range 64).map fun i => if inside i then data.getD (at' i) 0 else 0,
                     mask := (List.range 64).foldl (fun m i =>
                       if inside i && en.getD (at' i) true then m ||| BitVec.ofNat 64 (2 ^ i) else m) 0,
                     mark := mark }) s

/-- A unit's write of bytes, every one enabled. -/
def State.writeMem (s : State) (u : Inst) (a : Nat) (data : Bytes) (mark : Bool := false) : State :=
  s.writeBytes u a data [] mark

/-! ### Requests in flight (R332) -/

/-- A requester is reset or aborts with requests in flight (R332): its queued reads are discarded as they return, and what
was not accepted is never made. -/
def State.dropBeats (s : State) (u : Inst) : State :=
  let mine : MemReq → Bool
    | .read v _ => v == u
    | .write v _ => v == u
    | .bar2 _ _ => u == U.pep
  let gone (q : List MemRead) : List MemRead := q.map fun m => if m.unit = u then { m with drop := true } else m
  { s with dram := { s.dram with
      held := s.dram.held.filter fun r => !mine r,
      ctl := s.dram.ctl.map fun e => (e.1, { e.2 with rq := e.2.rq.map fun q => (q.1, gone q.2) }) } }

end Sys2Proof.Machine
end

