-- ==== Sys2Proof/Machine/Cpm.lean ====
section
/-!
DEFINITION. The cell pool manager (04_cell_pool): the region, cells and chains, grants, class buffers, returns and
their checks, and the commands ALLOC_REQ, ALLOC_DONE, FREE_ADDR_LO, CHAIN_RETURN, CHAIN_RETURN_DONE.
-/
namespace Sys2Proof.Machine

/-! ### The region (R117) -/

/-- REGION_BASE. -/
def State.poolBase (s : State) : Nat := (s.reg Reg.CPM.REGION_BASE_LO).toNat + 2 ^ 32 * s.rfld Reg.CPM.REGION_BASE_HI 4 0

/-- The region is one that CPM may run with (R118). -/
def State.poolOk (s : State) : Bool :=
  s.poolBase % 2 ^ 20 == 0 && s.poolCells % 4096 == 0 && decide (s.poolCells ≤ 16777216) &&
  (List.range 4).all (fun k => decide (s.classCount k ≤ 4096)) && decide (s.chainStart ≤ s.poolCells) &&
  decide (s.poolBase + s.poolCells * 256 ≤ s.usable)

/-- Cells free now: the free list and the cells never granted. -/
def State.freeCells (s : State) : Nat := s.cpm.free.length + (s.chainCells - s.cpm.fresh)

/-- FREE_CELLS and MIN_FREE follow the pool; falling below LOW_WATER sets PG_ERR.LOW_WATER (R123). -/
def State.noteFree (s : State) : State :=
  let old := s.rfld Reg.CPM.FREE_CELLS 24 0
  let now := s.freeCells
  let low := s.rfld Reg.CPM.LOW_WATER 24 0
  let s := s.setNum Reg.CPM.FREE_CELLS now
  let s := if now < s.rfld Reg.CPM.MIN_FREE 24 0 then s.setNum Reg.CPM.MIN_FREE now else s
  if low ≤ old ∧ now < low then s.raise U.cpm 9 else s

/-- CPM enters RUNNING: every cell and every class buffer is free (R118). -/
def State.cpmStart (s : State) : State :=
  let s := { s with cpm := { s.cpm with alloc := [], free := [], fresh := 0, bufs := [], asked := [], walking := [] } }
  let n := s.chainCells
  let s := (s.setNum Reg.CPM.FREE_CELLS n).setNum Reg.CPM.MIN_FREE n
  (List.range 4).foldl (fun s k => s.setNum (Reg.CPM.CLASS_FREE k) (s.classCount k)) s

/-- CPM stops: the chain returns under way are dropped, and what the driver holds is lost to it (R119, R460). -/
def State.cpmStop (s : State) : State := { s with cpm := { s.cpm with asked := [], walking := [] } }

/-! ### Grants of chain cells (R122, R123) -/

/-- The bitmap marks a cell allocated (R121). -/
def State.cellAlloc (s : State) (i : Nat) : Bool := s.cpm.alloc.get (fun _ => false) i

/-- Write the bitmap. -/
def State.setAlloc (s : State) (i : Nat) (b : Bool) : State :=
  { s with cpm := { s.cpm with alloc := s.cpm.alloc.set (fun _ => false) i b } }

/-- CELL_GRANT (R122, R123): the head of the free list, else the lowest cell never granted, else failure with
ALLOC_FAIL and EXHAUSTED. -/
def State.grantCell (s : State) : Option Nat × State :=
  if s.running U.cpm then
    match s.cpm.free with
    | i :: rest => (some i, (({ s with cpm := { s.cpm with free := rest } } : State).setAlloc i true).noteFree)
    | [] =>
      if s.cpm.fresh < s.chainCells then
        let i := s.chainStart + s.cpm.fresh
        (some i, (({ s with cpm := { s.cpm with fresh := s.cpm.fresh + 1 } } : State).setAlloc i true).noteFree)
      else (none, (s.incS Reg.CPM.ALLOC_FAIL).raise U.cpm 8)
  else (none, (s.incS Reg.CPM.ALLOC_FAIL).raise U.cpm 8)

/-- Draw `n` cells, one at a time; a failure leaves those drawn before it in the list. -/
def State.grantCells : Nat → State → List Nat × Bool × State
  | 0, s => ([], true, s)
  | n + 1, s =>
    match s.grantCell with
    | (some i, s1) => match State.grantCells n s1 with | (l, ok, s2) => (i :: l, ok, s2)
    | (none, s1) => ([], false, s1)

/-! ### Cell headers and chains (Table 4.1, R120, R121) -/

/-- Device address of a cell. -/
def State.cellAddr (s : State) (i : Nat) : Nat := s.poolBase + 256 * i

/-- A cell header. -/
def cellHeader (first last : Bool) (kind id len next : Nat) : Nat :=
  2 ^ 63 + b2n first * 2 ^ 62 + b2n last * 2 ^ 61 + kind * 2 ^ 44 + id * 2 ^ 32 + len * 2 ^ 24 + next

/-- Write a chain of cells holding `data` for stream `n`, 248 bytes in every cell but the last (R121). -/
def State.writeChain (s : State) (n : Nat) (cells : List Nat) (data : Bytes) (first : Bool := true) : State :=
  match cells with
  | [] => s
  | i :: rest =>
    let part := data.take 248
    let h := cellHeader first rest.isEmpty 1 n part.length (rest.headD 0)
    (s.writeMem U.ing (s.cellAddr i) (leBytes 8 h ++ part)).writeChain n rest (data.drop 248) false

/-- The payload of a chain, as the chain's cells hold it in DRAM. -/
def State.readChain (s : State) (cells : List Nat) : Bytes :=
  cells.flatMap fun i =>
    let h := leNat (s.readMem (s.cellAddr i) 8)
    s.readMem (s.cellAddr i + 8) (Nat.min 248 (bitsOf h 31 24))

/-- Some block of a chain's cells reads poisoned. -/
def State.chainPoisoned (s : State) (cells : List Nat) : Bool := cells.any fun i => s.poisoned (s.cellAddr i) 256

/-- Ask CPM to take back a chain (R124). -/
def State.askReturn (s : State) (r : ChainRet) : State :=
  { s with cpm := { s.cpm with asked := s.cpm.asked ++ [r] } }

/-- Ingress returns the chain of an access unit of stream n, or the cells drawn for one (R124, R462). -/
def State.ingReturn (s : State) (n : Nat) (cells : List Nat) : State :=
  match cells with
  | [] => s
  | i :: _ => s.askReturn { source := 1, unit := n, stream := n, first := i }

/-! ### Class buffers (R125 to R129) -/

/-- The smallest class whose buffer holds `n` bytes. -/
def classFor (n : Nat) : Nat := if n ≤ 2048 then 0 else if n ≤ 16384 then 1 else if n ≤ 131072 then 2 else 3

/-- The owner of a class buffer, plus one; 0 when it is free. -/
def State.bufOwner (s : State) (k i : Nat) : Nat := s.cpm.bufs.get (fun _ => 0) (k * 4096 + i)

/-- Write it. -/
def State.setBuf (s : State) (k i v : Nat) : State :=
  { s with cpm := { s.cpm with bufs := s.cpm.bufs.set (fun _ => 0) (k * 4096 + i) v } }

/-- ALLOC_REQ (R125, R126, R460): start a class request, ignored while one is BUSY or CPM is not RUNNING. -/
def execAllocReq (value : Word) (s : State) : Res :=
  onBus s fun s =>
    if !s.running U.cpm then s.protocol U.cpm
    else if s.rfld Reg.CPM.ALLOC_STATUS 2 0 = 1 then (s.setBit Reg.CPM.ALLOC_STATUS 6).protocol U.cpm
    else ({ s with cpm := { s.cpm with req := some (fld value 20 0) } } : State).setFld Reg.CPM.ALLOC_STATUS 2 0 1

/-- ALLOC_DONE (R125): the request completes as DONE, EMPTY, TOO_LARGE or BAD_SIZE. -/
def execAllocDone (s : State) : Res :=
  onCore s fun s =>
    match s.cpm.req with
    | none => s
    | some n =>
      let s := { s with cpm := { s.cpm with req := none } }
      let st (s : State) (v : Nat) : State := s.setFld Reg.CPM.ALLOC_STATUS 2 0 v
      if n = 0 then st s 5
      else if 1048576 < n then st s 4
      else
        let k := classFor n
        match (List.range (s.classCount k)).find? (fun i => s.bufOwner k i == 0) with
        | none => st s 3
        | some i =>
          let a := s.cellAddr (s.classStart k + i * classCells k)
          let s := s.setBuf k i (s.rfld Reg.CPM.ALLOC_TAG 11 0 + 1)
          let s := s.setNum (Reg.CPM.CLASS_FREE k) (s.rfld (Reg.CPM.CLASS_FREE k) 12 0 - 1)
          let s := s.setReg64 Reg.CPM.ALLOC_ADDR_LO Reg.CPM.ALLOC_ADDR_HI a
          st (s.setFld Reg.CPM.ALLOC_STATUS 5 4 k) 2

/-- A return is rejected (R129): PG_ERR.BAD_FREE, PG_ERR.POISON for that cause, REJECT_CNT and the record of the
first one. -/
def State.rejectReturn (s : State) (cause source unit addr : Nat) : State :=
  let s := (s.raise U.cpm 10).incS Reg.CPM.REJECT_CNT
  let s := if cause = 6 then s.raise U.cpm 11 else s
  if s.rbit Reg.CPM.FREE_REJECT 31 then s.setBit Reg.CPM.FREE_REJECT 30
  else
    let s := s.setNum Reg.CPM.FREE_REJECT (2 ^ 31 + cause * 2 ^ 20 + source * 2 ^ 16 + unit * 2 ^ 8)
    s.setReg64 Reg.CPM.REJECT_ADDR_LO Reg.CPM.REJECT_ADDR_HI addr

/-- The class whose sub-region holds a cell index, if one does. -/
def State.classOf (s : State) (i : Nat) : Option Nat :=
  (List.range 4).find? fun k => decide (s.classStart k ≤ i ∧ i < s.classStart k + s.classCount k * classCells k)

/-- FREE_ADDR_LO (R127, R129, R460): the return of a class buffer, checked RANGE, ALIGN, NOT_ALLOC, OWNER. Every
class buffer's owner is the host, so OWNER cannot fail. -/
def execFreeAddrLo (value : Word) (s : State) : Res :=
  onBus s fun s =>
    if !s.running U.cpm then s.protocol U.cpm
    else
      let a := value.toNat + 2 ^ 32 * fld s.cpm.freeHi 4 0
      let cls := if s.poolBase ≤ a then s.classOf ((a - s.poolBase) / 256) else none
      match cls with
      | none => s.rejectReturn 1 0 0 a
      | some k =>
        let off := a - s.poolBase - 256 * s.classStart k
        let size := 256 * classCells k
        if off % size ≠ 0 then s.rejectReturn 2 0 0 a
        else if s.bufOwner k (off / size) = 0 then s.rejectReturn 3 0 0 a
        else (s.setBuf k (off / size) 0).setNum (Reg.CPM.CLASS_FREE k) (s.rfld (Reg.CPM.CLASS_FREE k) 12 0 + 1)

/-! ### Chain returns (R127, R128) -/

/-- Walk a chain (R127): the cause of the first failed check (0 for none) and the cells walked. ALIGN never fails: a
chain cell is named by its index. -/
def State.walk (s : State) (stream : Nat) : Nat → Nat → List Nat → Nat × List Nat
  | 0, _, seen => (5, seen)
  | fuel + 1, i, seen =>
    if i < s.chainStart ∨ s.poolCells ≤ i then (1, seen)
    else if seen.contains i then (5, seen)
    else
      let seen' := seen ++ [i]
      if !s.cellAlloc i then (3, seen')
      else
        let h := leNat (s.readMem (s.cellAddr i) 8)
        if s.poisoned (s.cellAddr i) 8 then (6, seen')
        else if bitsOf h 47 44 ≠ 1 ∨ bitsOf h 43 32 ≠ stream then (4, seen')
        else if bitOf h 61 then (0, seen')
        else s.walk stream fuel (bitsOf h 23 0) seen'

/-- CHAIN_RETURN (R127, R128, R460): CPM takes the next chain returned to it and walks it, noting of a chain that fails the
walked cells that the bitmap marks allocated; while it is not RUNNING the chain is dropped without checks or counts. -/
def execChainReturn (s : State) : Res :=
  onCore s fun s =>
    match s.cpm.asked, s.cpm.walking with
    | r :: rest, [] =>
      let s := { s with cpm := { s.cpm with asked := rest } }
      if s.running U.cpm then
        let w := s.walk r.stream 131072 r.first []
        let bad := if w.1 = 0 then w.2 else w.2.filter s.cellAlloc
        let s := w.2.foldl (fun s i => s.when (s.cellAlloc i) fun s => s.readBeats U.cpm (s.cellAddr i) 8) s
        { s with cpm := { s.cpm with walking := [(r, w.1, bad)] } }
      else s
    | _, _ => s

/-- A freed cell's header loses its ALLOC flag (Table 4.1). -/
def State.clearAlloc (s : State) (i : Nat) : State :=
  let b := s.readMem (s.cellAddr i + 7) 1
  s.writeMem U.cpm (s.cellAddr i + 7) [b.headD 0 &&& 0x7F]

/-- CHAIN_RETURN_DONE (R120, R128): the chain is freed whole, its cells joining the tail of the free list, or rejected: then
the cells noted are LEAKED. While CPM is not RUNNING it frees nothing (R460). -/
def execChainReturnDone (s : State) : Res :=
  onCore s fun s =>
    match s.cpm.walking with
    | [] => s
    | (r, cause, cells) :: rest =>
      let s := { s with cpm := { s.cpm with walking := rest } }
      if !s.running U.cpm then s
      else if cause = 0 then
        let s := cells.foldl (fun s i => (s.setAlloc i false).clearAlloc i) s
        ({ s with cpm := { s.cpm with free := s.cpm.free ++ cells } } : State).noteFree
      else
        let s := s.incS Reg.CPM.LEAKED cells.length
        s.rejectReturn cause r.source r.unit (s.cellAddr r.first)

end Sys2Proof.Machine
end

