-- ==== Sys2Proof/Machine/Net.lean ====
section
/-!
DEFINITION. Frames and packets: Ethernet, IEEE 802.1Q, IPv4, IPv6, UDP, RTP and RTCP in the byte order of their
standards (R457), parsed and built; and the frame a port sends (R88, R97 to R99, R112, R302).
-/
namespace Sys2Proof.Machine

/-! ### Ethernet -/

/-- A received frame past its Ethernet header: source address, VID of its 802.1Q tag, EtherType, what follows. -/
structure EthFrame where
  smac : Bytes
  dmac : Bytes
  vlan : Option (BitVec 12)
  etype : Nat
  body : Bytes
  deriving DecidableEq, Repr

/-- The FCS of a frame: four bytes, least significant first (log 11). -/
def fcsOf (b : Bytes) : Bytes := leBytes 4 (crc32eth b)

/-- The FCS is correct (R88). -/
def fcsOk (frame : Bytes) : Bool :=
  decide (18 ≤ frame.length) && fcsOf (frame.take (frame.length - 4)) == frame.drop (frame.length - 4)

/-- The type of an IEEE 802.1Q customer or service tag. -/
def isTag (t : Nat) : Bool := t == 0x8100 || t == 0x88A8

/-- A second tag follows the first (R88). -/
def twoTags (frame : Bytes) : Bool := isTag (beAt frame 12 2) && isTag (beAt frame 16 2)

/-- The frame past its header, FCS removed. -/
def parseEth (frame : Bytes) : EthFrame :=
  let b := frame.take (frame.length - 4)
  if beAt b 12 2 = 0x8100 then
    { smac := sliceB b 6 6, dmac := sliceB b 0 6, vlan := some (BitVec.ofNat 12 (beAt b 14 2)), etype := beAt b 16 2,
      body := b.drop 18 }
  else { smac := sliceB b 6 6, dmac := sliceB b 0 6, vlan := none, etype := beAt b 12 2, body := b.drop 14 }

/-- An Ethernet frame with its FCS: destination, source, optional tag (PCP and VID), EtherType, body padded to the
60-byte minimum (log 25). -/
def buildEth (dmac smac : Bytes) (tag : Option (Nat × Nat)) (etype : Nat) (body : Bytes) : Bytes :=
  let h := dmac ++ smac ++ (match tag with | some (pcp, vid) => beBytes 2 0x8100 ++ beBytes 2 (pcp * 8192 + vid) | none => [])
    ++ beBytes 2 etype ++ body
  let f := h ++ List.replicate (60 - h.length) 0
  f ++ fcsOf f

/-! ### IP and UDP -/

/-- The Internet checksum's sum of 16-bit big-endian words. -/
def sum16 : Bytes → Nat
  | [] => 0
  | [a] => a.toNat * 256
  | a :: b :: r => a.toNat * 256 + b.toNat + sum16 r

/-- Fold carries into 16 bits. -/
def fold16 (n : Nat) : Nat :=
  let a := n / 65536 + n % 65536
  a / 65536 + a % 65536

/-- The Internet checksum of a byte string. -/
def inetSum (b : Bytes) : Nat := 0xFFFF - fold16 (fold16 (sum16 b))

/-- A UDP datagram as received: addresses, ports, payload. -/
structure Udp where
  ip6 : Bool
  src : Bytes
  dst : Bytes
  sport : Nat
  dport : Nat
  data : Bytes
  deriving DecidableEq, Repr

/-- What the checks of R98 make of a packet. -/
inductive IpOutcome where
  | udp (u : Udp)
  | ipDrop
  | csumErr
  | other
  deriving DecidableEq, Repr

/-- The IPv6 next-header values that are extension headers. -/
def ip6Ext (n : Nat) : Bool := [0, 43, 44, 50, 51, 60, 135, 139, 140].contains n

/-- A UDP datagram and its checksum over the pseudo header (R98). -/
def parseUdp (ip6 : Bool) (src dst seg : Bytes) : IpOutcome :=
  let len := beAt seg 4 2
  if seg.length < 8 ∨ len < 8 ∨ seg.length < len then .other
  else
    let d := seg.take len
    let ck := beAt seg 6 2
    let pseudo := src ++ dst ++ (if ip6 then beBytes 4 len ++ [0, 0, 0, 17] else [0, 17] ++ beBytes 2 len)
    if ck = 0 ∧ ip6 then .csumErr
    else if ck ≠ 0 ∧ inetSum (pseudo ++ d) ≠ 0 then .csumErr
    else .udp { ip6 := ip6, src := src, dst := dst, sport := beAt seg 0 2, dport := beAt seg 2 2, data := d.drop 8 }

/-- R98 over a received frame's body: fragments and extension headers, header checksum, UDP. -/
def parseIp (f : EthFrame) : IpOutcome :=
  let b := f.body
  if f.etype = 0x0800 then
    let ihl := (beAt b 0 1 % 16) * 4
    let tot := beAt b 2 2
    if b.length < 20 ∨ beAt b 0 1 / 16 ≠ 4 ∨ ihl < 20 ∨ tot < ihl ∨ b.length < tot then .other
    else if beAt b 6 2 % 16384 ≠ 0 then .ipDrop
    else if inetSum (b.take ihl) ≠ 0 then .csumErr
    else if beAt b 9 1 ≠ 17 then .other
    else parseUdp false (sliceB b 12 4) (sliceB b 16 4) ((b.take tot).drop ihl)
  else if f.etype = 0x86DD then
    let plen := beAt b 4 2
    if b.length < 40 ∨ beAt b 0 1 / 16 ≠ 6 ∨ b.length < 40 + plen then .other
    else if ip6Ext (beAt b 6 1) then .ipDrop
    else if beAt b 6 1 ≠ 17 then .other
    else parseUdp true (sliceB b 8 16) (sliceB b 24 16) ((b.drop 40).take plen)
  else .other

/-- A UDP datagram with its checksum; a computed zero is sent as all ones. -/
def buildUdp (ip6 : Bool) (src dst : Bytes) (sport dport : Nat) (data : Bytes) : Bytes :=
  let len := data.length + 8
  let pseudo := src ++ dst ++ (if ip6 then beBytes 4 len ++ [0, 0, 0, 17] else [0, 17] ++ beBytes 2 len)
  let h := beBytes 2 sport ++ beBytes 2 dport ++ beBytes 2 len
  let ck := inetSum (pseudo ++ h ++ [0, 0] ++ data)
  h ++ beBytes 2 (if ck = 0 then 0xFFFF else ck) ++ data

/-- An IP packet around a UDP datagram: DSCP, identification, don't-fragment, TTL or hop limit. -/
def buildIp (ip6 : Bool) (src dst : Bytes) (dscp ident : Nat) (df : Bool) (ttl : Nat) (udp : Bytes) : Bytes :=
  if ip6 then
    beBytes 4 (6 * 2 ^ 28 + dscp * 2 ^ 22) ++ beBytes 2 udp.length ++ [17, BitVec.ofNat 8 ttl] ++ src ++ dst ++ udp
  else
    let h1 := [0x45, BitVec.ofNat 8 (dscp * 4)] ++ beBytes 2 (20 + udp.length) ++ beBytes 2 ident ++
      beBytes 2 (if df then 0x4000 else 0) ++ [BitVec.ofNat 8 ttl, 17]
    let ck := inetSum (h1 ++ [0, 0] ++ src ++ dst)
    h1 ++ beBytes 2 ck ++ src ++ dst ++ udp

/-- EtherType of an IP version. -/
def ipType (ip6 : Bool) : Nat := if ip6 then 0x86DD else 0x0800

/-! ### RTP -/

/-- A parsed RTP packet. -/
structure Rtp where
  pt : Nat
  marker : Bool
  seq : BitVec 16
  ts : Word
  ssrc : Word
  payload : Bytes
  deriving DecidableEq, Repr

/-- The RTP header; none for a wrong version or a malformed header (Table 3.6). -/
def parseRtp (d : Bytes) : Option Rtp :=
  let b0 := beAt d 0 1
  let cc := b0 % 16
  let x := bitOf b0 4
  let h1 := 12 + 4 * cc
  let ext := if x then 4 + 4 * beAt d (h1 + 2) 2 else 0
  let h := h1 + ext
  let pad := if bitOf b0 5 then beAt d (d.length - 1) 1 else 0
  if b0 / 64 ≠ 2 ∨ d.length < 12 ∨ d.length < h1 + (if x then 4 else 0) ∨ d.length < h + pad then none
  else some { pt := beAt d 1 1 % 128, marker := bitOf (beAt d 1 1) 7, seq := BitVec.ofNat 16 (beAt d 2 2),
              ts := BitVec.ofNat 32 (beAt d 4 4), ssrc := BitVec.ofNat 32 (beAt d 8 4),
              payload := (d.drop h).take (d.length - h - pad) }

/-! ### Payload formats (Table 3.4) -/

/-- What one packet brings to an access unit, in order. -/
inductive UnitPart where
  | whole (data : Bytes)
  | start (data : Bytes)
  | middle (data : Bytes)
  | finish (data : Bytes)
  | silent
  deriving DecidableEq, Repr

/-- The units of an aggregation packet: 16-bit sizes and units; none when a size runs over the end. -/
def aggUnits : Nat → Bytes → Option (List UnitPart)
  | 0, _ => some []
  | fuel + 1, b =>
    match b with
    | [] => some []
    | [_] => none
    | _ :: _ :: rest =>
      let n := beAt b 0 2
      if rest.length < n ∨ n = 0 then none
      else (aggUnits fuel (rest.drop n)).map fun l => .whole (rest.take n) :: l

/-- RFC 6184, packetization modes 0 and 1; none for an unsupported structure. -/
def depackH264 (p : Bytes) : Option (List UnitPart) :=
  match p with
  | [] => none
  | b0 :: rest =>
    let t := b0.toNat % 32
    if 1 ≤ t ∧ t ≤ 23 then some [.whole p]
    else if t = 24 then aggUnits p.length rest
    else if t = 28 then
      match rest with
      | [] => none
      | b1 :: data =>
        let hdr : Byte := (b0 &&& 0xE0) ||| (b1 &&& 0x1F)
        let st := b1.getLsbD 7
        let en := b1.getLsbD 6
        some [if st && en then .whole (hdr :: data) else if st then .start (hdr :: data)
              else if en then .finish data else .middle data]
    else none

/-- RFC 7798 with sprop-max-don-diff 0; none for an unsupported structure. -/
def depackH265 (p : Bytes) : Option (List UnitPart) :=
  match p with
  | b0 :: b1 :: rest =>
    let t := b0.toNat / 2 % 64
    if t ≤ 47 then some [.whole p]
    else if t = 48 then aggUnits p.length rest
    else if t = 49 then
      match rest with
      | [] => none
      | f :: data =>
        let hdr : Byte := (b0 &&& 0x81) ||| BitVec.ofNat 8 (f.toNat % 64 * 2)
        let st := f.getLsbD 7
        let en := f.getLsbD 6
        some [if st && en then .whole (hdr :: b1 :: data) else if st then .start (hdr :: b1 :: data)
              else if en then .finish data else .middle data]
    else none
  | _ => none

/-- A leb128 number and the bytes after it. -/
def leb128 : Nat → Bytes → Option (Nat × Bytes)
  | 0, _ => none
  | _ + 1, [] => none
  | fuel + 1, b :: rest =>
    if b.getLsbD 7 then (leb128 fuel rest).map fun r => (b.toNat % 128 + 128 * r.1, r.2)
    else some (b.toNat, rest)

/-- A number in leb128. -/
def toLeb128 : Nat → Nat → Bytes
  | 0, n => [BitVec.ofNat 8 (n % 128)]
  | fuel + 1, n => if n < 128 then [BitVec.ofNat 8 n] else BitVec.ofNat 8 (n % 128 + 128) :: toLeb128 fuel (n / 128)

/-- The OBU elements of an AV1 payload: sized, but for the last one when W gives the count. -/
def obuElems : Nat → Nat → Bytes → Option (List Bytes)
  | 0, _, _ => some []
  | fuel + 1, w, b =>
    if b.isEmpty then (if w = 0 then some [] else none)
    else if w = 1 then some [b]
    else match leb128 8 b with
      | none => none
      | some (n, rest) =>
        if rest.length < n then none
        else (obuElems fuel (w - 1) (rest.drop n)).map fun l => rest.take n :: l

/-- OBU type of an OBU header byte. -/
def obuType (b : Byte) : Nat := b.toNat / 8 % 16

/-- An OBU rewritten with obu_has_size_field 1 (R102). -/
def sizedObu (o : Bytes) : Bytes :=
  match o with
  | [] => []
  | h :: rest =>
    let ext := if h.getLsbD 2 then 1 else 0
    let body := rest.drop ext
    let data := if h.getLsbD 1 then (match leb128 8 body with | some (n, r) => r.take n | none => body) else body
    (h ||| 2) :: rest.take ext ++ toLeb128 8 data.length ++ data

/-- The AV1 RTP payload (Z, Y, W, N); none when an element runs over the end. -/
def depackAv1 (p : Bytes) : Option (List UnitPart) :=
  match p with
  | [] => none
  | a :: rest =>
    let z := a.getLsbD 7
    let y := a.getLsbD 6
    (obuElems (rest.length + 1) (a.toNat / 16 % 4) rest).map fun es =>
      (List.range es.length).map fun i =>
        let e := es.getD i []
        let cont := z && i == 0
        let more := y && i + 1 == es.length
        if cont && more then .middle e else if cont then .finish e else if more then .start e else .whole e

/-- One packet's payload under the stream's codec (R102); none for an unsupported structure. DESIGN CHOICE (log 160): an empty
payload, a fragment without its header byte and an aggregation whose lengths overrun the payload count as unsupported. -/
def depack (codec : Nat) (p : Bytes) : Option (List UnitPart) :=
  if codec = 0 then depackH264 p else if codec = 1 then depackH265 p else if codec = 2 then depackAv1 p else none

/-! ### RTCP (R110 to R112) -/

/-- A receiver report with one report block. -/
def rtcpRr (local' src : Word) (fraction cumulative high jitter lsr dlsr : Nat) : Bytes :=
  [0x81, 201, 0, 7] ++ beBytes 4 local'.toNat ++ beBytes 4 src.toNat ++ beBytes 1 fraction ++ beBytes 3 cumulative ++
    beBytes 4 high ++ beBytes 4 jitter ++ beBytes 4 lsr ++ beBytes 4 dlsr

/-- A receiver report with no block, for a context with no source yet. -/
def rtcpRrEmpty (local' : Word) : Bytes := [0x80, 201, 0, 1] ++ beBytes 4 local'.toNat

/-- Picture loss indication: PT 206, FMT 1 (R111). -/
def rtcpPli (local' src : Word) : Bytes := [0x81, 206, 0, 2] ++ beBytes 4 local'.toNat ++ beBytes 4 src.toNat

/-- The PID and BLP pairs that cover a rising list of sequence numbers (RFC 4585). -/
def nackPairs : Nat → List (BitVec 16) → List (Nat × Nat)
  | 0, _ => []
  | _ + 1, [] => []
  | fuel + 1, p :: rest =>
    let inBlp := rest.filter fun q => decide ((q - p).toNat ≤ 16)
    let blp := inBlp.foldl (fun a q => a ||| 2 ^ ((q - p).toNat - 1)) 0
    (p.toNat, blp) :: nackPairs fuel (rest.filter fun q => decide (16 < (q - p).toNat))

/-- Generic NACK: PT 205, FMT 1 (R110). -/
def rtcpNack (local' src : Word) (missing : List (BitVec 16)) : Bytes :=
  let pairs := nackPairs missing.length missing
  [0x81, 205] ++ beBytes 2 (2 + pairs.length) ++ beBytes 4 local'.toNat ++ beBytes 4 src.toNat ++
    pairs.flatMap fun p => beBytes 2 p.1 ++ beBytes 2 p.2

/-! ### Ports -/

/-- The MAC address of a port. -/
def State.portMac (s : State) (n : Nat) : Bytes :=
  beBytes 2 (s.rfld (Reg.NIX.MAC_HI n) 15 0) ++ beBytes 4 (s.reg (Reg.NIX.MAC_LO n)).toNat

/-- The port's link is UP. -/
def State.linkUp (s : State) (n : Nat) : Bool := decide (n < 12) && s.rfld (Reg.NIX.LINK_STATUS n) 2 0 == 3

/-- A port sends a frame: TX_FRAMES counts it. -/
def State.transmit (s : State) (n : Nat) (frame : Bytes) : State :=
  (s.emit (.eth n frame)).incW (Reg.NIX.TX_FRAMES n)

end Sys2Proof.Machine
end

