-- ==== Sys2Proof/Machine/TimeOps.lean ====
section
/-!
DEFINITION. Device time, phase and the passing of time (R12, R40 to R53): the tick of an idle step, and carrying the
clock forward to the moment of a timed event (log 1).
-/
namespace Sys2Proof.Machine

/-- 2^24 phase units make an epoch (R12). -/
def puMax : Nat := 2 ^ 24

/-- EPOCH_CFG.SRC: 0 NETWORK, 1 TRIGGER, 2 REPLAY. -/
def State.epochSrc (s : State) : Nat := s.rfld Reg.TMU.EPOCH_CFG 1 0

/-- PERIOD_NS. -/
def State.period (s : State) : Nat := (s.reg Reg.TMU.PERIOD_NS).toNat

/-- ORIGIN. -/
def State.origin (s : State) : Nat := s.reg64 Reg.TMU.ORIGIN_LO Reg.TMU.ORIGIN_HI

/-- The phase at device time t of an epoch that began at `start` and lasts `rate` ns; it holds at 0xFF_FFFF. -/
def phaseAt (start rate t : Nat) : Nat := if rate = 0 then 0 else min (puMax - 1) ((t - start) * puMax / rate)

/-- The first device time at which that epoch's phase is at least p. -/
def timeAt (start rate p : Nat) : Nat := start + ceilDiv (p * rate) puMax

/-- Epochs advance: TMU counts while it is RUNNING or STOPPING and has passed ORIGIN (R42). -/
def State.ticking (s : State) : Bool := (s.runState U.tmu == 1 || s.runState U.tmu == 2) && !s.clock.waiting

/-- The nanoseconds of correction taken while device time advances by d: one for every 5,000 ns of the local oscillator,
so that the phase rate is off by at most 200 ppm (R43). An advancing correction comes with the 5,000th local nanosecond,
which is device nanosecond 5,001; a retarding one holds device time still for that local nanosecond. -/
def slewSteps (slew : Int) (osc d : Nat) : Nat :=
  if 0 ≤ slew then min slew.natAbs ((osc + d) / 5001) else min slew.natAbs ((osc + d - 1) / 4999)

/-- What is left of the offset after some steps. -/
def slewAfter (slew : Int) (n : Nat) : Int := if 0 ≤ slew then slew - n else slew + n

/-- Local nanoseconds that pass while device time advances by d with n steps of correction. -/
def localNs (slew : Int) (d n : Nat) : Nat := if 0 ≤ slew then d - n else d + n

/-- Device time reaches t; the phase follows it, and part of the offset is slewed away (R43). -/
def Clock.at (c : Clock) (t : Nat) (p : Nat) : Clock :=
  let d := t - c.time.toNat
  let n := slewSteps c.slew (c.up % 5000) d
  { c with time := BitVec.ofNat 64 t, phase := BitVec.ofNat 24 p, slew := slewAfter c.slew n,
           up := c.up + localNs c.slew d n }

/-- Carry the clock forward to phase p of the epoch in progress, when the phase has not reached it and advances. -/
def State.toPhase (s : State) (p : Nat) : State :=
  if s.ticking ∧ s.clock.phase.toNat < p ∧ p < puMax then
    { s with clock := s.clock.at (Nat.max s.clock.time.toNat (timeAt s.clock.epochStart s.clock.rate p)) p }
  else s

/-- The phase has reached p (after carrying the clock). -/
def State.reached (s : State) (p : Nat) : Bool := decide (p ≤ s.clock.phase.toNat)

/-- Phase units since a phase of an epoch. -/
def State.puSince (s : State) (e : BitVec 40) (p : BitVec 24) : Nat :=
  (s.clock.epoch.toNat * puMax + s.clock.phase.toNat) - (e.toNat * puMax + p.toNat)

/-- Carry the clock until `pu` phase units have passed since a phase, within the epoch in progress; none when that
moment lies in a later epoch. -/
def State.afterPu (s : State) (e : BitVec 40) (p : BitVec 24) (pu : Nat) : Option State :=
  let el := s.puSince e p
  if pu ≤ el then some s
  else
    let t := s.clock.phase.toNat + (pu - el)
    if s.ticking ∧ t < puMax then some (s.toPhase t) else none

/-- Carry the clock forward to device time t, when time runs and has not reached it; the phase follows, within the
epoch in progress. In REPLAY mode device time follows the phase, and stands with it at 0xFF_FFFF (R51). -/
def State.toTime (s : State) (t : Nat) : State :=
  let c := s.clock
  let t := if s.epochSrc = 2 ∧ s.ticking then Nat.min t (timeAt c.epochStart c.rate (puMax - 1)) else t
  if s.runState U.tmu ≠ 3 ∧ c.time.toNat < t then
    let p := if s.ticking then phaseAt c.epochStart c.rate t else c.phase.toNat
    { s with clock := c.at t (Nat.max p c.phase.toNat) }
  else s

/-- Whether device time runs: from cold reset in every TMU run state except FAULTED (R46); in REPLAY mode it follows
the replayed phase instead while TMU runs (R51). -/
def State.timeRuns (s : State) : Bool := s.runState U.tmu != 3

/-- One nanosecond of the local oscillator (log 1): device time follows it, one nanosecond more or less at each 5,000th
while an offset is left to remove (R43), and the phase with it; before ORIGIN the phase holds at 0xFF_FFFF; in REPLAY
mode time stands while the phase holds (R51). -/
def State.tickClock (s : State) : State :=
  let c : Clock := { s.clock with up := s.clock.up + 1 }
  if !s.timeRuns then { s with clock := c }
  else
    if s.epochSrc = 2 ∧ s.ticking ∧ c.phase = 0xFFFFFF then { s with clock := c }
    else
      let t := c.time.toNat
      let adj : Int := if c.up % 5000 = 0 then c.slew.sign else 0
      let t' := ((t : Int) + 1 + adj).toNat
      let p := if s.ticking then phaseAt c.epochStart c.rate t' else c.phase.toNat
      { s with clock := { c with time := BitVec.ofNat 64 t', phase := BitVec.ofNat 24 (Nat.max p c.phase.toNat),
                                 slew := c.slew - adj } }

/-! ### TMU's run state (R42, R49, R51) -/

/-- TMU enters RUNNING (R42): NETWORK and TRIGGER compute epoch and phase from device time, or wait for ORIGIN; REPLAY
takes up REPLAY_TARGET as an epoch that has ended, with no correction left to make (R51). TRIGGER starts in acquisition
(R49). DESIGN CHOICE (log 156): device time in whole nanoseconds is the floor of R51's expression here, and where the
clock is carried to a phase (`timeAt`) it is the first whole nanosecond at which that phase is reached. -/
def State.tmuStart (s : State) : State :=
  let t := s.clock.time.toNat
  let p := s.period
  let o := s.origin
  let acq := s.epochSrc == 1
  let s := s.setFld Reg.TMU.SYNC_STATUS 2 2 (b2n acq)
  let c : Clock := { s.clock with rate := p, waiting := false, lastEdge := none, sinceEdge := 0 }
  if s.epochSrc = 2 then
    let k := c.replayTarget.toNat
    { s with clock := { c with slew := 0, epoch := c.replayTarget, phase := 0xFFFFFF, epochStart := o + k * p,
                               time := BitVec.ofNat 64 (o + k * p + (puMax - 1) * p / puMax) } }
  else if t < o then { s with clock := { c with epoch := 0, phase := 0xFFFFFF, waiting := true, epochStart := o } }
  else
    let k := (t - o) / p
    { s with clock := { c with epoch := BitVec.ofNat 40 k, phase := BitVec.ofNat 24 (phaseAt (o + k * p) p t),
                               epochStart := o + k * p } }

/-- TMU leaves RUNNING: it drives no trigger output. -/
def State.tmuStop (s : State) : State :=
  { s with power := { s.power with trigOut := 0 },
           clock := { s.clock with waiting := false, trigEnd := [none, none, none, none] } }

/-- A reset of TMU (R21, R22): count, phase and the target taken up are current work. -/
def State.tmuReset (s : State) : State :=
  let s := (s.tmuStop).setFld Reg.TMU.SYNC_STATUS 2 2 0
  { s with clock := { s.clock with epoch := 0, phase := 0, replayTarget := 0, lastEdge := none, sinceEdge := 0,
                                   trigCfg := Clock.reset.trigCfg } }

end Sys2Proof.Machine
end

