-- ==== Sys2Proof/Machine/IngressOps.lean ====
section
/-!
DEFINITION. Ingress operations (03_network_ingress): stream states, violations, RTCP, the reorder stage, the
assembler, slot assignment and the fate of a completed access unit (R92 to R112, R462, R463).
-/
namespace Sys2Proof.Machine

/-! ### Stream settings -/

/-- STREAM_CFG of context n. -/
def State.streamCfg (s : State) (n : Nat) : Word := s.reg (Reg.SCX.STREAM_CFG n)

/-- Frames per epoch: FRAMES_M1 + 1 (R105). -/
def State.phi (s : State) (n : Nat) : Nat := fld (s.streamCfg n) 3 2 + 1

/-- STREAM_CFG.CODEC. -/
def State.codecOf (s : State) (n : Nat) : Nat := fld (s.streamCfg n) 1 0

/-- RTP_TPE. -/
def State.tpe (s : State) (n : Nat) : Nat := s.rfld (Reg.SCX.RTP_TPE n) 23 0

/-- STREAM_DL[n].LAG. -/
def State.lag (s : State) (n : Nat) : Nat := s.rfld (Reg.PLE.STREAM_DL n) 25 24

/-- STATE.HOLD_REASON: 1 DIMENSION, 2 SSRC. -/
def State.holdReason (s : State) (n : Nat) : Nat := s.rfld (Reg.SCX.STATE n) 7 4

/-- Write SCX STATE; HOLD_REASON is 0 outside HELD (R92). -/
def State.setStream (s : State) (n st reason : Nat) : State := s.setNum (Reg.SCX.STATE n) (st + 16 * reason)

/-- A case of Table 3.6: its VIOL bit and PG_ERR.VIOLATION (R109). -/
def State.violation (s : State) (n bit : Nat) : State := (s.setBit (Reg.SCX.VIOL n) bit).raise (U.scx n) 8

/-! ### RTCP (R110 to R112) -/

/-- Where RTCP can leave: the context has matched a packet since it last left FREE, and that port is UP. -/
def State.rtcpPort (s : State) (n : Nat) : Option RtcpDest :=
  match (s.scxOf n).rtcp with
  | some d => if s.linkUp d.port.toNat then some d else none
  | none => none

/-- The receiver report block of RFC 3550 (log 24), and the report's effect on the interval counters. -/
def RtpStats.block (t : RtpStats) (now : Nat) : (Nat × Nat × Nat × Nat × Nat × Nat) × RtpStats :=
  let expected := t.high + 1 - t.base
  let ei := expected - t.expPrior
  let ri := t.received - t.recPrior
  let frac := if ei = 0 ∨ ei ≤ ri then 0 else (ei - ri) * 256 / ei % 256
  let dlsr := if t.lsr = 0 then 0 else (now - t.lsrTime) * 65536 / 1000000000
  ((frac, (expected - t.received) % 2 ^ 24, t.high, t.jitter16 / 16, t.lsr, dlsr),
   { t with expPrior := expected, recPrior := t.received })

/-- Send a compound RTCP packet, a receiver report and then `feedback`, with the addresses of R112. The fields of the
IP header that the manual does not give (DSCP, identification, TTL) are free values (log 26). -/
def State.sendRtcp (s : State) (n : Nat) (d : RtcpDest) (feedback : Word → Word → Bytes) : State :=
  let x := s.scxOf n
  let mine := s.reg (Reg.SCX.LOCAL_SSRC n)
  let src := s.reg (Reg.SCX.SSRC_LATCHED n)
  let b := x.stats.block s.clock.time.toNat
  let rr := if x.latched ∧ x.stats.received ≠ 0 then
      rtcpRr mine src b.1.1 b.1.2.1 b.1.2.2.1 b.1.2.2.2.1 b.1.2.2.2.2.1 b.1.2.2.2.2.2
    else rtcpRrEmpty mine
  let mux := tst (s.streamCfg n) 9
  let cfg := s.reg (Reg.SCX.MATCH_PORTS n)
  let sport := if mux then fld cfg 15 0 else (fld cfg 15 0 + 1) % 65536
  let dst := s.rfld (Reg.SCX.RTCP_DST n) 15 0
  let dport := if dst ≠ 0 then dst else if mux then d.srcPort.toNat else (d.srcPort.toNat + 1) % 65536
  let udp := buildUdp d.ip6 d.dstIp d.srcIp sport dport (rr ++ feedback mine src)
  let free := s.freeBits 30
  let ip := buildIp d.ip6 d.dstIp d.srcIp (bitsOf free.toNat 5 0) (bitsOf free.toNat 21 6) false (bitsOf free.toNat 29 22) udp
  let tag := d.vlan.map fun v => (s.rfld Reg.ING.RTCP_CFG 2 0, v.toNat)
  let f := buildEth d.mac (s.portMac d.port.toNat) tag (ipType d.ip6) ip
  (s.drawn.setScx n { x with stats := b.2 }).transmit d.port.toNat f

/-- PLI_SEND (R111): with PLI_EN, at most one within PLI_HOLDOFF epochs; one that cannot leave is discarded. -/
def State.pli (s : State) (n : Nat) : State :=
  let x := s.scxOf n
  let hold := s.rfld Reg.ING.RTCP_CFG 15 8
  let free : Bool := match x.lastPli with
    | some e => decide (hold ≤ s.clock.epoch.toNat - e.toNat)
    | none => true
  if tst (s.streamCfg n) 8 ∧ free then
    match s.rtcpPort n with
    | none => s
    | some d =>
      let s := s.sendRtcp n d rtcpPli
      (s.setScx n { s.scxOf n with lastPli := some s.clock.epoch }).incW (Reg.SCX.PLI_SENT n)
  else s

/-! ### Entering stream states (R92, R94, R95) -/

/-- Return every chain of a context: its delivered units and the unit under assembly. -/
def State.returnAll (s : State) (n : Nat) : State :=
  let x := s.scxOf n
  let s := x.aus.foldl (fun s a => s.ingReturn n a.cells) s
  match x.asm with
  | some a => s.ingReturn n a.cells
  | none => s

/-- A context enters FREE (R94): its cells go back, SSRC_LATCHED, SEQ and the reorder state clear, counters and the holdoff
of R111 stay. -/
def State.enterFree (s : State) (n : Nat) : State :=
  let s := s.returnAll n
  let s := (s.setNum (Reg.SCX.SSRC_LATCHED n) 0).setNum (Reg.SCX.SEQ n) 0
  (s.setScx n { Scx.free with lastPli := (s.scxOf n).lastPli }).setStream n 0 0

/-- A context enters ACTIVE from ADMITTED (R95, R106): a PLI, and it waits for a random-access unit. -/
def State.enterActive (s : State) (n : Nat) : State :=
  let s := s.setStream n 2 0
  (s.setScx n { s.scxOf n with waitRa := true, anchored := false }).pli n

/-- A context enters HELD, or its HOLD_REASON changes (R95): a PLI, and it waits for a random-access unit. -/
def State.enterHeld (s : State) (n reason : Nat) : State :=
  let s := s.setStream n 3 reason
  (s.setScx n { s.scxOf n with waitRa := true }).pli n

/-! ### The assembler (R102 to R104, R121) -/

/-- BYTES of a unit under assembly: payload with length prefixes, an open fragmented unit included. -/
def Assembly.bytes (a : Assembly) : Nat :=
  a.data.length + (match a.partUnit with | some u => u.length + 4 | none => 0)

/-- Random access so far (R95): an IDR or IRAP picture; in AV1 a sequence header and a shown key frame. -/
def Assembly.randomAccess (a : Assembly) : Bool := a.ra || (a.seqHdr && a.key)

/-- Append one complete unit with its length prefix (R102) and note what it says of random access (R95); AV1 tile
lists are dropped silently (Table 3.4). -/
def Assembly.addUnit (a : Assembly) (codec : Nat) (u : Bytes) : Assembly :=
  let t0 := u.headD 0
  if codec = 2 ∧ obuType t0 = 8 then a
  else
    let v := if codec = 2 then sizedObu u else u
    let body := if codec = 2 then
        (match leb128 8 (v.drop (1 + b2n (t0.getLsbD 2))) with | some r => r.2 | none => []) else []
    { a with
      data := a.data ++ beBytes 4 v.length ++ v
      units := a.units + 1
      ra := a.ra || (codec == 0 && t0.toNat % 32 == 5) ||
        (codec == 1 && decide (16 ≤ t0.toNat / 2 % 64 ∧ t0.toNat / 2 % 64 ≤ 21))
      seqHdr := a.seqHdr || (codec == 2 && obuType t0 == 1)
      key := a.key || (codec == 2 && (obuType t0 == 3 || obuType t0 == 6) && (body.headD 0).toNat / 16 == 1) }

/-- Broken fragmentation (Table 3.6): the partial unit is discarded, the access unit continues with FRAG and LOSS. -/
def Assembly.broken (a : Assembly) : Assembly := { a with partUnit := none, frag := true, loss := true }

/-- One part of a packet (R102, Table 3.6), and whether it met broken fragmentation. -/
def Assembly.part (a : Assembly) (codec : Nat) (p : UnitPart) : Assembly × Bool :=
  let opened := a.partUnit.isSome
  match p with
  | .whole u => if opened then (a.broken.addUnit codec u, true) else (a.addUnit codec u, false)
  | .start u =>
    if opened then ({ a.broken with partUnit := some u }, true) else ({ a with partUnit := some u }, false)
  | .middle d =>
    match a.partUnit with
    | some u => if a.gap then (a.broken, true) else ({ a with partUnit := some (u ++ d) }, false)
    | none => (a.broken, true)
  | .finish d =>
    match a.partUnit with
    | some u => if a.gap then (a.broken, true) else ({ a with partUnit := none }.addUnit codec (u ++ d), false)
    | none => (a.broken, true)
  | .silent => (a, false)

/-- All parts of a packet. -/
def Assembly.parts (a : Assembly) (codec : Nat) (l : List UnitPart) : Assembly × Bool :=
  l.foldl (fun r p => let q := r.1.part codec p; (q.1, r.2 || q.2)) (a, false)

/-- The unit that a packet opens. -/
def Assembly.opened (p : Packet) : Assembly :=
  { ts := p.ts, seqFirst := p.seq, seqLast := p.seq, units := 0, data := [], partUnit := none, cells := [],
    time := p.time, epoch := p.epoch, phase := p.phase, lastEpoch := p.epoch, lastPhase := p.phase, seqHdr := false,
    key := false, ra := false, frag := false, loss := false, gap := false, drop := false }

/-- Cells of a unit of `n` bytes with its descriptor (R121). -/
def cellsFor (n : Nat) : Nat := ceilDiv (n + 32) 248

/-! ### Slots (R105 to R108) -/

/-- The timestamp difference in slots, to the nearest (R105). -/
def nearestSlot (d : Int) (phi tpe : Nat) : Int := (2 * d * phi + tpe) / (2 * tpe : Nat)

/-- The slot that the ARRIVAL formula gives (R105). -/
def State.arrivalSlot (s : State) (n : Nat) (a : Assembly) : Int :=
  ((a.epoch.toNat * s.phi n + a.phase.toNat * s.phi n / puMax : Nat) : Int) - (fld (s.streamCfg n) 12 10 : Nat)

/-- Anchor to a unit whose slot is `slot` (R106): ANCHOR_EPOCH is its epoch, ANCHOR_TS its timestamp less SUB × TPE / φ. -/
def State.anchorAt (s : State) (n : Nat) (ts : Word) (slot : Int) : State :=
  let phi := s.phi n
  let c := wrapN 40 (slot / phi)
  let sub := (slot % phi).toNat
  let s := (s.setNum (Reg.SCX.ANCHOR_EPOCH_LO n) c).setNum (Reg.SCX.ANCHOR_EPOCH_HI n) (c / 2 ^ 32)
  s.setReg (Reg.SCX.ANCHOR_TS n) (ts - BitVec.ofNat 32 (sub * s.tpe n / phi))

/-- JUMP_MAX × φ; JUMP_MAX 0 acts as 1 (Table 3.8). -/
def State.jumpMax (s : State) (n : Nat) : Int := ((Nat.max 1 (s.rfld Reg.ING.JUMP_MAX 3 0) * s.phi n : Nat) : Int)

/-- The slot of a completed unit (R105 to R107): the slot (none for a duplicate slot), whether TS_JUMP is set, whether
the unit anchors the stream once it is delivered, and the state after a re-anchoring. With RTP_TPE 0 the formula has
no value, and the slot is free (log 27). DEDUCED (log 159): between a change of source and the new anchor a unit that
does not anchor is placed by the old ANCHOR_TS and ANCHOR_EPOCH (R96), and a jump re-anchors under R107 with ANCHOR_AUTO 0
too (Table 3.9: ANCHOR_TS is updated under R106 and R107). -/
def State.slotOf (s : State) (n : Nat) (a : Assembly) : Option Int × Bool × Bool × State :=
  let x := s.scxOf n
  let tpe := s.tpe n
  let cfg := s.streamCfg n
  let dup (slot : Int) : Bool := match x.prev with | some p => p.1 == slot | none => false
  let arr := s.arrivalSlot n a
  if tst cfg 4 then
    if dup arr then (none, false, false, s)
    else match x.prev with
      | none => (some arr, false, false, s)
      | some p =>
        if tpe = 0 then (some arr, false, false, s)
        else
          let adv := nearestSlot (signedN 32 (a.ts - p.2).toNat) (s.phi n) tpe
          (some arr, decide (adv < 1 ∨ s.jumpMax n < adv), false, s)
  else if tst cfg 5 && !x.anchored && a.randomAccess then
    if dup arr then (none, false, false, s) else (some arr, false, true, s)
  else
    let (rel, s) := if tpe = 0 then (signedN 32 (s.freeBits 32).toNat, s.drawn)
      else (nearestSlot (signedN 32 (a.ts - s.reg (Reg.SCX.ANCHOR_TS n)).toNat) (s.phi n) tpe, s)
    let anchor := (s.reg (Reg.SCX.ANCHOR_EPOCH_LO n)).toNat + 2 ^ 32 * s.rfld (Reg.SCX.ANCHOR_EPOCH_HI n) 7 0
    let slot : Int := ((anchor * s.phi n : Nat) : Int) + rel
    match x.prev with
    | none => (some slot, false, false, s)
    | some p =>
      if slot = p.1 then (none, false, false, s)
      else if slot < p.1 ∨ s.jumpMax n < slot - p.1 then (some (p.1 + 1), true, false, s.anchorAt n a.ts (p.1 + 1))
      else (some slot, false, false, s)

/-! ### The end of an access unit (R103, R463) -/

/-- The 32-byte access-unit descriptor (Table 3.5). -/
def auDescriptor (a : Assembly) (slot : Int) (phi : Nat) (jump noMarker : Bool) : Bytes :=
  let c := wrapN 40 (slot / phi)
  let sub := (slot % phi).toNat
  leBytes 4 a.ts.toNat ++ leBytes 4 (a.seqFirst.toNat * 65536 + a.seqLast.toNat) ++ leBytes 5 c ++ leBytes 1 (sub * 64) ++
    leBytes 2 a.units ++ leBytes 4 a.data.length ++ leBytes 8 a.time.toNat ++
    leBytes 4 (b2n a.randomAccess * 32 + b2n a.frag * 16 + b2n jump * 8 + b2n noMarker * 4 + b2n a.loss * 2)

/-- What the chain of a unit under assembly holds (R103, R121): the descriptor as far as it is known, its slot apart, and the
payload with the open fragmented unit. -/
def Assembly.image (a : Assembly) : Bytes :=
  auDescriptor a 0 1 false false ++ a.data ++ (match a.partUnit with | some u => beBytes 4 u.length ++ u | none => [])

/-- The chain of a unit under assembly is filled; cells that it no longer needs are a chain of their own, which goes back
(R121, R124). -/
def State.fillChain (s : State) (n : Nat) (a : Assembly) : State × Assembly :=
  let need := cellsFor a.bytes
  let a' : Assembly := { a with cells := a.cells.take need }
  ((s.writeChain n a'.cells a'.image).ingReturn n (a.cells.drop need), a')

/-- A unit is discarded: it counts once in AU_DROP, sets its VIOL bit, and its chain goes back (R124, R463). -/
def State.discardAu (s : State) (n : Nat) (cells : List Nat) (viol : Option Nat) (ask : Bool) : State :=
  let s := s.incW (Reg.SCX.AU_DROP n)
  let s := match viol with | some b => s.violation n b | none => s
  let s := s.ingReturn n cells
  if ask then s.pli n else s

/-- A delivered unit whose slot is lowest. -/
def oldestAu (l : List AccessUnit) : Option AccessUnit :=
  l.foldl (fun o a => match o with | none => some a | some b => if a.slot < b.slot then some a else o) none

/-- Delivery of a completed unit (R463 step 5, R96, R108). -/
def State.deliverAu (s : State) (n : Nat) (a : Assembly) (slot : Int) (jump noMarker anchors : Bool) : State :=
  let phi := s.phi n
  let s := if anchors then
      let s := s.anchorAt n a.ts slot
      s.setScx n { s.scxOf n with anchored := true }
    else s
  let s := s.writeChain n a.cells (auDescriptor a slot phi jump noMarker ++ a.data)
  let au : AccessUnit :=
    { slot := slot, epoch := BitVec.ofNat 40 (wrapN 40 (slot / phi)), sub := BitVec.ofNat 2 (slot % phi).toNat,
      rtpTs := a.ts, ra := a.randomAccess, frag := a.frag, tsJump := jump, noMarker := noMarker, loss := a.loss,
      cells := a.cells, bytes := a.data.length }
  let x := s.scxOf n
  let s := s.setScx n { x with aus := x.aus ++ [au], prev := some (slot, a.ts), waitRa := x.waitRa && !a.randomAccess }
  let s := if a.randomAccess ∧ s.streamState n = 3 ∧ s.holdReason n = 2 then s.setStream n 2 0 else s
  let s := s.incW (if a.loss then Reg.SCX.AU_LOSS n else Reg.SCX.AU_OK n)
  let x := s.scxOf n
  if s.lag n + 2 < x.aus.length then
    match oldestAu x.aus with
    | some o =>
      let s := s.setScx n { x with aus := x.aus.filter fun b => b != o }
      ((s.incW (Reg.SCX.AU_DROP n)).violation n 10).ingReturn n o.cells
    | none => s
  else s

/-- AU_COMPLETE (R463): the fate of a completed unit, in the order of its steps. -/
def State.completeAu (s : State) (n : Nat) (a : Assembly) (noMarker : Bool) : State :=
  let wait := (s.scxOf n).waitRa
  if s.streamState n = 1 then s.discardAu n a.cells none false
  else if wait && !a.randomAccess then s.discardAu n a.cells (some 11) true
  else if a.loss && tst (s.streamCfg n) 6 then s.discardAu n a.cells none wait
  else
    let r := s.slotOf n a
    let s := r.2.2.2
    match r.1 with
    | none => s.discardAu n a.cells (some 10) wait
    | some slot =>
      let s := if r.2.1 then s.violation n 3 else s
      let c := slot / s.phi n
      let now : Int := s.clock.epoch.toNat
      if now + 1 < c ∨ c + s.lag n < now then s.discardAu n a.cells (some 10) wait
      else s.deliverAu n a slot r.2.1 noMarker r.2.2.1

/-- The unit under assembly ends (R103): an open fragment is broken, cells it no longer needs go back, and the unit
completes. An oversize unit has been discarded already. -/
def State.endAu (s : State) (n : Nat) (noMarker : Bool) : State :=
  let x := s.scxOf n
  match x.asm with
  | none => s
  | some a =>
    let s := s.setScx n { x with asm := none }
    if a.drop then (if noMarker then s.violation n 4 else s)
    else
      let s := if a.partUnit.isSome then s.violation n 7 else s
      let a := if a.partUnit.isSome then a.broken else a
      let s := if noMarker then s.violation n 4 else s
      let f := s.fillChain n a
      f.1.completeAu n f.2 noMarker

/-! ### The reorder stage (R101) -/

/-- A lost sequence number is charged under R104, in its place in the sequence: to the unit under assembly, and to the next
one if the gap ends it, or to the next unit when none is open. -/
def State.chargeLoss (s : State) (n : Nat) : State :=
  let x := s.scxOf n
  match x.asm with
  | some a => s.setScx n { x with asm := some { a with loss := true, gap := true } }
  | none => s.setScx n { x with lossNext := true }

/-- A sequence number is declared lost: LOST_PKT, and the loss is charged. -/
def State.declareLost (s : State) (n : Nat) : State := (s.incW (Reg.SCX.LOST_PKT n)).chargeLoss n

/-- Keep the assembled packet: end the previous unit where the timestamp changed, charge losses, fill its cells, note
violations. -/
def State.keepPacket (s : State) (n : Nat) (p : Packet) (a : Assembly) (fresh unsupported brokenFrag tooBig : Bool) : State :=
  let x := s.scxOf n
  let follow := match x.asm with | some o => fresh && o.gap | none => false
  let s := if fresh ∧ x.asm.isSome then s.endAu n true else s
  let x := s.scxOf n
  let a := { a with loss := a.loss || (fresh && (x.lossNext || follow)), gap := false, seqLast := p.seq,
                    lastEpoch := p.epoch, lastPhase := p.phase }
  let f := if tooBig ∨ a.drop then (s, a) else s.fillChain n a
  let s := f.1
  let a := f.2
  let s := s.setScx n { s.scxOf n with asm := some a, lossNext := x.lossNext && !fresh }
  let s := if unsupported then s.violation n 8 else s
  let s := if brokenFrag then s.violation n 7 else s
  if tooBig then
    let x := s.scxOf n
    let s := s.setScx n { x with asm := some { a with drop := true, cells := [], data := [], partUnit := none } }
    s.discardAu n a.cells (some 6) true
  else s

/-- A packet in sequence order reaches the assembler (R102, R103, R109, R462); cells that it drew before an allocation failed
have taken its bytes, and go back. -/
def State.deliverPacket (s : State) (n : Nat) (p : Packet) : State :=
  let x := s.scxOf n
  let fresh := match x.asm with | some a => a.ts != p.ts | none => true
  let base := match x.asm with | some a => if a.ts = p.ts then a else Assembly.opened p | none => Assembly.opened p
  let fin (s : State) : State := if p.marker then s.endAu n false else s
  if base.drop then fin (s.keepPacket n p base fresh false false false)
  else
    let parts := depack (s.codecOf n) p.payload
    let r := match parts with
      | some l => base.parts (s.codecOf n) l
      | none => ({ base with loss := true }, false)
    let a := r.1
    if s.rfld (Reg.SCX.MAX_AU n) 23 0 < a.bytes then fin (s.keepPacket n p a fresh parts.isNone r.2 true)
    else
      let g := State.grantCells (cellsFor a.bytes - base.cells.length) s
      let s := g.2.2
      if g.2.1 then fin (s.keepPacket n p { a with cells := base.cells ++ g.1 } fresh parts.isNone r.2 false)
      else
        let s := s.writeChain n g.1 (a.image.drop (248 * base.cells.length)) false
        ((s.ingReturn n g.1).raise U.ing 8).declareLost n

/-- Deliver what is due: packets in sequence, and numbers lost because the highest number passed them by 64 (R101); one that
the policer discarded was lost then, and its loss is charged here. -/
def State.drainReorder (n : Nat) : Nat → State → State
  | 0, s => s
  | fuel + 1, s =>
    let x := s.scxOf n
    match x.next with
    | none => s
    | some nx =>
      match x.held.find? (fun p => p.seq = nx) with
      | some p =>
        let s := s.setScx n { x with next := some (nx + 1), held := x.held.filter (fun q => q.seq ≠ nx),
                                     gaps := x.gaps.filter (· ≠ nx) }
        State.drainReorder n fuel (if p.dropped then s.chargeLoss n else s.deliverPacket n p)
      | none =>
        let high := BitVec.ofNat 16 (s.rfld (Reg.SCX.SEQ n) 15 0)
        if !x.held.isEmpty ∧ 64 ≤ (high - nx).toNat ∧ (high - nx).toNat < 32768 then
          let s := s.setScx n { x with next := some (nx + 1), gaps := x.gaps.filter (· ≠ nx) }
          State.drainReorder n fuel (s.declareLost n)
        else s

/-- Distance of a sequence number from another, signed. -/
def seqDist (a b : BitVec 16) : Int := signedN 16 (a - b).toNat

/-- Update the source statistics with an accepted packet (RFC 3550; log 24). -/
def RtpStats.note (t : RtpStats) (seq : BitVec 16) (ts : Word) (arrival : Nat) : RtpStats :=
  let first := t.received = 0
  let d := seqDist seq (BitVec.ofNat 16 t.high)
  let high := if first then seq.toNat else if 0 < d then t.high + d.toNat else t.high
  let tr := (arrival + 2 ^ 32 - ts.toNat) % 2 ^ 32
  let j := match t.transit with
    | Option.none => t.jitter16
    | some o => t.jitter16 + (signedN 32 (tr + 2 ^ 32 - o)).natAbs - (t.jitter16 + 8) / 16
  { t with base := if first then seq.toNat else t.base, high := high, received := t.received + 1, jitter16 := j,
           transit := some tr }

/-- A packet enters the reorder stage (R101): late, or held in its place; numbers it passes are missing (GAP). The number of
a packet the policer discarded is lost at once (Table 3.6), and takes its place until its loss is charged (log 28).
DEDUCED (log 28): a packet older than the first one received, whose number was neither lost nor delivered, is LATE too,
since the sequence starts with the first packet. -/
def State.reorder (s : State) (n : Nat) (p : Packet) : State :=
  let x := s.scxOf n
  let nx := x.next.getD p.seq
  if 0 > seqDist p.seq nx ∨ x.held.any (fun q => q.seq = p.seq) then
    if p.dropped then s else (s.incW (Reg.SCX.LATE_PKT n)).violation n 2
  else
    let valid := s.rbit (Reg.SCX.SEQ n) 31
    let high := BitVec.ofNat 16 (s.rfld (Reg.SCX.SEQ n) 15 0)
    let ahead := if valid then seqDist p.seq high else 1
    let skipped := (List.range (ahead.toNat - 1)).map fun i => high + BitVec.ofNat 16 (i + 1)
    let arrival := if s.period = 0 then 0 else p.time.toNat * s.tpe n / s.period
    let s := if 0 < ahead then s.setNum (Reg.SCX.SEQ n) (2 ^ 31 + p.seq.toNat) else s
    let s := s.setScx n { x with next := some nx, held := x.held ++ [p],
                                 gaps := (if valid then x.gaps ++ skipped else x.gaps).filter (· ≠ p.seq),
                                 stats := x.stats.note p.seq p.ts arrival }
    let s := if valid ∧ 1 < ahead then s.violation n 1 else s
    let s := s.when p.dropped fun s => s.incW (Reg.SCX.LOST_PKT n)
    State.drainReorder n 131072 s

/-! ### Classification (R96, R97, R99) -/

/-- Four words of an address register array, most significant first. -/
def State.addrWords (s : State) (a : Nat → Nat) (ip6 : Bool) : Bytes :=
  if ip6 then (List.range 4).flatMap fun i => beBytes 4 (s.reg (a i)).toNat else beBytes 4 (s.reg (a 0)).toNat

/-- The packet is RTCP for the context (R99). -/
def State.isRtcp (s : State) (n : Nat) (u : Udp) : Bool :=
  let dp := s.rfld (Reg.SCX.MATCH_PORTS n) 15 0
  if tst (s.streamCfg n) 9 then decide (200 ≤ beAt u.data 1 1 ∧ beAt u.data 1 1 ≤ 206) else u.dport == dp + 1

/-- The packet matches the context (R97). -/
def State.matchCtx (s : State) (n port : Nat) (f : EthFrame) (u : Udp) : Bool :=
  let cfg := s.reg (Reg.SCX.MATCH_CFG n)
  let ports := s.reg (Reg.SCX.MATCH_PORTS n)
  let dp := fld ports 15 0
  let mux := tst (s.streamCfg n) 9
  let rtcp := s.isRtcp n u
  let second := u.dport == dp + 1
  let vl := s.reg (Reg.SCX.MATCH_VLAN n)
  tst cfg port && (tst cfg 12 == u.ip6) && (u.dst == s.addrWords (Reg.SCX.MATCH_DIP n) u.ip6) &&
  (u.dport == dp || (!mux && decide (dp < 65535) && second)) &&
  (!tst cfg 13 || f.vlan == some (BitVec.ofNat 12 (fld vl 11 0))) &&
  (!tst cfg 14 || u.src == s.addrWords (Reg.SCX.MATCH_SIP n) u.ip6) &&
  (!tst cfg 15 || u.sport == (if second then (fld ports 31 16 + 1) % 65536 else fld ports 31 16)) &&
  (!tst cfg 16 || beAt u.data (if rtcp then 4 else 8) 4 == (s.reg (Reg.SCX.MATCH_SSRC n)).toNat) &&
  (!tst cfg 17 || rtcp || beAt u.data 1 1 % 128 == fld vl 22 16)

/-- The lowest-numbered matching context that is not FREE and is RUNNING (R97). -/
def State.classify (s : State) (port : Nat) (f : EthFrame) (u : Udp) : Option Nat :=
  (List.range 256).find? fun n => s.streamState n != 0 && s.running (U.scx n) && s.matchCtx n port f u

/-- RTCP of the context takes the port and addresses of a matched packet (R112). -/
def State.setRtcp (s : State) (n : Nat) (d : RtcpDest) : State := s.setScx n { s.scxOf n with rtcp := some d }

/-- Where RTCP goes after a packet of the stream (R112): back to its port and source; `srcPort` is the source port of the
stream's RTP, one below that of RTCP on a port of its own (R97; log 93). -/
def State.replyTo (s : State) (n port : Nat) (f : EthFrame) (u : Udp) : RtcpDest :=
  let rtcp := s.isRtcp n u && !tst (s.streamCfg n) 9
  { port := BitVec.ofNat 4 port, mac := f.smac, vlan := f.vlan, ip6 := u.ip6, srcIp := u.src, dstIp := u.dst,
    srcPort := BitVec.ofNat 16 u.sport - (if rtcp then 1 else 0) }

/-- RTCP_RX (R99): a sender report's timestamp is kept for receiver reports; everything else is discarded. DEDUCED (log 93):
a matched RTCP packet gives the context its port for RTCP (R112), and counts as a packet of no SSRC for R96, which
speaks of packets that carry the latched or another SSRC. -/
def State.rtcpRx (s : State) (n : Nat) (dest : RtcpDest) (d : Bytes) : State :=
  let s := s.setRtcp n dest
  if beAt d 1 1 = 200 ∧ 20 ≤ d.length then
    let x := s.scxOf n
    s.setScx n { x with stats := { x.stats with lsr := beAt d 10 4, lsrTime := s.clock.time.toNat } }
  else s

/-- Note an SSRC that matched the context in this epoch (R96). -/
def noteSsrc (l : List HeardSsrc) (h : HeardSsrc) : List HeardSsrc :=
  if l.any (fun e => e.ssrc = h.ssrc) then l.map fun e => if e.ssrc = h.ssrc then h else e else l ++ [h]

/-- An RTP packet of a context (R95, R96, R100, R101, Table 3.6). RTCP follows the stream's packets, those of another SSRC
apart (R112; log 93). DEDUCED (log 160): a malformed packet and one of another SSRC are discarded before the policer, which
takes no bytes for them. -/
def State.rtpRx (s : State) (n port : Nat) (f : EthFrame) (u : Udp) : State :=
  let s := s.incW (Reg.SCX.RX_PKT n)
  let d := s.replyTo n port f u
  match parseRtp u.data with
  | none => (s.setRtcp n d).violation n 0
  | some r =>
    let x := s.scxOf n
    let s := s.setScx n { x with seen := noteSsrc x.seen { ssrc := r.ssrc, time := s.clock.time, dest := d } }
    let x := s.scxOf n
    if x.latched ∧ s.reg (Reg.SCX.SSRC_LATCHED n) ≠ r.ssrc then s.violation n 5
    else
      let s := if x.latched then s else
        (s.setReg (Reg.SCX.SSRC_LATCHED n) r.ssrc).setScx n { x with latched := true }
      let s := s.setRtcp n d
      let x := s.scxOf n
      let len := u.data.length
      let ok := decide (len ≤ x.bucket)
      let p : Packet := { seq := r.seq, ts := r.ts, marker := r.marker, payload := r.payload, time := s.clock.time,
                          epoch := s.clock.epoch, phase := s.clock.phase, dropped := !ok }
      let s := if ok then s.setScx n { x with bucket := x.bucket - len }
        else (s.incW (Reg.SCX.POLICE_DROP n)).violation n 9
      s.reorder n p

/-- PACKET_CLASSIFY (R97 to R99): ING checks IP and UDP and gives the packet to its context. DESIGN CHOICE (log 160): an IP
or UDP packet whose lengths contradict each other matches no context and counts in UNMATCHED_CNT. -/
def State.ingest (s : State) (port : Nat) (f : EthFrame) : State :=
  match parseIp f with
  | .ipDrop => s.incW Reg.ING.IP_DROP_CNT
  | .csumErr => s.incW Reg.ING.CSUM_ERR_CNT
  | .other => s.incW Reg.ING.UNMATCHED_CNT
  | .udp u =>
    match s.classify port f u with
    | none => s.incW Reg.ING.UNMATCHED_CNT
    | some n => if s.isRtcp n u then s.rtcpRx n (s.replyTo n port f u) u.data else s.rtpRx n port f u

end Sys2Proof.Machine
end

