-- ==== Sys2Proof/Machine/PepOps.lean ====
section
/-!
DEFINITION. Operations of the PCIe endpoint (13_host_interface) and of the windows that SEC sets for it (R371):
attention and INTx, requests to host memory, rings, fences, host loss.
-/
namespace Sys2Proof.Machine

/-! ### Attention (R356) -/

/-- HOSTLOSS_STATUS.STATE: 0 NORMAL, 1 FROZEN, 2 GONE. -/
def State.hostState (s : State) : Nat := s.rfld Reg.PEP.HOSTLOSS_STATUS 1 0

/-- The conditions under which INTA is asserted. -/
def State.wantInta (s : State) : Bool := (s.reg Reg.PEP.ATTN_STATUS &&& s.reg Reg.PEP.ATTN_EN) != 0 && !s.pep.cfg.intDisable

/-- LINK_STATUS.PM: 0 L0, 1 L0p, 2 L1, 3 L1.1, 4 L1.2, 5 D3hot. -/
def State.linkPm (s : State) : Nat := s.rfld Reg.PEP.LINK_STATUS 14 12

/-- The link leaves L1 or its substates before a TLP passes, for there is no traffic in them (Table 13.10). -/
def State.leaveL1 (s : State) : State :=
  s.when (decide (2 ≤ s.linkPm ∧ s.linkPm ≤ 4)) fun s => s.setFld Reg.PEP.LINK_STATUS 14 12 0

/-- INTA_CHANGE (R356, R361): a message on a change only, and none in FROZEN, GONE or D3hot. -/
def State.updInta (s : State) : State :=
  if s.hostState ≠ 0 ∨ s.pep.cfg.d3hot ∨ s.wantInta = s.pep.inta then s
  else ({ s with pep := { s.pep with inta := s.wantInta } } : State).leaveL1.emit (.intx s.wantInta)

/-- Set a bit of ATTN_STATUS. -/
def State.attn (s : State) (bit : Nat) : State := (s.setBit Reg.PEP.ATTN_STATUS bit).updInta

/-! ### Requests to host memory (R358, R369, R371) -/

/-- The PCIe link is in L0 or a state entered from it (Table 13.13, LINK_STATUS.STATE 3). -/
def State.hostLinkUp (s : State) : Bool := s.rfld Reg.PEP.LINK_STATUS 3 0 == 3

/-- The device may issue requests to host memory now: sealed, the link up, NORMAL, in D0, with Bus Master Enable and PEP
running. -/
def State.canIssue (s : State) : Bool :=
  s.isSealed && s.hostLinkUp && s.hostState == 0 && s.pep.cfg.busMaster && !s.pep.cfg.d3hot && s.running U.pep

/-- A read of host memory may leave: a tag is free, of 2^14 in Flit mode and 2^10 otherwise (Table 13.1). -/
def State.canRead (s : State) : Bool :=
  s.canIssue && decide (s.pep.reads.length < 2 ^ (if s.rbit Reg.PEP.LINK_STATUS 15 then 14 else 10))

/-- One requester window of a class allows the access. -/
def State.winHas (s : State) (cls : Nat) (write : Bool) (addr len w : Nat) : Bool :=
  let lo := s.reg (Reg.SEC.REQ_WIN_LO cls w)
  let base := fld lo 31 12 * 4096 + 2 ^ 32 * (s.reg (Reg.SEC.REQ_WIN_HI cls w)).toNat
  tst lo (if write then 1 else 0) &&
    decide (base ≤ addr ∧ addr + len ≤ base + 4096 * (s.reg (Reg.SEC.REQ_WIN_SIZE cls w)).toNat)

/-- The access lies wholly within one window of its class (R371). -/
def State.winOk (s : State) (cls : Nat) (write : Bool) (addr len : Nat) : Bool :=
  (List.range 16).any fun w => s.winHas cls write addr len w

/-- WINDOW_CHECK_FAIL (R371): PEP's and SEC's PG_ERR.WINDOW, WIN_FAULT for the first refused access, WIN_FAULT_CNT. -/
def State.winFail (s : State) (cls : Nat) (write fence : Bool) (n : Nat) : State :=
  let s := (s.raise U.pep 14).raise U.sec 8
  let s := s.incS Reg.SEC.WIN_FAULT_CNT
  if s.rbit Reg.SEC.WIN_FAULT 31 then s
  else s.setNum Reg.SEC.WIN_FAULT (2 ^ 31 + cls * 2 ^ 26 + b2n write * 2 ^ 25 + b2n fence * 2 ^ 24 + n)

/-- A ring is secure (Table 14.3). -/
def State.ringSecure (s : State) (r : Nat) : Bool := decide (r < s.rfld Reg.SEC.PART_CFG 13 0)

/-- A fence is secure (Table 14.3). -/
def State.fenceSecure (s : State) (f : Nat) : Bool := decide (f < s.rfld Reg.SEC.PART_CFG 29 16)

/-- Class of a ring's entries and mirror (R371). -/
def State.ringClass (s : State) (r : Nat) : Nat := if s.ringSecure r then 0 else 1

/-- Class of the HOST_ADDR ranges of an UPLOAD ring (R371). -/
def State.copyClass (s : State) (r : Nat) : Nat := if s.ringSecure r then 2 else 3

/-- A write to host memory leaves. -/
def State.hostWrite (s : State) (addr : Nat) (data : Bytes) (poisoned : Bool := false) : State :=
  s.leaveL1.emit (.hostWrite addr data poisoned)

/-- A read of host memory leaves under a tag of its own. -/
def State.hostRead (s : State) (by' : ReadBy) (addr len : Nat) : State :=
  let r : HostRead :=
    { tag := s.pep.nextTag, by' := by', addr := addr, len := len, time := s.clock.time, dropped := false }
  ({ s with pep := { s.pep with reads := s.pep.reads ++ [r], nextTag := s.pep.nextTag + 1 } } : State).leaveL1.emit
    (.hostRead r.tag addr len)

/-- A request is discarded while FROZEN or GONE (R363, R364). -/
def State.dropOut (s : State) (n : Nat := 1) : State := s.incS Reg.PEP.OUT_DROP_CNT n

/-! ### Rings (R345 to R351) -/

/-- STATUS.STATE: 0 DISABLED, 1 ACTIVE, 2 FAULTED, 3 STOPPING. -/
def State.ringState (s : State) (r : Nat) : Nat := s.rfld (Reg.RING.STATUS r) 1 0

/-- Write it. -/
def State.setRing (s : State) (r st : Nat) : State := s.setFld (Reg.RING.STATUS r) 1 0 st

/-- CFG.KIND: 0 RESULT, 1 AUGMENT, 2 UPLOAD, 3 CONTROL. -/
def State.ringKind (s : State) (r : Nat) : Nat := s.rfld (Reg.RING.CFG r) 30 29

/-- Entries of the ring. -/
def State.ringSize (s : State) (r : Nat) : Nat := 2 ^ s.rfld (Reg.RING.CFG r) 28 24

/-- Bytes of one entry (Table 13.3). -/
def entryBytes (kind : Nat) : Nat := if kind = 1 then 256 else 64

/-- HOST_IDX. -/
def State.hostIdx (s : State) (r : Nat) : Word := s.reg (Reg.RING.HOST_IDX r)

/-- DEV_IDX. -/
def State.devIdx (s : State) (r : Nat) : Word := s.reg (Reg.RING.DEV_IDX r)

/-- Host address of the entry at an index. -/
def State.entryAddr (s : State) (r : Nat) (idx : Word) : Nat :=
  fld (s.reg (Reg.RING.BASE_LO r)) 31 12 * 4096 + 2 ^ 32 * (s.reg (Reg.RING.BASE_HI r)).toNat +
    idx.toNat % s.ringSize r * entryBytes (s.ringKind r)

/-- A device-produced ring has space for `n` entries (R349). -/
def State.ringSpace (s : State) (r n : Nat) : Bool :=
  decide ((s.devIdx r - s.hostIdx r + BitVec.ofNat 32 n).toNat ≤ s.ringSize r)

/-- A ring that is not in its reset state: its STATUS is listed. -/
def State.liveRings (s : State) : List Nat :=
  s.regs.filterMap fun e => match locate e.1 with
    | .ring r 0x20 => some r
    | _ => none

/-- RING_FAULT (R351): an ACTIVE ring goes FAULTED; its upload ends and its mirror holds. -/
def State.ringFault (s : State) (r cause : Nat) : State :=
  if s.ringState r ≠ 1 then s
  else
    let s := s.setReg (Reg.RING.STATUS r) (putBits (putBits (s.reg (Reg.RING.STATUS r)) 7 4 cause) 1 0 2)
    let s := s.setReg (Reg.RING.FAULT_IDX r) (s.devIdx r)
    let s := (s.incS Reg.PEP.RING_FAULT_CNT).setNum Reg.PEP.LAST_RING_FAULT (2 ^ 31 + cause * 2 ^ 16 + r)
    let s := { s with pep := { s.pep with idxOwed := s.pep.idxOwed.set (fun _ => false) r false,
                                          uploads := s.pep.uploads.set (fun _ => none) r none } }
    (s.raise U.pep 9).attn 1

/-- A mirror write of a ring's DEV_IDX, checked against the windows (R350, R371). -/
def State.mirrorIdx (s : State) (r : Nat) : State :=
  let addr := fld (s.reg (Reg.RING.MIRROR_LO r)) 31 2 * 4 + 2 ^ 32 * (s.reg (Reg.RING.MIRROR_HI r)).toNat
  let s := { s with pep := { s.pep with idxOwed := s.pep.idxOwed.set (fun _ => false) r false } }
  if s.winOk (s.ringClass r) true addr 4 then
    (s.hostWrite addr (leBytes 4 (s.devIdx r).toNat)).incW Reg.PEP.MIRROR_WR_CNT
  else (s.winFail (s.ringClass r) true false r).ringFault r 3

/-- A mirror write is owed for a ring's DEV_IDX. -/
def State.idxOwed (s : State) (r : Nat) : Bool := s.pep.idxOwed.get (fun _ => false) r

/-- Write it. -/
def State.setIdxOwed (s : State) (r : Nat) (b : Bool) : State :=
  { s with pep := { s.pep with idxOwed := s.pep.idxOwed.set (fun _ => false) r b } }

/-! ### Fences (R354, R355) -/

/-- A fence's value. -/
def State.fenceVal (s : State) (f : Nat) : BitVec 64 := s.pep.fences.get (fun _ => 0) f

/-- Write it. -/
def State.setFence (s : State) (f : Nat) (v : BitVec 64) : State :=
  { s with pep := { s.pep with fences := s.pep.fences.set (fun _ => 0) f v } }

/-- A fence's mirror write is owed. -/
def State.fenceOwed (s : State) (f : Nat) : Bool := s.pep.fenceOwed.get (fun _ => false) f

/-- Write it. -/
def State.setFenceOwed (s : State) (f : Nat) (b : Bool) : State :=
  { s with pep := { s.pep with fenceOwed := s.pep.fenceOwed.set (fun _ => false) f b } }

/-- The fence counts. -/
def State.fenceEn (s : State) (f : Nat) : Bool := s.rbit (Reg.FENCE.CFG f) 31

/-- An increment by any source: ignored while EN is 0; a change owes a mirror write when MIRROR_EN is 1. -/
def State.incFence (s : State) (f n : Nat) : State :=
  if !s.fenceEn f ∨ n = 0 then s
  else (s.setFence f (s.fenceVal f + BitVec.ofNat 64 n)).when (s.rbit (Reg.FENCE.CFG f) 30) fun s => s.setFenceOwed f true

/-- The ring's fence is incremented under Table 13.3. -/
def State.ringFenceInc (s : State) (r n : Nat) : State :=
  s.when (s.rbit (Reg.RING.CFG r) 23) fun s => s.incFence (s.rfld (Reg.RING.BIND r) 12 0) n

/-- The mirror write of a fence (R354). The owed index mirrors of the rings whose fence it is leave first, and those of UPLOAD
rings, whose descriptors may have incremented it (R350, R353; log 168). -/
def State.mirrorFence (s : State) (f : Nat) : State :=
  let due := s.liveRings.filter fun r =>
    s.idxOwed r && s.ringState r == 1 &&
      (s.ringKind r == 2 || s.rbit (Reg.RING.CFG r) 23 && s.rfld (Reg.RING.BIND r) 12 0 == f)
  let s := due.foldl State.mirrorIdx s
  let s := s.setFenceOwed f false
  let cls := if s.fenceSecure f then 0 else 1
  let addr := fld (s.reg (Reg.FENCE.MIRROR_LO f)) 31 3 * 8 + 2 ^ 32 * (s.reg (Reg.FENCE.MIRROR_HI f)).toNat
  if s.winOk cls true addr 8 then
    (s.hostWrite addr (leBytes 8 (s.fenceVal f).toNat)).incW Reg.PEP.MIRROR_WR_CNT
  else s.winFail cls true true f

/-- Fences with EN 1. -/
def State.liveFences (s : State) : List Nat :=
  s.regs.filterMap fun e => match locate e.1 with
    | .fence f 0x10 => if tst e.2 31 then some f else none
    | _ => none

/-! ### Entries -/

/-- Entries of a device-produced ring at DEV_IDX, then DEV_IDX and its mirror, then the ring's fence (R350). The
caller has checked that the ring is ACTIVE, has space and does not wrap. `incs` is what the fence gains. -/
def State.publish (s : State) (r : Nat) (data : Bytes) (incs : Nat) : State :=
  let addr := s.entryAddr r (s.devIdx r)
  if s.winOk (s.ringClass r) true addr data.length then
    let s := s.hostWrite addr data
    let s := s.setReg (Reg.RING.DEV_IDX r) (s.devIdx r + BitVec.ofNat 32 (data.length / 64))
    let s := s.when (s.rbit (Reg.RING.CFG r) 22) fun s => s.mirrorIdx r
    s.ringFenceInc r incs
  else (s.winFail (s.ringClass r) true false r).ringFault r 3

/-- The device has consumed `n` entries of a host-produced ring: DEV_IDX, the owed mirror, the ring's fence. -/
def State.consume (s : State) (r n : Nat) : State :=
  if s.ringState r ≠ 1 ∨ n = 0 then s
  else
    let s := s.setReg (Reg.RING.DEV_IDX r) (s.devIdx r + BitVec.ofNat 32 n)
    let s := s.when (s.rbit (Reg.RING.CFG r) 22) fun s => s.setIdxOwed r true
    s.ringFenceInc r n

/-! ### Host loss (R362 to R364) -/

/-- An upload that host loss leaves as it is: its descriptor is here, and no copy is under way. -/
def Upload.kept (u : Option Upload) : Bool :=
  match u with
  | some u => u.raw.isSome && !(u.checked && !u.finished && decide (u.op < 2))
  | none => false

/-- The copy of an UPLOAD ring is under way. -/
def Upload.copying (u : Upload) : Bool := u.checked && !u.finished && decide (u.op < 2)

/-- Mailbox locks and pending requests of the host end on host loss (R377). -/
def State.mbxHostLoss (s : State) : State :=
  (List.range 32).foldl (fun s n =>
    let m := s.mbxOf n
    let s := if bitsOf m.owner.toNat 23 16 = 1 then s.setMbx n { m with owner := 0 } else s
    if s.rfld (Reg.MBX.STATUS n) 2 0 = 1 ∧ s.rfld (Reg.MBX.REQ_STAMP n) 23 16 = 1 then
      s.setFld (Reg.MBX.STATUS n) 3 0 0
    else s) s

/-- Configuration space resets as PCIe requires, which ends D3hot; the AER status, masks and severities are sticky (log 8). -/
def State.cfgReset (s : State) (d3 : Bool) : State :=
  let s := s.when (!d3 && s.rfld Reg.PEP.LINK_STATUS 14 12 == 5) fun s => s.setFld Reg.PEP.LINK_STATUS 14 12 0
  { s with pep := { s.pep with cfg := { CfgSpace.reset with
      prog := { HostCfg.reset with aerUncMask := s.pep.cfg.prog.aerUncMask, aerUncSev := s.pep.cfg.prog.aerUncSev,
                                   aerCorMask := s.pep.cfg.prog.aerCorMask },
      aerUnc := s.pep.cfg.aerUnc, aerCor := s.pep.cfg.aerCor, d3hot := d3 } } }

/-- HOST_LOSS (R362 to R364, R377): FROZEN or GONE; queued requests are discarded and counted, reads outstanding end,
locks of the host are freed; a copy under way (CONTAIN) or every ACTIVE ring (ALLONES) goes FAULTED. A device already
FROZEN or GONE has no further host loss, only the reset of configuration space. -/
def State.hostLoss (s : State) (cause : Nat) : State :=
  if s.hostState ≠ 0 then if cause = 6 then s else s.cfgReset false
  else
    let queued := s.pep.idxOwed.length + s.pep.fenceOwed.length
    let cut := s.liveRings.filter fun r =>
      s.allOnes || (match s.pep.uploads.get (fun _ => none) r with | some u => u.copying | none => false)
    let s := (s.incHi Reg.PEP.HOSTLOSS_STATUS).setFld Reg.PEP.HOSTLOSS_STATUS 7 4 cause
    let s := s.setFld Reg.PEP.HOSTLOSS_STATUS 1 0 (if s.allOnes then 2 else 1)
    let s := (s.cfgReset (cause == 6)).dropOut queued
    let s := { s with pep := { s.pep with inta := false, idxOwed := [], fenceOwed := [], reads := [] } }
    let s := (s.raise U.pep 10).mbxHostLoss
    let s := cut.foldl (fun s r => s.ringFault r 4) s
    { s with pep := { s.pep with uploads := s.pep.uploads.filter fun e => Upload.kept e.2 } }

/-- The PCIe link leaves L0 (R344): FLAPS, PG_ERR.LINK_DOWN, the ladder restarts at attempt 1. -/
def State.pcieDrop (s : State) : State :=
  if s.rfld Reg.PEP.LINK_STATUS 3 0 ≠ 3 then s
  else
    let s := (s.incHi Reg.PEP.LINK_STATUS).setFld Reg.PEP.LINK_STATUS 14 0 0
    let s := (s.setFld Reg.PEP.TRAIN_LOG 31 16 0).raise U.pep 12
    { s with pep := { s.pep with attempt := 0 } }

/-- A link in L0 goes down, and host loss follows (R344, R362). -/
def State.pcieLost (s : State) : State :=
  if s.rfld Reg.PEP.LINK_STATUS 3 0 ≠ 3 then s else s.pcieDrop.hostLoss 1

/-! ### Memory as the copies and BAR2 see it -/

/-- BAR2_BASE. -/
def State.bar2Base (s : State) : Nat :=
  fld (s.reg Reg.PEP.BAR2_BASE_LO) 31 30 * 2 ^ 30 + 2 ^ 32 * s.rfld Reg.PEP.BAR2_BASE_HI 4 0

/-- An error message leaves on a link that carries traffic: 0 correctable, 1 non-fatal, 2 fatal (log 8). -/
def State.errMsg (s : State) (level : Nat) : State :=
  s.when (s.hostLinkUp && s.hostState == 0) fun s => s.leaveL1.emit (.errMsg level)

/-- Note an uncorrectable AER error, and report it by its severity unless it is masked (R359; bit positions of the PCIe
registers, PRESUMED, log 8). -/
def State.aerUnc (s : State) (bit : Nat) : State :=
  let c := s.pep.cfg
  let s := { s with pep := { s.pep with cfg := { c with aerUnc := c.aerUnc ||| bit1 bit } } }
  s.when (!tst c.prog.aerUncMask bit) fun s => s.errMsg (if tst c.prog.aerUncSev bit then 2 else 1)

/-- Note a correctable AER error, and report it unless it is masked. -/
def State.aerCor (s : State) (bit : Nat) : State :=
  let c := s.pep.cfg
  let s := { s with pep := { s.pep with cfg := { c with aerCor := c.aerCor ||| bit1 bit } } }
  s.when (!tst c.prog.aerCorMask bit) fun s => s.errMsg 0

/-! ### Configuration space as it presents itself (R340, R341) -/

/-- A capability of Table 13.1. -/
inductive PciCap where
  | express | powerManagement | advancedErrors | resizableBar | l1Substates | secondaryPcie
  | physicalLayer16 | physicalLayer32 | physicalLayer64 | laneMargining | serialNumber
  deriving DecidableEq, Repr

/-- A memory BAR: its first register, whether it is prefetchable, and its size as a power of two; each is 64 bits wide. -/
structure Bar where
  reg : Nat
  prefetchable : Bool
  log2 : Nat
  deriving DecidableEq, Repr

/-- What the function presents (R340, R341, Table 13.1). -/
structure Function where
  classCode : Nat
  deviceId : Nat
  bars : List Bar
  caps : List PciCap
  serial : BitVec 64
  maxPayload : Nat
  tagBits : Nat
  deriving DecidableEq, Repr

/-- The bytes of Max_Payload_Size: at most 512. -/
def HostCfg.payload (c : HostCfg) : Nat := min 512 (128 * 2 ^ c.mps.toNat)

/-- The function: BAR0 of 256 MiB, BAR2 of its present size, BAR4 and BAR5 absent; one function, no MSI, MSI-X, SR-IOV, ATS
or PASID (R340, R341). -/
def State.function (s : State) : Function :=
  { classCode := 0x120000, deviceId := s.fuses.part.toNat,
    bars := [⟨0, false, 28⟩, ⟨2, true, s.pep.cfg.prog.bar2Log2⟩],
    caps := [.express, .powerManagement, .advancedErrors, .resizableBar, .l1Substates, .secondaryPcie, .physicalLayer16,
             .physicalLayer32, .physicalLayer64, .laneMargining, .serialNumber],
    serial := s.fuses.serial, maxPayload := HostCfg.payload s.pep.cfg.prog,
    tagBits := if s.rbit Reg.PEP.LINK_STATUS 15 then 14 else 10 }

/-- The device's LTR in ns, snoop and no-snoop (R360). -/
def ltrNs : Nat := 50000

/-- What the host writes to configuration space: a BAR2 size that Table 13.1 does not offer changes nothing, 1 GiB to
128 GiB; enabling LTR has the device report it (R360). -/
def State.program (s : State) (c : HostCfg) : State :=
  let old := s.pep.cfg.prog
  let c := { c with bar2Log2 := if 30 ≤ c.bar2Log2 ∧ c.bar2Log2 ≤ 37 then c.bar2Log2 else old.bar2Log2 }
  let s := { s with pep := { s.pep with cfg := { s.pep.cfg with prog := c } } }
  s.when (c.ltrEn && !old.ltrEn && s.hostLinkUp) fun s => s.emit (.ltr ltrNs ltrNs)

/-- The ring of a read. -/
def ReadBy.ring : ReadBy → Nat
  | .augment r _ => r.toNat
  | .descriptor r => r.toNat
  | .copyIn r => r.toNat

/-- Reads that have been given up: their completions are discarded without error (R39, R348, R357). -/
def State.dropReads (s : State) (f : HostRead → Bool) : State :=
  { s with pep := { s.pep with reads := s.pep.reads.map fun r => if f r then { r with dropped := true } else r } }

/-- Bytes of a BAR2 access that lie below U while BAR2 is served (R342, Table 14.3). -/
def State.bar2Inside (s : State) (off len : Nat) : Nat :=
  if !s.isSealed ∨ s.rbit Reg.SEC.MODE_CFG 3 then min len (s.usable - (s.bar2Base + off)) else 0

/-- An access that reaches U or beyond: the first such offset is recorded, PG_ERR.BAR2_RANGE (R342). -/
def State.bar2Beyond (s : State) (off : Nat) : State :=
  let s := if s.rbit Reg.PEP.BAR2_OOR 31 then s else s.setNum Reg.PEP.BAR2_OOR (2 ^ 31 + off / 64)
  s.raise U.pep 13

end Sys2Proof.Machine
end

