-- ==== Sys2Proof/Machine/Erc.lean ====
section
/-!
DEFINITION. The error collector (15_errors, R383 to R393, R396, R464): reports, the coalescing table, the log and its
spilling, the record of a fatal error.
-/
namespace Sys2Proof.Machine

/-- Raise a wake event of the steward (Table 14.5): 0 MBX, 1 ERC, 2 FATAL, 3 MET, 4 TIMER. -/
def State.wake (s : State) (b : Nat) : State := s.setBit Reg.STW.WAKE_STATUS b

/-! ### Taking a report (R386, R387) -/

/-- A report comes before another: by directory index, then by bit number. -/
def State.reportBefore (s : State) (a b : Report) : Bool :=
  let i := s.dirIndex a.unit
  let j := s.dirIndex b.unit
  decide (i < j) || (i == j && decide (a.bit < b.bit))

/-- The report that ERC takes next. -/
def State.nextReport (s : State) : Option Report :=
  s.erc.pending.foldl (fun o r => match o with
    | none => some r
    | some q => if s.reportBefore r q then some r else some q) none

/-- KEY of a coalescing entry (Table 15.4). -/
def coalKey (u : Inst) (bit : Nat) : Nat := u.blk.code * 2 ^ 13 + u.idx % 256 * 32 + bit % 32

/-- Word `j` of coalescing entry `i`. -/
def State.coal (s : State) (i j : Nat) : Nat := (s.reg (Reg.ERC.COAL i j)).toNat

/-- The coalescing table takes a report (R393). -/
def State.coalesce (s : State) (r : Report) : State :=
  let key := coalKey r.unit r.bit
  let t := r.time.toNat
  match (List.range 256).find? (fun i => s.coal i 0 == 2 ^ 31 + key) with
  | some i =>
    let s := s.incS (Reg.ERC.COAL i 1) r.count
    s.setReg64 (Reg.ERC.COAL i 4) (Reg.ERC.COAL i 5) t
  | none =>
    match (List.range 256).find? (fun i => decide (s.coal i 0 < 2 ^ 31)) with
    | some i =>
      let s := (s.setNum (Reg.ERC.COAL i 0) (2 ^ 31 + key)).setNum (Reg.ERC.COAL i 1) r.count
      let s := s.setReg64 (Reg.ERC.COAL i 2) (Reg.ERC.COAL i 3) t
      let s := s.setReg64 (Reg.ERC.COAL i 4) (Reg.ERC.COAL i 5) t
      s.incS Reg.ERC.COAL_USED
    | none => s.incS Reg.ERC.COAL_MISS r.count

/-- The eight words of a log entry (Table 15.2). -/
def logWords (r : Report) (seq : Word) : List Nat :=
  let pos := r.epoch.toNat + r.phase.toNat * 2 ^ 40
  [r.time.toNat, r.time.toNat / 2 ^ 32, pos, pos / 2 ^ 32,
   r.unit.blk.code * 2 ^ 20 + r.unit.idx % 256 * 2 ^ 12 + r.bit % 32 * 128 + r.cls * 32 + b2n r.inj * 16,
   (match r.win with | some w => 2 ^ 31 + w.1.toNat * 2 ^ 16 + w.2.toNat * 256 | none => 0), r.count, seq.toNat]

/-- Entries held in the log. -/
def State.logHeld (s : State) : Nat := (s.reg Reg.ERC.LOG_TAIL - s.reg Reg.ERC.LOG_HEAD).toNat

/-- The log has room for a report of a class: the last slot is kept for a FATAL entry (R389). -/
def State.logRoom (s : State) (cls : Nat) : Bool := decide (s.logHeld < if cls = 3 then 1024 else 1023)

/-- Write a log entry (R389). -/
def State.logWrite (s : State) (r : Report) : State :=
  let seq := s.reg Reg.ERC.LOG_TAIL
  let slot := seq.toNat % 1024
  let w := logWords r seq
  let s := (List.range 8).foldl (fun s j => s.setNum (Reg.ERC.LOG slot j) (w.getD j 0)) s
  s.setReg Reg.ERC.LOG_TAIL (seq + 1)

/-- ERC takes a report (R387): summary and class bits, the table, the log, attention. A FATAL report's place in the log
is kept for R396. Whether a report needs steward housekeeping (Table 14.5) is a free value. -/
def State.takeReport (s : State) (r : Report) : State :=
  let s := (s.markSummary r.unit).setBit Reg.ERC.CLASS_SUM r.cls
  let s := s.coalesce r
  let room := s.logRoom r.cls
  let seq := s.reg Reg.ERC.LOG_TAIL
  let s := if room then s.logWrite r else (s.incS Reg.ERC.OVERFLOW_CNT).raise U.erc 9
  let s := s.when (s.rbit Reg.ERC.ATTN_CLASS r.cls) fun s => s.attn 0
  let s := s.when (s.freeBits 1 == 1) fun s => s.wake 1
  let s := s.drawn
  if r.fatal then
    let f : FatalNote := { unit := r.unit, bit := r.bit, logged := room, seq := seq, time := r.time, epoch := r.epoch,
                           phase := r.phase }
    { s with erc := { s.erc with fatalPend := s.erc.fatalPend ++ [f] } }
  else s

/-- ERC_REPORT (R386, R387): the next pending report, in every run state but ERC's own reset. -/
def execErcReport (s : State) : Res :=
  onCore s fun s =>
    match s.nextReport with
    | none => s
    | some r =>
      if s.erc.reset then s
      else
        let s := { s with erc := { s.erc with pending := s.erc.pending.filter fun q => q != r } }
        s.takeReport r

/-! ### Fatal errors (R396, R464) -/

/-- FATAL_ERROR (R396, R464): the first fatal error since cold reset or REARM sets the FATAL registers, wakes the
steward and starts the dump; a later one counts. -/
def execFatalError (s : State) : Res :=
  onCore s fun s =>
    match s.erc.fatalPend with
    | [] => s
    | f :: rest =>
      let s := { s with erc := { s.erc with fatalPend := rest, fatalCount := s.erc.fatalCount + 1 } }
      if s.rbit Reg.ERC.FATAL_STATUS 31 then s
      else
        let s := s.setNum Reg.ERC.FATAL_STATUS
          (2 ^ 31 + b2n f.logged * 2 ^ 30 + f.unit.blk.code * 2 ^ 16 + f.unit.idx % 256 * 256 + f.bit % 32)
        let s := s.setReg Reg.ERC.FATAL_SEQ f.seq
        let s := s.setReg64 Reg.ERC.FATAL_TIME_LO Reg.ERC.FATAL_TIME_HI f.time.toNat
        let s := s.setNum Reg.ERC.FATAL_POS_LO f.epoch.toNat
        let s := s.setNum Reg.ERC.FATAL_POS_HI (f.phase.toNat * 256 + f.epoch.toNat / 2 ^ 32)
        let s := ((s.raise U.erc 8).wake 2).setFld Reg.ERC.DUMP_STATUS 2 0 1
        let d : DumpRun := { fallback := false, tiles := [], written := false, table := [], total := 0, began := f.time.toNat,
                             now := false }
        { s with erc := { s.erc with dump := some d } }

/-! ### Freeing the log (R390, R391) -/

/-- LOG_HEAD_WRITE (R390, R391): moves LOG_HEAD forward, not beyond LOG_TAIL and not while spilling. -/
def execLogHeadWrite (value : Word) (s : State) : Res :=
  onBus s fun s =>
    if s.rbit Reg.ERC.CTRL 30 ∨ s.logHeld < (value - s.reg Reg.ERC.LOG_HEAD).toNat then s.protocol U.erc
    else s.setReg Reg.ERC.LOG_HEAD value

/-- The ring to which ERC spills, when it is one that takes a CONTROL entry now. -/
def State.spillRing (s : State) : Option Nat :=
  let r := s.rfld Reg.ERC.CTRL 12 0
  if s.rbit Reg.ERC.CTRL 30 && s.ringState r == 1 && s.ringKind r == 3 && s.ringSpace r 1 && s.canIssue then some r else none

/-- The 32 bytes of the log entry in a slot. -/
def State.logBytes (s : State) (slot : Nat) : Bytes :=
  (List.range 8).flatMap fun j => leBytes 4 (s.reg (Reg.ERC.LOG slot j)).toNat

/-- Firmware hands ERC the oldest reset cause that it has read, as an entry of KIND 2 FIRMWARE (R375, Table 15.3); the
message is whatever its version makes of the cause, and waits while no CONTROL ring is spilling (log 169). -/
def State.firmwareEntry (s : State) : State :=
  match s.spillRing, s.stw.fwLog with
  | some r, cause :: rest =>
    let msg := leBytes 28 (Config.firmwareMsg (s.reg Reg.STW.FW_VER) cause).toNat
    let s := { s with stw := { s.stw with fwLog := rest } }
    s.publish r (List.replicate 32 0 ++ [2, 0, 0, 0] ++ msg) 1
  | _, _ => s

/-- LOG_SPILL (R391, R392): the oldest entry held goes to SPILL_RING; LOG_HEAD moves once its publishing write has
been issued. With no entry held, a message that firmware could not hand over before goes. -/
def execLogSpill (s : State) : Res :=
  onCore s fun s =>
    match s.spillRing with
    | none => s
    | some r =>
      if s.logHeld = 0 then s.when (!s.stw.asleep) State.firmwareEntry
      else
        let head := s.reg Reg.ERC.LOG_HEAD
        let s := s.publish r (s.logBytes (head.toNat % 1024) ++ List.replicate 32 0) 1
        s.when (s.ringState r == 1) fun s => s.setReg Reg.ERC.LOG_HEAD (head + 1)

/-- Empty the coalescing table (R393). -/
def State.coalClear (s : State) : State :=
  let s := (List.range 256).foldl (fun s i => (List.range 8).foldl (fun s j => s.setNum (Reg.ERC.COAL i j) 0) s) s
  s.setNum Reg.ERC.COAL_USED 0

/-- COAL_CLEAR (R393). -/
def execCoalClear (s : State) : Res := onBus s State.coalClear

end Sys2Proof.Machine
end

