-- ==== Sys2Proof/Machine/Read.lean ====
section
/-!
DEFINITION. What a register reads as, with no side effect (R399): the directory ROM (R33, R458), the page header (R16),
registers whose value follows from the rest of the state, and all others from their home.
-/
namespace Sys2Proof.Machine

/-! ### Identity -/

/-- Smallest n with 2^n at or above a page count (Table 1.2, PAGES). -/
def pagesLog (n : Nat) : Nat := if n ≤ 1 then 0 else Nat.log2 (n - 1) + 1

/-- PG_IDENT.VER (R458). -/
def blkVer (b : Blk) : Nat := if b = .tile then 2 else 1

/-- PG_IDENT. -/
def pgIdent (u : Inst) : Nat := u.blk.code * 2 ^ 20 + u.idx * 2 ^ 12 + pagesLog u.blk.pages * 256 + blkVer u.blk

/-- PG_CAPS: DEC names its codecs (Table 5.13); BLOCK is 0 where no chapter defines it (log 33). -/
def pgCaps (b : Blk) : Nat :=
  let d := descsOf b
  (if b = .dec then 0x70 else 0) + b2n (d.any fun x => x.boot != 0) * 8 + b2n (d.any fun x => x.rwl != 0) * 4 +
    b2n (d.any fun x => x.rws != 0) * 2 + 1

/-- DEVCTL.IDENT (Table 1.6). -/
def Fuses.ident (f : Fuses) : Nat := f.part.toNat * 2 ^ 16 + f.grade.toNat * 2 ^ 12 + f.stepMaj.toNat * 16 + f.stepMin.toNat

/-! ### The directory ROM (Tables 1.4, 1.5, 1.7) -/

/-- The instances of a block that a part provides, from number `i0`, at most `n`. -/
def Fuses.insts (f : Fuses) (b : Blk) (i0 n : Nat) : List Inst :=
  (List.range (min n (f.units b - i0))).map fun i => ⟨b, i0 + i⟩

/-- The block instances in ascending order of base address. -/
def Fuses.directory (f : Fuses) : List Inst :=
  f.insts .devctl 0 1 ++ f.insts .sec 0 1 ++ f.insts .tmu 0 1 ++ f.insts .ple 0 1 ++ f.insts .erc 0 1 ++
  f.insts .mbx 0 16 ++ f.insts .pep 0 1 ++ f.insts .mbx 16 16 ++ f.insts .nix 0 8 ++ f.insts .ing 0 1 ++
  f.insts .nix 8 4 ++ f.insts .egr 0 1 ++ f.insts .cpm 0 1 ++ f.insts .scx 0 256 ++ f.insts .dec 0 24 ++
  f.insts .lns 0 8 ++ f.insts .dmc 0 16 ++ f.insts .tile 0 72 ++ f.insts .pfb 0 1 ++ f.insts .met 0 1 ++ f.insts .stw 0 1

/-- A block's entry: SECURE marks the mailboxes that SPLIT mode makes secure (R376). -/
def blockEntry (u : Inst) : List Nat :=
  [pgIdent u, u.base, u.blk.pages * 2 ^ 16 + b2n (u.blk == .mbx && decide (u.idx < 16)), 0]

/-- The region entries (Table 1.7). -/
def regionEntries : List (List Nat) :=
  [[0x100 * 2 ^ 20 + 13 * 256 + 1, 0x1000000, 8192 * 2 ^ 16 + 2, 8191 * 2 ^ 16 + 12 * 256],
   [0x101 * 2 ^ 20 + 7 * 256 + 1, 0x3000000, 128 * 2 ^ 16 + 2, 8191 * 2 ^ 16 + 6 * 256],
   [0x102 * 2 ^ 20 + 14 * 256 + 1, 0x8000000, 16384 * 2 ^ 16 + 2, 26 * 256]]

/-- The words of the list from offset 0x040, terminator included. -/
def Fuses.romList (f : Fuses) : List Nat := (f.directory.map blockEntry ++ regionEntries ++ [[0, 0, 0, 0]]).flatten

/-- The header words. -/
def Fuses.romHead (f : Fuses) : List Nat :=
  [0x59444952, 0x00010010, f.directory.length + 3, f.ident, crc32c (f.romList.flatMap (leBytes 4))] ++ List.replicate 11 0

/-- A word of the directory ROM; beyond the terminator it reads zero (R14). -/
def Fuses.romWord (f : Fuses) (off : Nat) : Nat := (f.romHead ++ f.romList).getD (off / 4) 0

/-! ### Registers that follow from other state -/

/-- REPAIR_CTRL.AUTO. -/
def State.autoRepair (s : State) : Bool := s.rbit Reg.PFB.REPAIR_CTRL 0

/-- A tile is flagged (R272). -/
def State.flagged (s : State) (t : Nat) : Bool := s.rbit (Reg.TILE.SUSPECT t) 31

/-- A row has a flagged tile that is not retired and not yet handled: REPAIR_MAP.PENDING (Table 10.6). -/
def State.rowPending (s : State) (r : Nat) : Bool :=
  s.autoRepair && !(s.row r).blocked && (List.range 9).any fun c => s.flagged (9 * r + c) && s.runState (U.tile (9 * r + c)) != 4

/-- REPAIR_MAP[r] (Table 10.6); zero for a fused-off row (R284). -/
def State.repairMap (s : State) (r : Nat) : Nat :=
  if s.fuses.rows ≤ r then 0
  else
    let x := s.row r
    2 ^ 31 + b2n x.blocked * 128 + b2n (s.rowPending r) * 64 + b2n x.spareFree * 32 + b2n x.factory * 16 + x.gap

/-- Tiles that read RETIRED. -/
def State.retiredCount (s : State) : Nat := ((List.range 72).filter fun t => s.has (U.tile t) && s.runState (U.tile t) == 4).length

/-- A word of the flag mask of tiles. -/
def State.suspectMask (s : State) (w : Nat) : Nat :=
  ((List.range 32).filter fun i => decide (32 * w + i < 72) && s.flagged (32 * w + i)).foldl (fun a i => a + 2 ^ i) 0

/-- Milliseconds since the newest periodic frame, saturating at 16 bits (Table 16.3, AGE). -/
def State.metAge (s : State) : Nat :=
  match s.met.newest with
  | none => 0xFFFF
  | some (_, t) => min 0xFFFF ((s.clock.time.toNat - t) / 1000000)

/-- The slot of STROBE_SNAP[i]: the 20 bytes, the strobe's epoch, VALID. -/
def State.snapSlot (s : State) (i : Nat) : Bytes × BitVec 40 × Bool := s.met.slots.get (fun _ => ([], 0, false)) i

/-- Word w of snapshot slot i (Table 16.3): STROBE_SNAP[i] below 4, PERIODIC_SNAP as slot 4. -/
def State.snapWord (s : State) (i w : Nat) : Word :=
  if i = 4 then BitVec.ofNat 32 (match s.met.newest with | some (f, _) => if w < 5 then wordAt f w else 0 | none => 0)
  else
    let x := s.snapSlot i
    BitVec.ofNat 32 (if w < 5 then wordAt x.1 w else if w = 5 then x.2.1.toNat else if w = 6 then
      b2n x.2.2 * 2 ^ 31 + x.2.1.toNat / 2 ^ 32 else 0)

/-- TMU follows the instance on ALT_PORT (R44). -/
def State.followsAlt (s : State) : Bool := s.sync.onAlt && s.rbit Reg.TMU.SYNC_CFG 31

/-- The PTP instance that TMU follows, or the other. -/
def State.ptpOf (s : State) (alt : Bool) : PtpPort := if alt then s.sync.alt else s.sync.main

/-- The port of an instance (SYNC_CFG). -/
def State.syncPort (s : State) (alt : Bool) : Nat :=
  if alt then s.rfld Reg.TMU.SYNC_CFG 27 24 else s.rfld Reg.TMU.SYNC_CFG 19 16

/-- SYNC_STATUS (Table 2.11): PORT, TRIG_ACQ, HOLDOVER, and LOCKED while the offset from a grandmaster that is heard
is within 1 µs. -/
def State.syncStatus (s : State) (v : Word) : Word :=
  let locked := (s.ptpOf s.followsAlt).valid && !tst v 1 && decide (s.clock.slew.natAbs ≤ 1000)
  putBits (putBits v 7 4 (s.syncPort s.followsAlt)) 0 0 (b2n locked)

/-- A register of an instance that the part provides. -/
def State.readPage (s : State) (u : Inst) (off : Nat) : Word :=
  let a := u.base + off
  let v := s.reg a
  if off = 0 then BitVec.ofNat 32 (pgIdent u)
  else if off = 4 then BitVec.ofNat 32 (pgCaps u.blk)
  else if off = 0xC then BitVec.ofNat 32 (s.runState u)
  else match u.blk with
    | .devctl =>
      if off = 0x40 then BitVec.ofNat 32 s.fuses.ident
      else if off = 0x48 then s.power.straps.setWidth 32
      else v
    | .sec =>
      if off = 0x4C ∨ off = 0x50 then 0
      else if off = 0x70 then BitVec.ofNat 32 (s.stw.svn.toNat * 256 + s.fuses.revoked.toNat * 16 + fld v 0 0)
      else v
    | .tmu =>
      if off = 0x50 then BitVec.ofNat 32 s.clock.epoch.toNat
      else if off = 0x58 then s.clock.phase.setWidth 32
      else if off = 0x5C then BitVec.ofNat 32 s.clock.time.toNat
      else if off = 0x64 then s.syncStatus v
      else v
    | .pfb =>
      if off = 0x88 then BitVec.ofNat 32 (s.suspectMask 0)
      else if off = 0x8C then BitVec.ofNat 32 (s.suspectMask 1)
      else if off = 0x90 then BitVec.ofNat 32 (s.suspectMask 2)
      else if off = 0x94 then BitVec.ofNat 32 s.retiredCount
      else if 0xA0 ≤ off ∧ off < 0xC0 then BitVec.ofNat 32 (s.repairMap ((off - 0xA0) / 4))
      else v
    | .mbx => if off = 0x40 then (s.mbxOf u.idx).owner.setWidth 32 else v
    | .met =>
      if off = 0x40 then putBits v 15 0 s.metAge
      else if 0x100 ≤ off ∧ off ≤ 0x180 ∧ off % 32 = 0 then s.snapWord ((off - 0x100) / 32) 0
      else v
    | .cpm => if off = 0x60 then BitVec.ofNat 32 s.chainCells else v
    | .ple | .erc | .pep | .nix | .ing | .egr | .scx | .dec | .lns | .dmc | .tile | .stw => v

/-- A BAR0 word as R399's snapshot port reads it: fused-off instances and uncovered addresses read zero (R4, R14). -/
def State.readReg (s : State) (a : Nat) : Word :=
  match locate a with
  | .rom off => BitVec.ofNat 32 (s.fuses.romWord off)
  | .page u off => if s.has u then s.readPage u off else 0
  | .ring _ _ => s.reg a
  | .fence f off =>
    if off = 0 then BitVec.ofNat 32 (s.pep.fences.get (fun _ => 0) f).toNat
    else if off = 0x1C then 0
    else s.reg a
  | .dumpWin _ => 0
  | .hole => 0

/-- A mailbox is locked by a sender other than this one (R378). -/
def State.mbxBarred (s : State) (n : Nat) (src : Stamp) : Bool := (s.mbxOf n).owner != 0 && (s.mbxOf n).owner != src

/-- A BAR0 word as a sender reads it (R378): REQ and REPLY of a mailbox that another sender has locked read as zero. No
command of the table reads them over the bus; the snapshot port is no sender. -/
def State.readAs (s : State) (src : Stamp) (a : Nat) : Word :=
  match locate a with
  | .page u off => if u.blk = .mbx ∧ 0x100 ≤ off ∧ off < 0x300 ∧ s.mbxBarred u.idx src then 0 else s.readReg a
  | .rom _ | .ring _ _ | .fence _ _ | .dumpWin _ | .hole => s.readReg a

end Sys2Proof.Machine
end

