-- ==== Sys2Proof/Machine/MeterOps.lean ====
section
/-!
DEFINITION. Operations of the meter die and of the bridge MET (16_meter_die): counting, the FAULT condition, the frames
it builds and authenticates, and what MET makes of a frame. No operation here of the meter die reads or writes the core
die (R8, R406).
-/
namespace Sys2Proof.Machine

/-! ### Counting (R408 to R411) -/

/-- Quadrature level after a forward edge: A leads B (R408). -/
def quadNext (ab : BitVec 2) : BitVec 2 :=
  if ab = 0 then 2 else if ab = 2 then 3 else if ab = 3 then 1 else 0

/-- What an edge is: +1 forward, -1 reverse, 0 no edge, none when it breaks the sequence (R408). -/
def quadStep (old new : BitVec 2) : Option Int :=
  if new = old then some 0 else if new = quadNext old then some 1 else if old = quadNext new then some (-1) else none

/-- The credit loop of R409: whole millimetres from the residue. -/
def creditMm (k0 residue : Nat) : Nat × Nat := if k0 = 0 then (0, residue) else (residue / k0, residue % k0)

/-- One CH0 count under R409. -/
def Meter.credit (m : Meter) (reverse : Bool) : Meter :=
  if reverse then { m with backlog := m.backlog + 1 }
  else if 0 < m.backlog then { m with backlog := m.backlog - 1 }
  else
    let c := creditMm m.params.k0 (m.residue + 1000000)
    { m with distance := m.distance + BitVec.ofNat 48 c.1, residue := c.2 }

/-- CH0 counts in 100 m. -/
def Meter.hundred (m : Meter) : Nat := m.params.k0 / 10

/-- The distances that the two channels imply over the last 100 m of CH0 differ by more than CROSS_PERMILLE (R411). -/
def Meter.crossBad (m : Meter) : Bool :=
  let n0 := m.cross.length
  let n1 := m.cross.foldl (· + ·) 0
  let d0 := n0 * m.params.k1
  let d1 := n1 * m.params.k0
  m.params.k1 != 0 && decide (m.hundred ≤ n0) &&
    decide (m.params.cross * d0 < 1000 * (if d1 ≤ d0 then d0 - d1 else d1 - d0))

/-- Three Z periods in a row were wrong on a channel with the check on (R411). -/
def Meter.zFault (m : Meter) : Bool :=
  (m.params.ppr0 != 0 && decide (3 ≤ m.ch0.zBad)) || (m.params.ppr1 != 0 && decide (3 ≤ m.ch1.zBad))

/-- MOTION reads FAULT while a condition of R411 holds, and until 100 m of CH0 have passed without one. -/
def Meter.judge (m : Meter) : Meter :=
  if m.crossBad || m.zFault then { m with fault := true, clean := 0, motion := 3 }
  else if m.fault ∧ m.hundred ≤ m.clean then { m with fault := false, clean := 0 }
  else m

/-- A count of a channel: its Z period, and CH0's window, distance and 100 m. -/
def Meter.count (m : Meter) (ch1 : Bool) (d : Int) : Meter :=
  if ch1 then
    { m with ch1 := { m.ch1 with zCount := m.ch1.zCount + d }, cross := modAt m.cross 0 (· + 1) }
  else
    let m := m.credit (decide (d < 0))
    { m with ch0 := { m.ch0 with zCount := m.ch0.zCount + d }, slice := m.slice + d,
             cross := (0 :: m.cross).take m.hundred, clean := if m.fault then m.clean + 1 else m.clean }

/-- Net CH0 counts of the last 250 ms. -/
def Meter.n250 (m : Meter) : Int := m.recent.foldl (· + ·) 0

/-! ### Frames (R294, R415, R416) -/

/-- The first `n` bytes of the CMAC of a message; zeros until a key is loaded (R415). -/
def Meter.code (m : Meter) (n : Nat) (msg : Bytes) : Bytes :=
  match m.key with
  | none => List.replicate n 0
  | some k => (List.range n).map fun i => Config.aesCmac k msg (Fin.ofNat 16 i)

/-- The 12 bytes that a code covers: record bytes 44 to 55. -/
def Meter.body12 (m : Meter) : Bytes :=
  leBytes 6 m.distance.toNat ++ leBytes 2 m.speed.toNat ++ leBytes 4 m.time.toNat

/-- The 20 snapshot bytes (R294). -/
def Meter.snap20 (m : Meter) : Bytes := m.body12 ++ m.code 8 m.body12

/-- The status byte of R416. -/
def Meter.statusByte (m : Meter) : Nat := m.motion.toNat + 4 * b2n m.timeValid + 8 * b2n (!m.sealOpen)

/-- The 32 bytes that the bridge and the indicator link share; `kind` is byte 23. -/
def Meter.bytes32 (m : Meter) (kind : Nat) : Bytes :=
  m.snap20 ++ leBytes 2 (m.time.toNat / 2 ^ 32) ++ leBytes 1 m.statusByte ++ leBytes 1 kind ++ leBytes 2 m.paramVer.toNat ++
    leBytes 2 m.fwVer.toNat ++ leBytes 4 m.sealCnt.toNat

/-- A bridge frame of 36 bytes. -/
def Meter.bridgeFrame (m : Meter) (kind : Nat) : Bytes :=
  let b := m.bytes32 kind
  b ++ leBytes 4 (crc32c b)

/-- An indicator frame of 40 bytes. -/
def Meter.indFrame (m : Meter) : Bytes :=
  let b := m.bytes32 0 ++ leBytes 4 m.frameCtr.toNat
  b ++ m.code 4 b

/-- The links are on: mains supply and verified firmware (R414, R418). -/
def Meter.linked (m : Meter) : Bool := !m.stopped && !m.battery && m.running

/-- The service UART listens (R412, R418). -/
def Meter.uart (m : Meter) : Bool := !m.stopped && !m.battery && m.sealOpen

/-- The 4 bytes that authenticate a TIME_ADJ: over the adjustment and the counter (R417; widths PRESUMED, log 35). -/
def Meter.adjCode (m : Meter) (adj : Int) (ctr : Word) : Bytes :=
  m.code 4 (leBytes 4 (wrapN 32 adj) ++ leBytes 4 ctr.toNat)

/-- An adjustment is allowed at this meter time: none in the 86,400,000 ms before (R417). -/
def Meter.adjDue (m : Meter) : Bool :=
  match m.lastAdj with | none => true | some t => decide (86400000 ≤ (m.time - t).toNat)

/-- The image verifies against the key hash of the meter die's memory (R414). -/
def Fuses.meterImageOk (f : Fuses) (i : MeterImage) : Bool := Config.ecdsaP256 f.meterKeyHash i.data

/-- The parameters lie in the ranges of Table 16.2. -/
def paramsOk (p : MeterParams) : Bool :=
  decide (1000 ≤ p.k0 ∧ p.k0 ≤ 100000000 ∧ p.ppr0 ≤ 16384 ∧ p.k1 ≤ 100000000 ∧ p.ppr1 ≤ 16384 ∧ 1 ≤ p.cross ∧ p.cross ≤ 200) &&
    decide (-512 ≤ p.xtalTrim ∧ p.xtalTrim ≤ 511)

/-! ### MET (R420 to R424) -/

/-- A frame is correct: 36 bytes with the CRC of their first 32. -/
def bridgeOk (f : Bytes) : Bool := f.length == 36 && leAt f 32 4 == crc32c (f.take 32)

/-- Write the slot of an epoch's strobe. -/
def State.setSnap (s : State) (e : BitVec 40) (d : Bytes) (ok : Bool) : State :=
  { s with met := { s.met with slots := s.met.slots.set (fun _ => ([], 0, false)) (e.toNat % 4) (d, e, ok) } }

/-- A strobe frame arrives (R420); one that nothing awaits any more is discarded (R421). -/
def State.strobeFrame (s : State) (f : Bytes) : State :=
  match s.met.awaiting with
  | none => s
  | some (e, _) =>
    let s := s.setSnap e (f.take 20) true
    { s with met := { s.met with awaiting := none, lastSnap := some s.clock.time.toNat } }

/-- A periodic frame arrives (R422, R424): the newest snapshot, STATUS, and PG_ERR.SEAL_EVENT and FAULT. -/
def State.periodicFrame (s : State) (f : Bytes) : State :=
  let old := s.met.newest
  let sealed' := match old with
    | none => false
    | some (g, _) => leAt g 24 2 != leAt f 24 2 || leAt g 28 4 != leAt f 28 4
  let wasFault := s.rfld Reg.MET.STATUS 25 24 == 3
  let st := leAt f 22 1
  let s : State := { s with met := { s.met with newest := some (f, s.clock.time.toNat), absent := false
                                                lastSnap := some s.clock.time.toNat } }
  let s := s.setFld Reg.MET.STATUS 31 16 (2 ^ 15 + b2n (bitOf st 2) * 2 ^ 14 + b2n (bitOf st 3) * 2 ^ 13 + st % 4 * 2 ^ 8)
  let s := s.when sealed' fun s => s.raise U.met 9
  s.when (st % 4 == 3 && !wasFault) fun s => s.raise U.met 8

/-- The slot of a strobe that stays unanswered is marked not VALID, and counted (R421). -/
def State.missStrobe (s : State) : State :=
  match s.met.awaiting with
  | none => s
  | some (e, _) =>
    let s := (s.setSnap e [] false).incS Reg.MET.STROBE_MISS_CNT
    { s with met := { s.met with awaiting := none } }

end Sys2Proof.Machine
end

