-- ==== Sys2Proof/Machine/PlanOps.lean ====
section
/-!
DEFINITION. Plan images (02_epoch_and_plans): parsing R54 to R56, the load checks of R58, the plan check of R71 with
Table 2.6, phase arithmetic (R53), and which streams and units a plan serves.
-/
namespace Sys2Proof.Machine

/-! ### Phase arithmetic (R53) -/

/-- The grade's tile clock in MHz (Table 0.2). -/
def State.tileMhz (s : State) : Nat := if s.gradeD then 1700 else 1500

/-- cycles(d_pu, f) at the epoch period in force. -/
def State.cyclesOf (s : State) (pu mhz : Nat) : Nat := pu * s.period * mhz / (2 ^ 24 * 1000)

/-! ### Parsing (R54 to R56) -/

/-- The little-endian number of `n` bytes at an image offset. -/
def State.img (s : State) (base off n : Nat) : Nat := leNat (s.readMem (base + off) n)

/-- A window entry from its 16 words (Table 2.3). -/
def PlanWindow.ofWords (w : Nat → Nat) : PlanWindow :=
  { srcFrame := bitOf (w 0) 31, swapOut := bitOf (w 0) 30, swapIn := bitOf (w 0) 29, emit := bitOf (w 0) 28
    kind := bitsOf (w 0) 27 24, start := bitsOf (w 0) 23 0
    stream := bitsOf (w 1) 31 24, latest := bitsOf (w 1) 23 0
    divLog2 := bitsOf (w 2) 29 28, sub := bitsOf (w 2) 27 26, lag := bitsOf (w 2) 25 24, deadline := bitsOf (w 2) 23 0
    depCount := bitsOf (w 3) 29 28, dep1 := bitsOf (w 3) 27 16, dep0 := bitsOf (w 3) 15 4, divRes := bitsOf (w 3) 2 0
    tiles := w 4 + 2 ^ 32 * w 5, lns := bitsOf (w 6) 31 24, decs := bitsOf (w 6) 23 0
    progNum := bitsOf (w 7) 27 16, progFirst := bitsOf (w 7) 15 0
    cycles := w 8, retryCycles := w 9, swapCycles := w 10
    reservedZero := bitsOf (w 2) 31 30 == 0 && bitsOf (w 3) 31 30 == 0 && !bitOf (w 3) 3 && bitsOf (w 7) 31 28 == 0 &&
      (List.range 5).all fun i => w (11 + i) == 0 }

/-- A program entry from its 8 words (R56). -/
def PlanProgram.ofWords (w : Nat → Nat) : PlanProgram :=
  { target := bitsOf (w 0) 15 0, codeOff := w 1, codeSize := w 2, refFirst := w 3, refCount := w 4
    reservedZero := w 5 == 0 && w 6 == 0 && w 7 == 0 }

/-- A reference entry from its 4 words (R56). -/
def PlanRef.ofWords (w : Nat → Nat) : PlanRef :=
  { offset := w 0 + 2 ^ 32 * w 1, length := w 2, area := bitsOf (w 3) 24 16, access := bitsOf (w 3) 1 0
    reservedZero := bitsOf (w 3) 31 25 == 0 && bitsOf (w 3) 15 2 == 0 }

/-- An area entry from its 4 words (R56). -/
def PlanArea.ofWords (w : Nat → Nat) : PlanArea :=
  { shared := bitOf (w 0) 8, stream := bitsOf (w 0) 7 0, base := w 1 + 2 ^ 32 * w 2, pages := w 3 }

/-- The words of entry `i` of a table of `n`-byte entries. -/
def State.imgWords (s : State) (base off n i : Nat) : Nat → Nat :=
  let b := s.readMem (base + off + n * i) n
  fun k => wordAt b k

/-- The image address of a slot (SLOT_BASE). -/
def State.slotBase (s : State) (n : Nat) : Nat :=
  (s.reg (Reg.PLE.SLOT_BASE_LO n)).toNat + 2 ^ 32 * s.rfld (Reg.PLE.SLOT_BASE_HI n) 4 0

/-- The plan image of a slot as PLE reads it (R54 to R56). -/
def State.parsePlan (s : State) (n : Nat) : Plan :=
  let b := s.slotBase n
  let at4 := fun o => s.img b o 4
  { slot := n, base := b, planId := at4 0x0C, imageSize := at4 0x08
    minPeriod := at4 0x2C, maxPeriod := at4 0x30, minClk := s.img b 0x34 2
    windows := (List.range (s.img b 0x10 2)).map fun i => PlanWindow.ofWords (s.imgWords b (at4 0x1C) 64 i)
    programs := (List.range (at4 0x14)).map fun i => PlanProgram.ofWords (s.imgWords b (at4 0x20) 32 i)
    refs := (List.range (at4 0x18)).map fun i => PlanRef.ofWords (s.imgWords b (at4 0x24) 16 i)
    areas := (List.range (s.img b 0x12 2)).map fun i => PlanArea.ofWords (s.imgWords b (at4 0x28) 16 i) }

/-! ### Loading (R58) -/

/-- A table lies inside the image, at a 64-byte aligned offset (R54, R58). -/
def tableIn (off count size image : Nat) : Bool := off % 64 == 0 && decide (off + count * size ≤ image)

/-- The checks of R58 in their order: the reason code of Table 2.6, 0 when none fails. PLE reads no byte beyond
SLOT_SIZE or IMAGE_SIZE; a slot that ends before the word a check needs, and an image smaller than the header, break the
size limits (log 41). -/
def State.loadCheck (s : State) (n : Nat) : Nat :=
  let b := s.slotBase n
  let size := (s.reg (Reg.PLE.SLOT_SIZE n)).toNat
  let at4 := fun o => s.img b o 4
  let image := at4 0x08
  if size < 4 then 4
  else if s.poisoned b 4 then 6
  else if at4 0 ≠ 0x504C4E59 then 1
  else if size < 8 then 4
  else if s.img b 6 2 ≠ 1 ∨ s.img b 4 2 ≠ 64 then 2
  else if size < 12 ∨ image < 64 ∨ size < image ∨ 67108864 < image then 4
  else if s.poisoned b image then 6
  else if crc32c (zeroAt (s.readMem b image) 0x3C 4) ≠ at4 0x3C then 3
  else if !(tableIn (at4 0x1C) (s.img b 0x10 2) 64 image && tableIn (at4 0x20) (at4 0x14) 32 image &&
      tableIn (at4 0x24) (at4 0x18) 16 image && tableIn (at4 0x28) (s.img b 0x12 2) 16 image) ∨
      272 < s.img b 0x12 2 then 4
  else if s.img b 0x10 2 < 1 ∨ 4096 < s.img b 0x10 2 then 5
  else 0

/-- The bytes of slot n that PLE reads for those checks: the header, and with it the image once the header allows. -/
def State.loadBytes (s : State) (n : Nat) : Nat :=
  let size := (s.reg (Reg.PLE.SLOT_SIZE n)).toNat
  let image := s.img (s.slotBase n) 0x08 4
  let c := s.loadCheck n
  if c = 1 ∨ c = 2 ∨ image < 64 ∨ size < image ∨ 67108864 < image then min size 64 else image

/-! ### What a plan serves -/

/-- The window exists in epoch e (R61). -/
def PlanWindow.existsIn (w : PlanWindow) (e : Nat) : Bool := e % 2 ^ w.divLog2 == w.divRes

/-- Two windows exist in a common epoch. -/
def PlanWindow.meets (v w : PlanWindow) : Bool := (List.range 8).any fun e => v.existsIn e && w.existsIn e

/-- The plan serves a stream (R74, R86). -/
def Plan.serves (p : Plan) (n : Nat) : Bool := p.windows.any fun w => w.stream == n

/-- The plan in effect, or one pending or deferred, serves the stream (R86, R93). -/
def State.served (s : State) (n : Nat) : Bool :=
  (match s.ple.plan with | some p => p.serves n | none => false) ||
  (match s.ple.next with | some p => p.1.serves n | none => false)

/-- The units of its KIND that a window names, by number (Table 2.3). -/
def PlanWindow.named (w : PlanWindow) : List Nat :=
  match w.kind with
  | 0 => maskList w.decs 24
  | 1 => maskList w.lns 8
  | 2 => maskList w.tiles 64
  | _ => []

/-- The program entries of a window; `none` where the index lies beyond the table. -/
def Plan.programsOf (p : Plan) (w : PlanWindow) : List (Option PlanProgram) :=
  (List.range w.progNum).map fun i => p.programs[w.progFirst + i]?

/-! ### The plan check (R71, Table 2.6) -/

/-- PHASE_ORDER (R50, R55, R65). -/
def State.badPhases (s : State) (w : PlanWindow) : Bool :=
  !(decide (w.start ≤ w.latest ∧ w.latest < w.deadline ∧ w.deadline ≤ 0xFFFC00) && w.reservedZero) ||
  (s.epochSrc == 1 && decide (2 ^ 24 ≤ w.deadline + s.rfld Reg.TMU.TRIG_TOL 23 0))

/-- RESOURCE_ABSENT (R71). A window of a reserved KIND names no unit of its KIND (log 42). -/
def State.badUnits (s : State) (w : PlanWindow) : Bool :=
  let limit := match w.kind with
    | 0 => s.fuses.units .dec
    | 1 => s.fuses.units .lns
    | _ => 8 * s.fuses.rows
  w.named.isEmpty || w.named.any (fun n => decide (limit ≤ n)) || decide (s.fuses.units .scx ≤ w.stream) ||
  (w.kind != 0 && w.decs != 0) || (w.kind != 1 && w.lns != 0) || (w.kind != 2 && w.tiles != 0)

/-- RESOURCE_OVERLAP between two windows. -/
def overlaps (v w : PlanWindow) : Bool :=
  (v.tiles &&& w.tiles != 0 || v.lns &&& w.lns != 0 || v.decs &&& w.decs != 0) && v.meets w &&
  (if v.start ≤ w.start then decide (w.start < v.deadline + 1024) else decide (v.start < w.deadline + 1024))

/-- WINDOW_TOO_SHORT (R53). -/
def State.tooShort (s : State) (p : Plan) (w : PlanWindow) : Bool :=
  decide (s.cyclesOf (w.deadline - w.latest) (if w.kind = 0 then 1200 else p.minClk) <
    w.cycles + w.retryCycles + w.swapCycles)

/-- RETRY_LOW. -/
def State.retryLow (s : State) (w : PlanWindow) : Bool :=
  w.kind == 2 && decide (w.retryCycles < ceilDiv (w.cycles * s.rfld Reg.PLE.RETRY_MIN 9 0) 1000)

/-- The dependencies of a window. -/
def PlanWindow.deps (w : PlanWindow) : List Nat := [w.dep0, w.dep1].take w.depCount

/-- DEPENDENCY, for the window of index i; DEP_COUNT 3 is none of its values (log 42). -/
def badDeps (p : Plan) (i : Nat) (w : PlanWindow) : Bool :=
  decide (2 < w.depCount) || w.deps.any fun d =>
    match p.windows[d]? with
    | none => true
    | some v => decide (i ≤ d) || v.stream != w.stream || decide (w.latest < v.deadline)

/-- EMIT_DUPLICATE between two windows. -/
def emitTwice (v w : PlanWindow) : Bool :=
  v.emit && w.emit && v.stream == w.stream && v.lag == w.lag && v.sub == w.sub && v.meets w

/-- DEADLINE_MISMATCH. -/
def State.badDeadline (s : State) (w : PlanWindow) : Bool :=
  w.emit && (w.lag != s.rfld (Reg.PLE.STREAM_DL w.stream) 25 24 ||
    decide (s.rfld (Reg.PLE.STREAM_DL w.stream) 23 0 < w.deadline))

/-- MEMORY_RANGE of one reference (R57). DESIGN CHOICE (log 42): ACCESS 0, which R56 does not list, passes, since it neither
reads nor writes. -/
def badRef (p : Plan) (w : PlanWindow) (r : PlanRef) : Bool :=
  match p.areas[r.area]? with
  | none => true
  | some a => decide (a.pages * 4096 < r.offset + r.length) ||
      (a.shared && decide (2 ≤ r.access)) || (!a.shared && a.stream != w.stream && r.access != 0)

/-- MEMORY_RANGE: a reference index beyond the table included (log 42). -/
def badRefs (p : Plan) (w : PlanWindow) : Bool :=
  (p.programsOf w).any fun q => match q with
    | none => false
    | some q => (List.range q.refCount).any fun i => match p.refs[q.refFirst + i]? with
        | none => true
        | some r => badRef p w r

/-- PROGRAM_INVALID. -/
def badPrograms (p : Plan) (w : PlanWindow) : Bool :=
  (p.programsOf w).any fun q => match q with
    | none => true
    | some q => decide (p.imageSize < q.codeOff + q.codeSize) || !w.named.contains q.target

/-- PHASE_ORDER for the entries that a window reaches: a reserved field of a program or reference entry is not zero (R56;
log 42). -/
def reservedSet (p : Plan) (w : PlanWindow) : Bool :=
  (p.programsOf w).any fun q => match q with
    | none => false
    | some q => !q.reservedZero || (List.range q.refCount).any fun i => match p.refs[q.refFirst + i]? with
        | none => false
        | some r => !r.reservedZero

/-- The program and reference entries of a window that the tables hold. -/
def Plan.entriesOf (p : Plan) (w : PlanWindow) : List (Nat × PlanProgram) :=
  (List.range w.progNum).filterMap fun i => (p.programs[w.progFirst + i]?).map fun q => (w.progFirst + i, q)

/-- The program and reference entries that the checks of a window read hold poisoned data. -/
def State.entriesPoisoned (s : State) (p : Plan) (w : PlanWindow) : Bool :=
  let off := fun o => p.base + s.img p.base o 4
  (p.entriesOf w).any fun x => s.poisoned (off 0x20 + 32 * x.1) 32 ||
    (List.range x.2.refCount).any fun k => s.poisoned (off 0x24 + 16 * (x.2.refFirst + k)) 16

/-- So do the area entries that its references name. -/
def State.areasPoisoned (s : State) (p : Plan) (w : PlanWindow) : Bool :=
  (p.entriesOf w).any fun x => (List.range x.2.refCount).any fun k =>
    match p.refs[x.2.refFirst + k]? with
    | none => false
    | some r => s.poisoned (p.base + s.img p.base 0x28 4 + 16 * r.area) 16

/-- The checks of one window in the order of Table 2.6: overlap and duplicates against the windows before it. -/
def State.checkWindow (s : State) (p : Plan) (i : Nat) (w : PlanWindow) : Nat :=
  let before := p.windows.take i
  if s.poisoned (p.base + s.img p.base 0x1C 4 + 64 * i) 64 then 0x06
  else if s.entriesPoisoned p w then 0x06
  else if s.badPhases w || reservedSet p w then 0x13
  else if s.badUnits w then 0x14
  else if before.any (overlaps w) then 0x15
  else if s.tooShort p w then 0x16
  else if s.retryLow w then 0x17
  else if badDeps p i w then 0x18
  else if s.streamState w.stream = 0 then 0x1A
  else if before.any (emitTwice w) then 0x1B
  else if s.badDeadline w then 0x1C
  else if s.areasPoisoned p w then 0x06
  else if badRefs p w then 0x1D
  else if badPrograms p w then 0x1F
  else 0

/-- STREAM_UNSERVED: an ACTIVE or HELD stream that no window emits for. -/
def State.unserved (s : State) (p : Plan) : Bool :=
  (List.range 256).any fun n =>
    (s.streamState n == 2 || s.streamState n == 3) &&
      !(p.windows.any fun w => w.emit && w.stream == n && (List.range 8).any fun e => w.existsIn e)

/-- Two regions, each a start and a length, share a byte. -/
def meet (a b : Nat × Nat) : Bool := decide (0 < a.2 ∧ 0 < b.2 ∧ a.1 < b.1 + b.2 ∧ b.1 < a.1 + a.2)

/-- The bytes of an area. -/
def PlanArea.span (a : PlanArea) : Nat × Nat := (a.base, a.pages * 4096)

/-- AREA_INVALID: also more than the 16 shared areas of R57. DESIGN CHOICE (log 42): the STREAM of an area entry names no
stream context that has to be there, since Table 2.6 lists none among AREA_INVALID's conditions. -/
def State.badAreas (s : State) (p : Plan) : Bool :=
  let pool := (s.poolBase, s.poolCells * 256)
  let dump := if s.rbit Reg.SEC.DUMP_CFG 31 then (s.rfld Reg.SEC.DUMP_CFG 8 0 * 2 ^ 28, 2 ^ 28) else (0, 0)
  let one := fun (i : Nat) (a : PlanArea) =>
    a.base % 4096 != 0 || decide (s.usable < a.base + a.pages * 4096) || meet a.span pool || meet a.span dump ||
    (p.areas.take i).any fun b => meet a.span b.span || (!a.shared && !b.shared && a.stream == b.stream)
  (p.areas.zipIdx.any fun x => one x.2 x.1) || decide (16 < (p.areas.filter (·.shared)).length)

/-- The first failure over the windows in index order, from index i on. -/
def State.checkWindows (s : State) (p : Plan) : List PlanWindow → Nat → Option (Nat × Nat)
  | [], _ => none
  | w :: ws, i => match s.checkWindow p i w with
    | 0 => s.checkWindows p ws (i + 1)
    | c => some (c, i)

/-- The plan check (R71): the reason of Table 2.6 and the window it concerns; a reserved field of the header that is not zero
is PHASE_ORDER of no window (Table 2.2). DESIGN CHOICE (log 42): STREAM_UNSERVED and AREA_INVALID, which concern no window,
come after the checks of every window. -/
def State.planCheck (s : State) (p : Plan) : Nat × Option Nat :=
  let b := p.base
  if s.poisoned b 64 then (0x06, none)
  else if s.period < p.minPeriod ∨ p.maxPeriod < s.period then (0x11, none)
  else if s.tileMhz < p.minClk then (0x12, none)
  else if s.img b 0x36 2 ≠ 0 ∨ s.img b 0x38 4 ≠ 0 then (0x13, none)
  else match s.checkWindows p p.windows 0 with
    | some (c, i) => (c, some i)
    | none =>
      if s.unserved p then (0x19, none)
      else if s.poisoned (b + s.img b 0x28 4) (16 * p.areas.length) then (0x06, none)
      else if s.badAreas p then (0x1E, none)
      else (0, none)

/-! ### Slots and the commit (R58 to R60, R72 to R76) -/

/-- SLOT_STATUS[n].STATE: 0 EMPTY, 1 LOADING, 2 LOADED, 3 BAD, 4 IN_USE. -/
def State.slotState (s : State) (n : Nat) : Nat := s.rfld (Reg.PLE.SLOT_STATUS n) 2 0

/-- Write SLOT_STATUS[n]. -/
def State.setSlot (s : State) (n st reason : Nat) : State := s.setNum (Reg.PLE.SLOT_STATUS n) (reason * 256 + st)

/-- COMMIT_STATUS.STATE: 0 IDLE, 1 CHECKING, 2 PENDING, 3 DEFERRED, 4 REJECTED, 5 CANCELLED. -/
def State.commitState (s : State) : Nat := s.rfld Reg.PLE.COMMIT_STATUS 2 0

/-- Write it. -/
def State.setCommit (s : State) (st : Nat) : State := s.setFld Reg.PLE.COMMIT_STATUS 2 0 st

/-- COMMIT with CANCEL 0 (R60, R72, R75). -/
def State.commitSlot (s : State) (n : Nat) : State :=
  if 1 ≤ s.commitState ∧ s.commitState ≤ 3 then (s.setBit Reg.PLE.COMMIT_STATUS 28).protocol U.ple
  else
    let ok := s.slotState n == 2
    let s := s.when ok fun s => s.setSlot n 4 0
    let s := (s.setCommit 1).setFld Reg.PLE.COMMIT_STATUS 7 4 n
    { s with ple := { s.ple with checking := some (n, s.clock.phase, s.clock.epoch, ok) } }

/-- COMMIT with CANCEL 1 (R76). -/
def State.cancelCommit (s : State) : State :=
  match s.ple.next with
  | some (p, e) =>
    if e.toNat * puMax < s.clock.epoch.toNat * puMax + s.clock.phase.toNat + 2 ^ 18 then
      s.setBit Reg.PLE.COMMIT_STATUS 28
    else
      let s := (s.setSlot p.slot 2 0).setCommit 5
      { s with ple := { s.ple with next := none } }
  | none => s.setBit Reg.PLE.COMMIT_STATUS 28

/-- A COMMIT write (R72, R76). -/
def State.commitWrite (s : State) (v : Word) : State := if tst v 8 then s.cancelCommit else s.commitSlot (fld v 3 0)

end Sys2Proof.Machine
end

