-- ==== Sys2Proof/Machine/EgrOps.lean ====
section
/-!
DEFINITION. Records (11_results, R66 to R69): the chain of an emitting window, its status and flags, the record's bytes
(R286 to R294), acceptance into the record store (R295 to R297).
-/
namespace Sys2Proof.Machine

/-! ### Chains and status (R66, R288) -/

/-- The window went to a state of Table 2.4, whether or not it is CLOSED since. -/
def WinRun.went (r : WinRun) (x : WinSt) : Bool := r.st == x || (r.st == .closed && r.closing == x)

/-- The chain of window w: itself and every window reachable through dependencies (11_results). -/
def chainOf (p : Plan) (w : Nat) : List Nat :=
  (List.range (w + 1)).reverse.foldl (fun acc i =>
    if acc.contains i then
      match p.windows[i]? with
      | some e => acc ++ e.deps.filter fun d => !acc.contains d
      | none => acc
    else acc) [w]

/-- A condition of some window of a chain. -/
def State.chainAny (s : State) (p : Plan) (c : List Nat) (f : PlanWindow → WinRun → Bool) : Bool :=
  c.any fun i => match p.windows[i]? with | some e => f e (s.win i) | none => false

/-- The flags of a chain (R288): those that its windows raised. -/
def State.chainFlags (s : State) (c : List Nat) : Word := c.foldl (fun a i => a ||| (s.win i).flags) 0

/-- The record's status (R66, Table 2.5), as the code of Table 11.2. -/
def State.statusOf (s : State) (p : Plan) (c : List Nat) (n : Nat) (flags : Word) : Nat :=
  if s.chainAny p c fun _ r => r.went .forced then 7
  else if s.streamState n = 3 ∧ s.holdReason n = 1 then 3
  else if s.streamState n = 3 then 8
  else if s.chainAny p c fun e r => e.srcFrame && r.went .skipped then 5
  else if tst flags 5 then 4
  else if tst flags 7 then 6
  else if tst flags 4 then 2
  else if tst flags 0 then 1
  else 0

/-- Statuses whose records carry no objects (Table 2.5, ranks 1 to 4). -/
def noObjects (status : Nat) : Bool := status == 7 || status == 3 || status == 8 || status == 5

/-! ### Header fields (R287, R293) -/

/-- capture_time_ns of R105 for a capture epoch, negative before epoch 0, modulo 2^64. -/
def State.captureNs (s : State) (c : Int) (sub phi : Nat) : Nat :=
  wrapN 64 ((s.origin : Int) + c * (s.period : Int) + (sub * s.period / phi : Nat))

/-- Header bytes 44 to 63 and the meter flags (R293): the snapshot of boundary c, else the newest periodic one, else
zeros. With no periodic snapshot ever the fields are zero too (log 43). -/
def State.meterBytes (s : State) (c : Nat) : Bytes × Word :=
  let x := s.snapSlot (c % 4)
  if x.2.2 ∧ x.2.1.toNat = c then (x.1, 0)
  else
    let recent := match s.met.lastSnap with
      | some t => decide (s.clock.time.toNat - t ≤ 10000000)
      | none => false
    match s.met.newest with
    | some (f, _) => if recent then (f.take 20, bit1 17) else (List.replicate 20 0, bit1 18)
    | none => (List.replicate 20 0, bit1 18)

/-- The record header (Table 11.1). -/
def recordHeader (status node stream sub lag : Nat) (primary : Bool) (seq capture epoch deadline objs permille flags
    retries length term : Nat) (meter : Bytes) : Bytes :=
  leBytes 2 0x5952 ++ leBytes 1 0x10 ++ leBytes 1 status ++ leBytes 2 node ++ leBytes 1 stream ++
  leBytes 1 (sub * 64 + lag * 16 + b2n primary * 8) ++ leBytes 4 seq ++ leBytes 8 capture ++ leBytes 5 epoch ++
  leBytes 3 deadline ++ leBytes 2 objs ++ leBytes 2 permille ++ leBytes 4 flags ++ leBytes 2 retries ++
  leBytes 2 length ++ leBytes 4 term ++ meter

/-- A record with its trailer (R286). -/
def sealRecord (body : Bytes) : Bytes := body ++ leBytes 4 (crc32c body)

/-- An object entry with EGR's generation in GEN (R289, R291). -/
def withGen (gen : Nat) (e : Bytes) : Bytes :=
  e.take 3 ++ [BitVec.ofNat 8 ((e.getD 3 0).toNat % 16 + gen * 16)] ++ e.drop 4

/-- The 48-byte entries of an object table behind its COUNT word (R256, R290). -/
def objEntries (t : Bytes) (n : Nat) : List Bytes := (List.range n).map fun i => sliceB t (4 + 48 * i) 48

/-! ### The record store (R296, R297) -/

/-- Bytes in use. -/
def State.storeUsed (s : State) : Nat := s.egr.store.foldl (fun a r => a + r.data.length) 0

/-- The store changes: STORE_FREE follows it, and PG_ERR.STORE_LOW is set when it falls below STORE_LOW (R297). -/
def State.setStore (s : State) (l : List Rec) : State :=
  let old := s.rfld Reg.EGR.STORE_FREE 12 0
  let s := { s with egr := { s.egr with store := l } }
  let now := (4194304 - s.storeUsed) / 1024
  let low := s.rfld Reg.EGR.STORE_LOW 12 0
  let s := s.setNum Reg.EGR.STORE_FREE now
  s.when (decide (low ≤ old ∧ now < low)) fun s => s.raise U.egr 8

/-- Entries that fit: 128 bytes stay reserved for each stream context that is not FREE (R296). -/
def State.storeRoom (s : State) : Nat :=
  let inUse := ((List.range 256).filter fun n => s.streamState n != 0).length
  (4194304 - 128 * inUse - s.storeUsed - 68) / 48

/-- The settings of a sink as taken up (R305). -/
def State.sinkOf (s : State) (k : Nat) : SinkSet := s.egr.sinks.get (fun _ => SinkSet.reset) k

/-- The sink receives records of stream n (R301). -/
def SinkSet.takes (x : SinkSet) (n : Nat) : Bool := tst x.cfg 31 && tst (x.streams.getD (n / 32) 0) (n % 32)

/-- A discard for a ring is remembered until a record of the stream reaches it (R299). -/
def State.setDropBefore (s : State) (n r : Nat) (b : Bool) : State :=
  { s with egr := { s.egr with dropBefore := s.egr.dropBefore.set (fun _ => false) (8192 * n + r) b } }

/-! ### Acceptance (R295) -/

/-- The chain's picture: PERMILLE is that of the chain, 0 without one (Table 11.1). -/
def State.chainMax (s : State) (c : List Nat) (f : WinRun → Nat) : Nat := c.foldl (fun a i => Nat.max a (f (s.win i))) 0

/-- EGR accepts the record of emitting window w (R286 to R297): generation, entries, header, trailer, store, counters.
While EGR is not RUNNING the record is discarded at every destination without a count (R306; log 44). -/
def State.acceptRecord (s : State) (p : Plan) (w : Nat) (e : PlanWindow) : State :=
  let n := e.stream
  let c := chainOf p w
  let s := s.setWin w { s.win w with handed := true }
  let flags := s.chainFlags c
  let status := s.statusOf p c n flags
  let table := ((s.win w).objs).getD (leBytes 4 0)
  let bad := decide (1024 < leAt table 0 4)
  let s := s.when bad fun s => (s.raise U.egr 12 (some (BitVec.ofNat 12 w, BitVec.ofNat 8 n))).incS Reg.EGR.OBJ_INVALID_CNT
  let s := s.when (tst flags 12 || tst flags 13) fun s =>
    s.setNum (Reg.EGR.STREAM_GEN n) ((s.rfld (Reg.EGR.STREAM_GEN n) 3 0 + 1) % 16)
  let want := if bad ∨ noObjects status then 0 else leAt table 0 4
  let kept := if s.running U.egr then min want s.storeRoom else want
  let s := s.when (decide (kept < want)) fun s =>
    (s.raise U.egr 11 (some (BitVec.ofNat 12 w, BitVec.ofNat 8 n))).incS Reg.EGR.TRUNC_CNT
  let objs := (objEntries table kept).map (withGen (s.rfld (Reg.EGR.STREAM_GEN n) 3 0))
  let ce : Int := (s.clock.epoch.toNat : Int) - (e.lag : Int)
  let cap := wrapN 40 ce
  let meter := s.meterBytes cap
  let flags := flags ||| meter.2 ||| (if kept < want then bit1 15 else 0) ||| (if bad then bit1 16 else 0) |||
    (if s.met.diffFail then bit1 19 else 0) ||| (if s.clock.holdHist.getD e.lag false then bit1 20 else 0)
  let seq := (s.reg (Reg.EGR.STREAM_SEQ n)).toNat
  let retries := c.foldl (fun a i => a + (s.win i).retries) 0
  let body := recordHeader status (s.rfld Reg.DEVCTL.NODE 15 0) n e.sub e.lag (s.rbit Reg.DEVCTL.PRIMACY 31) seq
      (s.captureNs ce e.sub (s.phi n)) cap e.deadline kept (s.chainMax c (·.permille)) flags.toNat (min 65535 retries)
      (68 + 48 * kept) (s.reg Reg.DEVCTL.PRIMACY_TERM).toNat meter.1 ++ objs.flatten
  let s := (s.incW Reg.EGR.ACCEPTED).incW (Reg.EGR.STREAM_SEQ n)
  if !s.running U.egr then s
  else
    let ring := s.reg (Reg.EGR.STREAM_RING n)
    let r : Rec := { data := sealRecord body, stream := BitVec.ofNat 8 n,
                     ring := if tst ring 31 then some (BitVec.ofNat 13 (fld ring 12 0)) else none,
                     sinks := (List.range 64).filter fun k => (s.sinkOf k).takes n, time := s.clock.time }
    if r.ring.isNone ∧ r.sinks.isEmpty then s else s.setStore (s.egr.store ++ [r])

/-- A stream context leaves FREE (R287, R291): FRAME_SEQ and the track generation restart, no discard is remembered. -/
def State.egrStreamStart (s : State) (n : Nat) : State :=
  let s := (s.setNum (Reg.EGR.STREAM_SEQ n) 0).setNum (Reg.EGR.STREAM_GEN n) 0
  { s with egr := { s.egr with dropBefore := s.egr.dropBefore.filter fun x => x.1 / 8192 != n } }

end Sys2Proof.Machine
end

