-- ==== Sys2Proof/Machine/DecOps.lean ====
section
/-!
DEFINITION. Video decode operations (05_decode): descriptors and their check, the decode-state copies, the sequence check,
division among cores and the exact charge, concealment, and what a finished picture leaves in device DRAM.
-/
namespace Sys2Proof

/-! ### Coded units and partitions -/

/-- Luma samples of a unit. -/
def CodedUnit.area (u : CodedUnit) : Nat := u.w * u.h

/-- Luma samples of a partition. -/
def partArea (p : List CodedUnit) : Nat := p.foldl (fun a u => a + u.area) 0

/-- Units of a partition that can be reconstructed: those before the syntax errors of their segments (Table 5.8). -/
def usable (p : List CodedUnit) : List CodedUnit := p.filter fun u => !u.bad

/-- A unit covers a luma sample. -/
def CodedUnit.covers (u : CodedUnit) (x y : Nat) : Bool := decide (u.x ≤ x ∧ x < u.x + u.w ∧ u.y ≤ y ∧ y < u.y + u.h)

/-- A unit touches a rectangle. -/
def CodedUnit.touches (u : CodedUnit) (x y w h : Nat) : Bool :=
  decide (u.x < x + w ∧ x < u.x + u.w ∧ u.y < y + h ∧ y < u.y + u.h)

end Sys2Proof

namespace Sys2Proof.Machine

/-! ### Descriptors (R135 to R137, R143, R155, R158) -/

/-- A decode descriptor from its 16 words, with its PART_INDEX; reserved fields must be zero (R135). -/
def DecDesc.ofWords (w : Nat → Nat) : DecDesc × Nat × Bool :=
  ({ mode := bitsOf (w 0) 31 28, k := bitsOf (w 0) 22 20 + 1, dpbMax := bitsOf (w 0) 15 8, outHold := bitsOf (w 0) 7 6
     depthMax := bitsOf (w 0) 3 2, codec := bitsOf (w 0) 1 0, maxW := bitsOf (w 1) 31 16, maxH := bitsOf (w 1) 15 0
     levelMax := bitsOf (w 2) 31 24, opSel := bitsOf (w 2) 23 16, statsDepth := bitsOf (w 2) 15 8
     cpxEn := bitOf (w 2) 1, mvEn := bitOf (w 2) 0, pliPermille := bitsOf (w 3) 25 16, profileMask := bitsOf (w 3) 2 0 },
   bitsOf (w 0) 18 16,
   bitsOf (w 0) 27 23 == 0 && !bitOf (w 0) 19 && bitsOf (w 0) 5 4 == 0 && bitsOf (w 2) 7 2 == 0 &&
     bitsOf (w 3) 31 26 == 0 && bitsOf (w 3) 15 3 == 0 && (List.range 12).all fun i => w (4 + i) == 0)

/-- Bytes of a sample: b of R155. -/
def DecDesc.b (d : DecDesc) : Nat := if d.depthMax = 0 then 1 else 2

/-- Pitch P (R155). -/
def DecDesc.pitch (d : DecDesc) : Nat := ceilDiv (d.maxW * d.b) 256 * 256

/-- H16 (R155). -/
def DecDesc.h16 (d : DecDesc) : Nat := ceilDiv d.maxH 16 * 16

/-- Buffer bytes S (R155). -/
def DecDesc.bufBytes (d : DecDesc) : Nat :=
  ceilDiv (ceilDiv (3 * d.pitch * d.h16) 2 + 4 * ceilDiv d.maxW 16 * ceilDiv d.maxH 16) 4096 * 4096

/-- Buffers N_b (R155). -/
def DecDesc.buffers (d : DecDesc) : Nat := d.dpbMax + d.outHold + 1

/-- F_mv (R158). -/
def DecDesc.mvBytes (d : DecDesc) : Nat := roundUp (4 * ceilDiv d.maxW 16 * ceilDiv d.maxH 16) 64

/-- F_cx (R158). -/
def DecDesc.cxBytes (d : DecDesc) : Nat := roundUp (2 * ceilDiv d.maxW 64 * ceilDiv d.maxH 64) 64

/-- Slot bytes T (R158). -/
def DecDesc.statBytes (d : DecDesc) : Nat := roundUp (64 + d.mvBytes + d.cxBytes) 4096

/-- Concealment reserve C_r (R143). -/
def DecDesc.reserve (d : DecDesc) : Nat :=
  (if d.depthMax = 0 then 1 else 2) * ceilDiv (ceilDiv d.maxH 64) d.k * d.maxW + 2000

/-- The fields of a descriptor lie in the ranges of Table 5.4 and Table 5.2, and its codec is the stream's (R137). -/
def DecDesc.ok (d : DecDesc) (codec : Nat) : Bool :=
  decide (d.mode ≤ 3 ∧ d.codec ≤ 2 ∧ d.codec = codec ∧ d.depthMax ≤ 1 ∧ 1 ≤ d.dpbMax ∧ d.dpbMax ≤ 16 ∧ 1 ≤ d.outHold ∧
    1 ≤ d.statsDepth ∧ d.statsDepth ≤ 16 ∧ 1 ≤ d.pliPermille ∧ d.pliPermille ≤ 1000 ∧ (d.codec = 2 ∨ d.opSel = 0) ∧
    (d.mode ≠ 0 ∨ d.k = 1) ∧ 64 ≤ d.maxW ∧ d.maxW ≤ 8192 ∧ 64 ≤ d.maxH ∧ d.maxH ≤ 8192 ∧
    d.maxW * d.maxH ≤ 35651584)

/-- The program entries of a window for one unit. -/
def Plan.programsFor (p : Plan) (w : PlanWindow) (n : Nat) : List PlanProgram :=
  (p.programsOf w).filterMap fun q => match q with
    | some q => if q.target = n then some q else none
    | none => none

/-- The references of a program. -/
def Plan.refsOf (p : Plan) (q : PlanProgram) : List PlanRef :=
  (List.range q.refCount).filterMap fun i => p.refs[q.refFirst + i]?

/-- Device address of a reference (R56). -/
def Plan.refAddr (p : Plan) (r : PlanRef) : Nat := (p.areas.getD r.area default).base + r.offset

/-- The descriptor of one core and its references, checked on their own; none where R135 or R136 is broken. -/
def State.decDescOf (s : State) (p : Plan) (w : PlanWindow) (n : Nat) : Option (DecDesc × Nat × List PlanRef) :=
  match p.programsFor w n with
  | [q] =>
    let a := p.base + q.codeOff
    let d := DecDesc.ofWords (fun i => leNat (s.readMem (a + 4 * i) 4))
    let refs := p.refsOf q
    match refs with
    | [r0, r1, r2] =>
      if !s.poisoned a 64 && d.2.2 && d.1.ok (s.codecOf w.stream) && decide (524288 ≤ r0.length ∧ r0.access = 3 ∧
          d.1.buffers * d.1.bufBytes ≤ r1.length ∧ r1.access = 3 ∧
          d.1.statsDepth * d.1.statBytes ≤ r2.length ∧ 2 ≤ r2.access) then some (d.1, d.2.1, refs)
      else none
    | _ => none
  | _ => none

/-- The picture store's geometry: that of the stream's DECODE window in the plan (R155; log 48). -/
def State.storeGeometry (s : State) (p : Plan) (stream : Nat) : Option DecDesc :=
  match p.windows.find? fun v => v.kind == 0 && v.stream == stream with
  | some v => match p.programsOf v with
    | some q :: _ => some (DecDesc.ofWords fun i => leNat (s.readMem (p.base + q.codeOff + 4 * i) 4)).1
    | _ => none
  | none => none

/-- The firing check of R137 over all named cores: the common descriptor, the references, and each core's part. -/
def State.decCheck (s : State) (p : Plan) (w : PlanWindow) : Option (DecDesc × List PlanRef × List (Nat × Nat)) :=
  let l := w.named.map fun n => (n, s.decDescOf p w n)
  match l with
  | (_, some (d, _, refs)) :: _ =>
    let parts := l.filterMap fun x => x.2.map fun y => (x.1, y.2.1)
    if (l.all fun x => match x.2 with | some y => y.1 == d && y.2.2 == refs | none => false) &&
        decide (w.named.length = d.k) && (List.range d.k).all (fun i => parts.any fun x => x.2 == i) &&
        decide (w.progNum = d.k) then some (d, refs, parts)
    else none
  | _ => none

/-! ### Decode-state copies (R80, R138, R139; log 45) -/

/-- Bytes of one copy. -/
def copyBytes : Nat := 262144

/-- The stamp of a copy: EPOCH, SUB, slot, and the CRC that completes it (layout the model's own, log 45). -/
def stampBytes (epoch sub slot : Nat) : Bytes :=
  let b := leBytes 5 epoch ++ leBytes 1 (sub * 64) ++ leBytes 2 0x5953 ++ leBytes 8 slot ++ List.replicate 44 0
  b ++ leBytes 4 (crc32c b)

/-- The slot of a copy that carries a complete stamp and is not poisoned (Table 5.8, STATE_LOST). -/
def State.copySlot (s : State) (base i : Nat) : Option Nat :=
  let a := base + i * copyBytes + copyBytes - 64
  let b := s.readMem a 64
  if !s.poisoned (base + i * copyBytes) copyBytes && leAt b 6 2 == 0x5953 && leAt b 60 4 == crc32c (b.take 60) then some (leAt b 8 8) else none

/-- The copy with the newer complete stamp; copy 0 where both hold one slot. -/
def State.newerCopy (s : State) (base : Nat) : Option Nat :=
  match s.copySlot base 0, s.copySlot base 1 with
  | some a, some b => some (if a < b then 1 else 0)
  | some _, none => some 0
  | none, some _ => some 1
  | none, none => none

/-- A unit reads both copies' stamps, and the newer copy's bytes up to `n`. -/
def State.readCopies (s : State) (u : Inst) (base n : Nat) : State :=
  let copy := s.newerCopy base
  let s := (List.range 2).foldl (fun s i => s.readBeats u (base + i * copyBytes + copyBytes - 64) 64) s
  match copy with
  | some i => s.readBeats u (base + i * copyBytes) n
  | none => s

/-- The 16 bytes of an output table entry (Table 5.6). -/
def OutEntry.bytes (e : OutEntry) : Bytes :=
  leBytes 5 e.epoch ++ leBytes 1 (e.sub * 64) ++ leBytes 1 e.buffer ++
  leBytes 1 (b2n e.taint * 8 + b2n e.abandoned * 4 + b2n e.concealed * 2 + b2n e.valid) ++
  leBytes 2 e.width ++ leBytes 2 e.height ++ leBytes 2 e.permille ++ leBytes 1 e.depth ++ leBytes 1 0

/-- Read one. -/
def OutEntry.of (b : Bytes) : OutEntry :=
  let f := leAt b 7 1
  { epoch := leAt b 0 5, sub := leAt b 5 1 / 64, buffer := leAt b 6 1, taint := bitOf f 3, abandoned := bitOf f 2
    concealed := bitOf f 1, valid := bitOf f 0, width := leAt b 8 2, height := leAt b 10 2, permille := leAt b 12 2
    depth := leAt b 14 1 }

/-- The four entries of a table, newest first. -/
def outEntries (t : Bytes) : List OutEntry := (List.range 4).map fun i => OutEntry.of (sliceB t (16 * i) 16)

/-- The store's bookkeeping in a copy (layout the model's own): a lost mark and up to 32 pictures, newest first. -/
def storeBytes (lost : Bool) (l : List StorePic) : Bytes :=
  sliceB (leBytes 1 (b2n lost) ++ leBytes 1 l.length ++
    l.flatMap fun x => leBytes 1 x.buffer ++ leBytes 1 (b2n x.isRef + 2 * b2n x.taint + 4 * b2n x.deep) ++ leBytes 2 x.permille) 0 192

/-- Read it. -/
def storeOf (b : Bytes) : Bool × List StorePic :=
  (leAt b 0 1 % 2 == 1, (List.range (min 32 (leAt b 1 1))).map fun i =>
    let f := leAt b (3 + 4 * i) 1
    { buffer := leAt b (2 + 4 * i) 1, isRef := bitOf f 0, deep := bitOf f 2, permille := leAt b (4 + 4 * i) 2, taint := bitOf f 1 })

/-- Core PART_INDEX 0 writes the older copy: output table, bookkeeping, the rest of the state, which is empty when a refusal
has discarded it, and the stamp last (R80, R138, R148). -/
def State.writeCopy (s : State) (u : Inst) (pic : PicRun) (table : Bytes) (lost : Bool) (store : List StorePic)
    (epoch sub slot : Nat) : State :=
  let a := pic.stateBase + pic.older * copyBytes
  let rest := (List.range (copyBytes - 64 - 256)).map fun i =>
    if lost then 0 else Config.sideByte 0 pic.decState pic.data i
  let s := s.writeMem u a (sliceB table 0 64 ++ storeBytes lost store ++ rest)
  s.writeMem u (a + copyBytes - 64) (stampBytes epoch sub slot)

/-! ### The sequence check (R131, R132, R148) -/

/-- The highest level code of Table 5.1. -/
def topLevel (codec : Nat) : Nat := if codec = 0 then 62 else if codec = 1 then 186 else 19

/-- The output-order condition of R132 fails. -/
def seqReorders (q : SeqInfo) (codec : Nat) : Bool :=
  if codec = 2 then q.shown != 1
  else match q.reorderMax with
    | some n => n != 0
    | none => codec == 1 || q.laterRefs

/-- The sequence is coded in fields (R132, Table 5.3). -/
def seqInterlaced (q : SeqInfo) (codec : Nat) : Bool :=
  if codec = 0 then !q.frameMbsOnly else if codec = 1 then q.fieldSeq else false

/-- The codec that has a tool (Table 5.3). -/
def toolCodec : Tool → Nat
  | .fmo | .aso | .spSlices | .siSlices | .dataPartitioning => 0
  | .rangeExt | .screenContentExt | .multiLayerExt => 1
  | .largeScaleTile => 2

/-- The refusal cause of Table 5.7, the lowest where several hold; 0 where the sequence passes. -/
def seqCause (d : DecDesc) (q : SeqInfo) : Nat :=
  if d.maxW < q.width ∨ d.maxH < q.height ∨ q.width < 64 ∨ 8192 < q.width ∨ q.height < 64 ∨ 8192 < q.height ∨
      35651584 < q.width * q.height then 1
  else if d.levelMax < q.level ∨ topLevel d.codec < q.level ∨ q.beyondLevel then 2
  else if (match q.profileBit with | some i => !d.profileMask.testBit i | none => true) ||
      decide (8 + 2 * d.depthMax < q.depth) || q.chroma != 1 then 3
  else if d.dpbMax < q.refs then 4
  else if seqReorders q d.codec then 5
  else if seqInterlaced q d.codec then 6
  else if q.tools.any (fun t => toolCodec t == d.codec) then 7
  else 0

/-- κ in hundredths (Table 2.10). -/
def kappa100 (codec profileBit : Nat) : Nat :=
  if codec = 2 then (if profileBit = 0 then 105 else 120) else if codec = 1 ∧ profileBit = 1 then 115 else 100

/-! ### Division and charge (R140, R142, R144) -/

/-- The mode suits the codec and the picture (Table 5.5, R140). -/
def DecDesc.suits (d : DecDesc) (i : PicInfo) : Bool :=
  match d.mode with
  | 0 => true
  | 1 => decide (d.codec ≤ 1)
  | 2 => decide (1 ≤ d.codec) && i.hasTiles
  | _ => d.codec == 1 && i.wpp

/-- The units that agree in something, in bitstream order. -/
def groupUnits (f : CodedUnit → Nat) (l : List CodedUnit) : List (List CodedUnit) :=
  ((l.map f).eraseDups).map fun k => l.filter fun u => f u == k

/-- The partitions of a picture in bitstream order (Table 5.5). -/
def DecDesc.partsOf (d : DecDesc) (i : PicInfo) : List (List CodedUnit) :=
  if !d.suits i then [i.units]
  else match d.mode with
    | 0 => [i.units]
    | 1 => groupUnits (·.slice) i.units
    | 2 => groupUnits (·.tile) i.units
    | _ => groupUnits (·.row) i.units

/-- The core with the smallest area assigned so far, the lowest on a tie. -/
def leastCore (areas : List Nat) : Nat := areas.findIdx fun a => a == areas.foldl min (areas.headD 0)

/-- Greedy assignment by area (R140): the part that owns each partition. -/
def greedy : List (List CodedUnit) → List Nat → List Nat
  | [], _ => []
  | p :: ps, areas => let c := leastCore areas; c :: greedy ps (modAt areas c (· + partArea p))

/-- The owner of each partition, and whether PART_SHORT counts (R140, Table 5.5). -/
def DecDesc.divide (d : DecDesc) (i : PicInfo) : List Nat × Bool :=
  let parts := d.partsOf i
  if !d.suits i then ([0], true)
  else if d.mode = 0 then ([0], false)
  else if d.mode = 3 then ((List.range parts.length).map fun r => r % d.k, decide (parts.length < d.k))
  else (greedy parts (List.replicate d.k 0), decide (parts.length < d.k))

/-- One core's progress over the picture: charge in hundredths, whether its charge stopped it, whether it is halted. -/
structure CoreRun where
  charge : Nat
  overrun : Bool
  halted : Bool
  left : Nat
  deriving DecidableEq, Repr, Inhabited

/-- Reconstruct up to `cap` units: the units done and the core after them. The unit that raises the charge above CYCLES
is kept; the core then stops if units of its own remain (R144). -/
def runUnits (kappa cycles : Nat) : List CodedUnit → Nat → CoreRun → Nat × CoreRun
  | [], _, c => (0, c)
  | _, 0, c => (0, c)
  | u :: us, cap + 1, c =>
    if c.halted then (0, c)
    else
      let ch := c.charge + kappa * u.area + 50 * u.bits
      let left := c.left - 1
      let stop := decide (cycles < ceilDiv ch 100 ∧ 0 < left)
      let r := runUnits kappa cycles us cap { charge := ch, overrun := c.overrun || stop, halted := stop, left := left }
      (r.1 + 1, r.2)

/-- All partitions in order; in WPP mode a row goes no further than two units behind the row above, and a core that
meets a dependency that was not reconstructed stops (R144). -/
def runParts (kappa cycles : Nat) (wpp : Bool) : List (List CodedUnit × Nat) → Option (Nat × Nat) → List CoreRun → List Nat × List CoreRun
  | [], _, cs => ([], cs)
  | (p, owner) :: ps, above, cs =>
    let c := cs.getD owner default
    let us := usable p
    let cap := match above with
      | some (done, total) => if wpp ∧ done < total then min us.length (done - 1) else us.length
      | none => us.length
    let r := runUnits kappa cycles us cap c
    let c' := if wpp ∧ r.1 < us.length then { r.2 with halted := true } else r.2
    let q := runParts kappa cycles wpp ps (some (r.1, us.length)) (cs.set owner c')
    (r.1 :: q.1, q.2)

/-- What each partition comes to under the charge alone, and the cores' charges (R142, R144). -/
def DecDesc.reconstruct (d : DecDesc) (i : PicInfo) (owner : List Nat) (cycles : Nat) : List Nat × List CoreRun :=
  let start : List CoreRun := (List.range d.k).map fun c =>
    { charge := ceilDiv 2000000 d.k, overrun := false, halted := false
      left := (((d.partsOf i).zip owner).filter fun x => x.2 == c).foldl (fun a x => a + (usable x.1).length) 0 }
  runParts (kappa100 d.codec i.profileBit) cycles (d.mode == 3 && d.suits i) ((d.partsOf i).zip owner) none start

/-! ### Concealment (R150 to R154) -/

/-- The store's picture behind a reference of the picture: present only while it is a reference. -/
def PicRun.refPic (q : PicRun) (i : Nat) : Option StorePic :=
  match q.store[i]? with | some x => if x.isRef then some x else none | none => none

/-- The substitute of R151. -/
def PicRun.substitute (q : PicRun) : Option StorePic :=
  match q.store.find? fun x => x.permille == 0 && !x.taint with
  | some x => some x
  | none => q.store.head?

/-- Device address of a buffer. -/
def PicRun.bufAddr (q : PicRun) (i : Nat) : Nat := q.storeBase + i * q.desc.bufBytes

/-- The references that prediction uses, each absent one replaced by the substitute (Table 5.8, MISSING_REF). -/
def PicRun.usedRefs (q : PicRun) : List (Option StorePic) :=
  q.info.refs.map fun i => match q.refPic i with | some x => some x | none => q.substitute

/-- A unit is predicted from a reference that is absent from the store. -/
def PicRun.refMissing (q : PicRun) (u : CodedUnit) : Bool :=
  u.preds.any fun x => match q.info.refs[x.1]? with
    | some i => (q.refPic i).isNone
    | none => true

/-- Device address of byte o of an access unit whose descriptor opens the first of these cells (R121). -/
def State.auAddr (s : State) (cells : List Nat) (o : Nat) : Nat :=
  s.cellAddr (cells.getD ((o + 32) / 248) 0) + 8 + (o + 32) % 248

/-- A unit's prediction or residual reads poisoned data (Table 5.8, POISON). -/
def State.unitPoisoned (s : State) (q : PicRun) (cells : List Nat) (u : CodedUnit) : Bool :=
  ((List.range u.dataLen).any fun i => (s.readBlock (s.auAddr cells (u.dataOff + i) / 64)).2) ||
  u.preds.any fun x => match q.usedRefs.getD x.1 none with
    | some r => s.poisoned (q.bufAddr r.buffer + x.2.1) x.2.2
    | none => false

/-- Why a unit of the picture is concealed: an event of Table 5.8, 0 for a decoded one. -/
abbrev Concealed := CodedUnit × Nat

/-- A unit that stands for a whole picture. -/
def wholeUnit (w h : Nat) : CodedUnit :=
  { x := 0, y := 0, w := w, h := h, bits := 0, dataOff := 0, dataLen := 0, preds := [], slice := 0, seg := 0, tile := 0, row := 0,
    bad := false }

/-- The units of a partition, each with the reconstructable units before it: `done` of them were reconstructed. An error is
met once all before it are. -/
def State.partEvents (s : State) (q : PicRun) (cells : List Nat) (done : Nat) : List CodedUnit → Nat → List Concealed
  | [], _ => []
  | u :: us, i =>
    (u, if u.bad then (if i ≤ done then 1 else 4) else if done ≤ i then 4
        else if s.unitPoisoned q cells u then 5 else if q.refMissing u then 3 else 0) ::
      State.partEvents s q cells done us (if u.bad then i else i + 1)

/-- A unit was decoded, from its references or from the substitute of one. -/
def wasDecoded (e : Nat) : Bool := e == 0 || e == 3

/-- Two entries are one unit of the picture. -/
def sameUnit (u v : CodedUnit) : Bool := u.x == v.x && u.y == v.y

/-- A unit given more than once keeps its first decode (Table 5.8, SYNTAX). -/
def settleUnits (l : List Concealed) : List Concealed :=
  l.foldl (fun a u => match a.find? fun v => sameUnit v.1 u.1 with
    | none => a ++ [u]
    | some v => if wasDecoded v.2 || !wasDecoded u.2 then a else a.map fun x => if sameUnit x.1 u.1 then u else x) []

/-- Every unit of the picture with its event. -/
def State.unitEvents (s : State) (q : PicRun) (cells : List Nat) : List Concealed :=
  if q.whole ≠ 0 then [(wholeUnit q.info.width q.info.height, q.whole)]
  else settleUnits ((((q.desc.partsOf q.info).zip q.units).flatMap fun x => s.partEvents q cells x.2 x.1 0) ++
    q.info.missing.map fun u => (u, 2))

/-- Concealed luma samples. -/
def concealedSamples (l : List Concealed) : Nat := l.foldl (fun a x => if x.2 = 0 then a else a + x.1.area) 0

/-- The concealed fraction (R153). -/
def concealedPermille (l : List Concealed) (w h : Nat) : Nat := min 1000 (ceilDiv (1000 * concealedSamples l) (w * h))

/-- The unit that covers a luma sample, with its event. -/
def unitAt (l : List Concealed) (x y : Nat) : Option Concealed := l.find? fun u => u.1.covers x y

/-- Mid-grey (R151). -/
def midGrey (depth : Nat) : Nat := 2 ^ (depth - 1)

/-- Bytes of a sample (R156). -/
def sampleBytes (deep : Bool) : Nat := if deep then 2 else 1

/-- Byte offset of a sample of a plane in a buffer: 0 luma, 1 Cb, 2 Cr (R155, R156). -/
def DecDesc.sampleOff (d : DecDesc) (deep : Bool) (plane x y : Nat) : Nat :=
  let b := sampleBytes deep
  if plane = 0 then y * d.pitch + x * b else d.pitch * d.h16 + y * d.pitch + (2 * x + (plane - 1)) * b

/-- A sample of a picture of the store in device DRAM (R156). -/
def State.bufSample (s : State) (q : PicRun) (r : StorePic) (plane x y : Nat) : Nat :=
  leNat (s.readMem (q.bufAddr r.buffer + q.desc.sampleOff r.deep plane x y) (sampleBytes r.deep))

/-- The rows of a stored picture that a unit copies (R151): address and bytes. -/
def PicRun.copyRows (q : PicRun) (r : StorePic) (u : CodedUnit) : List (Nat × Nat) :=
  let a := q.bufAddr r.buffer
  let b := sampleBytes r.deep
  ((List.range u.h).map fun i => (a + q.desc.sampleOff r.deep 0 u.x (u.y + i), u.w * b)) ++
  (List.range (ceilDiv u.h 2)).map fun i => (a + q.desc.sampleOff r.deep 1 (u.x / 2) (u.y / 2 + i), u.w * b)

/-- The rows that a unit copies from the substitute read poisoned data (R151). -/
def State.sourcePoisoned (s : State) (q : PicRun) (r : StorePic) (u : CodedUnit) : Bool :=
  (q.copyRows r u).any fun x => s.poisoned x.1 x.2

/-- A sample of the finished picture (R151, R155): co-located copy or mid-grey in a concealed unit, else the decoded
sample; a unit predicted from a substitute is decoded with it, unless the store is empty. In-loop filters stop at the
edges of every concealed unit. -/
def State.picSample (s : State) (q : PicRun) (l : List Concealed) (refs : List Bytes) (plane x y : Nat) : Nat :=
  let lx := if plane = 0 then x else 2 * x
  let ly := if plane = 0 then y else 2 * y
  let dec := fun (_ : Unit) => Config.sample q.desc.codec q.decState q.nals refs
    ((l.filter fun u => u.2 != 0).map fun u => (u.1.x, u.1.y, u.1.w, u.1.h)) (plane, x, y) % 2 ^ q.info.depth
  match unitAt l lx ly with
  | some (u, e) =>
    if e = 0 ∨ (e = 3 ∧ q.substitute.isSome) then dec ()
    else match q.substitute with
      | some r => if s.sourcePoisoned q r u then midGrey q.info.depth else s.bufSample q r plane x y % 2 ^ q.info.depth
      | none => midGrey q.info.depth
  | none => dec ()

/-- The picture is 10-bit. -/
def PicRun.deep (q : PicRun) : Bool := q.info.depth != 8

/-- The bytes of the finished picture's buffer; samples beyond the picture and side data are free (R155, R156). -/
def State.picBytes (s : State) (q : PicRun) (l : List Concealed) : Bytes :=
  let d := q.desc
  let sb := sampleBytes q.deep
  let refs := q.usedRefs.map fun r => match r with
    | some r => s.readMem (q.bufAddr r.buffer) d.bufBytes
    | none => []
  let chroma := d.pitch * d.h16
  (List.range d.bufBytes).map fun o =>
    let free := Config.sideByte 1 q.decState q.data o
    let part := fun (v i : Nat) => BitVec.ofNat 8 (v / 256 ^ i)
    if o < chroma then
      let y := o / d.pitch
      let x := o % d.pitch / sb
      if x < q.info.width ∧ y < q.info.height then part (s.picSample q l refs 0 x y) (o % d.pitch % sb) else free
    else if o < chroma + chroma / 2 then
      let y := (o - chroma) / d.pitch
      let i := (o - chroma) % d.pitch / sb
      if i / 2 < ceilDiv q.info.width 2 ∧ y < ceilDiv q.info.height 2 then
        part (s.picSample q l refs (1 + i % 2) (i / 2) y) ((o - chroma) % d.pitch % sb)
      else free
    else free

/-! ### Statistics (R158, R159) -/

/-- The statistics header (Table 5.10). -/
def statsHeader (q : PicRun) (epoch sub permille : Nat) (taint : Bool) : Bytes :=
  leBytes 4 0x53544154 ++ leBytes 2 (ceilDiv q.info.width 16) ++ leBytes 2 (ceilDiv q.info.height 16) ++
  leBytes 2 (ceilDiv q.info.width 64) ++ leBytes 2 (ceilDiv q.info.height 64) ++ leBytes 5 epoch ++
  leBytes 1 (sub * 64 + b2n q.desc.cpxEn * 2 + b2n q.desc.mvEn) ++ leBytes 2 permille ++
  leBytes 1 (b2n q.ra * 8 + b2n taint * 4 + b2n q.abandoned * 2 + b2n (permille != 0)) ++ List.replicate 43 0

/-- Division rounding half away from zero (R159). -/
def divAway (a : Int) (n : Nat) : Int := a.sign * ((2 * a.natAbs + n) / (2 * n) : Nat)

/-- The vector to the reference with the smallest slot distance, the first on a tie (R159). -/
def nearestVec : List (Int × Int × Nat) → Option (Int × Int × Nat)
  | [] => none
  | v :: vs => match nearestVec vs with
    | some w => some (if w.2.2 < v.2.2 then w else v)
    | none => some v

/-- A motion-vector entry (Table 5.11, R159). The divisor is the field DIST, which saturates at 15 (log 163). -/
def mvEntry (m : BlockMotion) : Nat :=
  match (if m.intra then none else nearestVec m.vecs) with
  | none => 0
  | some v =>
    let dist := Nat.max 1 (min 15 v.2.2)
    let f (c : Int) : Nat := wrapN 13 (clampI (-4095) 4095 (divAway c dist))
    f v.1 * 2 ^ 19 + f v.2.1 * 2 ^ 6 + (if m.skip then 2 else 1) * 16 + dist

/-- The motion-vector field (Table 5.11): CONCEALED where the block's sample (8, 8), or the nearest to it, is concealed. -/
def PicRun.mvField (q : PicRun) (l : List Concealed) : Bytes :=
  let cols := ceilDiv q.desc.maxW 16
  sliceB ((List.range (cols * ceilDiv q.desc.maxH 16)).flatMap fun i =>
    let x := i % cols * 16
    let y := i / cols * 16
    let decoded := leBytes 4 (mvEntry (Config.motion q.desc.codec q.decState q.nals (i % cols, i / cols)))
    if x < q.info.width ∧ y < q.info.height then
      match unitAt l (min (x + 8) (q.info.width - 1)) (min (y + 8) (q.info.height - 1)) with
      | some (_, e) => if e = 0 then decoded else leBytes 4 0x30
      | none => decoded
    else (List.range 4).map fun k => Config.sideByte 2 q.decState q.data (4 * i + k)) 0 q.desc.mvBytes

/-- The mean luma QP of a block (Table 5.12), rounded down (log 163). -/
def meanQp (codec : Nat) (l : List (Int × Nat)) : Nat :=
  let n := l.foldl (fun a x => a + x.2) 0
  let m := if n = 0 then 0 else l.foldl (fun a x => a + x.1.toNat * x.2) 0 / n
  min 63 (if codec = 2 then m / 4 else m)

/-- A complexity entry (Table 5.12). -/
def cxEntry (codec : Nat) (c : BlockCoding) (concealed : Bool) : Nat :=
  let static := !concealed && c.units.all fun u => u.1 && !u.2
  b2n static * 2 ^ 15 + b2n concealed * 2 ^ 14 + meanQp codec c.qps * 256 + min 255 (c.bins / 64)

/-- The complexity map (Table 5.12): CONCEALED, and STATIC 0, where any sample of the block is concealed. -/
def PicRun.cxMap (q : PicRun) (l : List Concealed) : Bytes :=
  let cols := ceilDiv q.desc.maxW 64
  sliceB ((List.range (cols * ceilDiv q.desc.maxH 64)).flatMap fun i =>
    let x := i % cols * 64
    let y := i / cols * 64
    if x < q.info.width ∧ y < q.info.height then
      leBytes 2 (cxEntry q.desc.codec (Config.coding q.desc.codec q.decState q.nals (i % cols, i / cols))
        (l.any fun u => u.2 != 0 && u.1.touches x y 64 64))
    else (List.range 2).map fun k => Config.sideByte 2 q.decState q.data (2 ^ 24 + 2 * i + k)) 0 q.desc.cxBytes

/-! ### Jobs -/

/-- The jobs of a window's cores. -/
def State.decJobs (s : State) (w : Nat) : List (Nat × DecJob) :=
  (List.range 24).filterMap fun n => match s.decOf n with
    | some j => if j.win.toNat = w then some (n, j) else none
    | none => none

/-- The core no longer serves a window (Table 5.13, CURRENT). -/
def State.decIdle (s : State) (n : Nat) : State := (s.setDec n none).setNum (Reg.DEC.CURRENT n) 0

/-- The cores abort: no decode state is written (R67, R147). -/
def State.decAbort (s : State) (w : Nat) : State := (s.decJobs w).foldl (fun s x => s.decIdle x.1) s

/-- LAST_CONCEAL, CONCEALED_PICS and PG_ERR.CONCEAL of one core (R150). -/
def State.noteConceal (s : State) (n stream permille event : Nat) (win : EvWin) : State :=
  ((s.setNum (Reg.DEC.LAST_CONCEAL n) (2 ^ 31 + permille * 2 ^ 16 + stream * 256 + event)).incW
    (Reg.DEC.CONCEALED_PICS n)).raise (U.dec n) 8 win

/-- Set flags of a window's run. -/
def State.flagWin (s : State) (w : Nat) (f : Word) : State := s.setWin w { s.win w with flags := (s.win w).flags ||| f }

/-- The event that a window's units report with. -/
def State.evWin (s : State) (w : Nat) : EvWin :=
  match s.planWin w with
  | some e => some (BitVec.ofNat 12 w, BitVec.ofNat 8 e.stream)
  | none => none

/-- The picture is predicted from concealed or tainted content (R152). -/
def PicRun.taint (q : PicRun) : Bool :=
  !q.ra && q.whole == 0 && q.usedRefs.any fun r => match r with | some x => x.permille != 0 || x.taint | none => false

/-- The store after the picture: references that stay, the new one, and pictures held for the output table (R157). A picture
that was never decoded leaves the references as they were, unless the state is lost. -/
def PicRun.storeAfter (q : PicRun) (buf permille : Nat) (taint : Bool) (held : List Nat) : List StorePic :=
  let kept := q.store.zipIdx.map fun x =>
    { x.1 with isRef := x.1.isRef && q.whole != 6 && (q.whole == 7 || q.info.keep.contains x.2) }
  { buffer := buf, isRef := q.info.isRef && q.whole == 0, deep := q.deep, permille := permille, taint := taint } ::
    kept.filter fun x => x.isRef || held.contains x.buffer

/-- The core that writes lines 64r to 64r + 63 of a picture (R154): r mod k once it is concealed in stripes, else core
PART_INDEX 0 for them all. -/
def PicRun.stripeCore (q : PicRun) (cores : List (Nat × DecJob)) (r : Nat) : Inst :=
  let part := if q.abandoned ∨ q.whole ≠ 0 then r % q.desc.k else 0
  U.dec (match cores.find? fun x => x.2.part == part with | some x => x.1 | none => (cores.headD (0, default)).1)

/-- The picture's buffer is written, stripe by stripe, and then its side data (R154, R155). -/
def State.writePicture (s : State) (q : PicRun) (cores : List (Nat × DecJob)) (addr : Nat) (b : Bytes) : State :=
  let p := q.desc.pitch
  let chroma := p * q.desc.h16
  let s := (List.range (ceilDiv q.desc.h16 64)).foldl (fun s r =>
    let u := q.stripeCore cores r
    let rows := min 64 (q.desc.h16 - 64 * r)
    let s := s.writeMem u (addr + 64 * r * p) (sliceB b (64 * r * p) (rows * p))
    s.writeMem u (addr + chroma + 32 * r * p) (sliceB b (chroma + 32 * r * p) (rows / 2 * p))) s
  s.writeMem (q.stripeCore cores 0) (addr + chroma + chroma / 2) (b.drop (chroma + chroma / 2))

/-- What the cores read of the picture store: prediction, and the rows that concealed units copy (R150, R151). -/
def State.readRefs (s : State) (q : PicRun) (u : Inst) (l : List Concealed) : State :=
  l.foldl (fun s x =>
    let pred := (x.1.preds.filterMap fun y => (q.usedRefs.getD y.1 none).map fun r => (q.bufAddr r.buffer + y.2.1, y.2.2))
    let copy := match q.substitute with | some r => q.copyRows r x.1 | none => []
    ((if x.2 = 0 ∨ x.2 = 3 ∨ x.2 = 5 then pred else []) ++ (if x.2 = 0 ∨ x.2 = 3 then [] else copy)).foldl
      (fun s y => s.readBeats u y.1 y.2) s) s

/-- SYNTAX events that a part's core has met: segments whose error it reached (Table 5.8). -/
def PicRun.syntaxErrs (q : PicRun) (l : List Concealed) (part : Nat) : Nat :=
  let mine := (((q.desc.partsOf q.info).zip q.owner).filter fun y => y.2 == part).flatMap (·.1)
  let met := (l.filter fun x => x.2 == 1).map fun x => x.1.seg
  (((mine.filter fun u => u.bad).map fun u => u.seg).eraseDups.filter met.contains).length

/-- The window goes to DONE (R134, R139, R144, R147, R150 to R158): picture, statistics, output table and decode state are
written; every core counts and reports; flags and PLI follow. -/
def State.finishPicture (s : State) (w : Nat) (e : PlanWindow) (au : AccessUnit) (q : PicRun) : State :=
  let jobs := s.decJobs w
  let d := q.desc
  let win := s.evWin w
  let l := s.unitEvents q au.cells
  let permille := concealedPermille l q.info.width q.info.height
  let taint := q.taint
  let event := l.foldl (fun a x => Nat.max a x.2) 0
  let sub := au.sub.toNat
  let epoch := au.epoch.toNat
  let slot := epoch * s.phi e.stream + sub
  let table := outEntries q.table
  -- R157: a picture named in the table stays until OUT_HOLD later pictures have been handed on
  let before := ((table.take d.outHold).filter (·.valid)).map (·.buffer)
  let after := ((table.take (d.outHold - 1)).filter (·.valid)).map (·.buffer)
  let refs := q.store.zipIdx.filter fun x => x.1.isRef && (!q.ra || q.whole == 7 || q.info.keep.contains x.2)
  let busy := before ++ refs.map fun x => x.1.buffer
  let buf := ((List.range d.buffers).find? fun i => !busy.contains i).getD 0
  let entry : OutEntry :=
    { epoch := epoch, sub := sub, buffer := buf, taint := taint, abandoned := q.abandoned
      concealed := permille != 0, valid := true, width := q.info.width, height := q.info.height, permille := permille
      depth := q.info.depth }
  let table' := entry.bytes ++ q.table.take 48
  let stat := q.statsBase + slot % d.statsDepth * d.statBytes
  let u := q.stripeCore jobs 0
  let bytes := s.picBytes q l
  let s := (s.readRefs q u l).writePicture q jobs (q.bufAddr buf) bytes
  let s := s.when d.mvEn fun s => s.writeMem u (stat + 64) (q.mvField l)
  let s := s.when d.cpxEn fun s => s.writeMem u (stat + 64 + d.mvBytes) (q.cxMap l)
  let s := s.writeMem u stat (statsHeader q epoch sub permille taint)
  let s := s.writeCopy u q table' (q.whole == 6) (q.storeAfter buf permille taint after) epoch sub slot
  let s := jobs.foldl (fun s x =>
    let n := x.1
    let errs := q.syntaxErrs l x.2.part
    let s := s.when (q.whole == 0 && errs != 0) fun s => s.incW (Reg.DEC.SYNTAX_ERR n) errs
    let s := s.when (q.abandoned && !q.elapsed) fun s => (s.raise (U.dec n) 9 win).incW (Reg.DEC.ABANDONED n)
    let s := s.when (q.whole == 6) fun s => s.raise (U.dec n) 11 win
    s.when (permille != 0) fun s => s.noteConceal n e.stream permille event win) s
  let s := s.flagWin w ((if permille = 0 then 0 else bit1 4) ||| (if q.abandoned then bit1 5 else 0) |||
    (if taint then bit1 6 else 0))
  let s := s.setWin w { s.win w with permille := permille }
  s.when (decide (permille ≠ 0 ∧ d.pliPermille ≤ permille) || event == 6 || l.any fun x => x.2 == 3 || x.2 == 4) fun s =>
    s.pli e.stream

/-- A DECODE window that is complete hands its picture on. -/
def State.finishDecode (s : State) (w : Nat) (e : PlanWindow) : State :=
  match (s.win w).au, (s.win w).pic with
  | some au, some q => s.finishPicture w e au q
  | _, _ => s

/-! ### Firing (R137, R138, R148, R149) -/

/-- The length-prefixed units of an access unit, each with its place (R102). -/
def splitUnits : Nat → Nat → Bytes → AuUnits
  | 0, _, _ => []
  | fuel + 1, o, b =>
    if b.length < 4 then []
    else
      let n := beAt b 0 4
      (o + 4, sliceB b 4 n) :: splitUnits fuel (o + 4 + n) (b.drop (4 + n))

/-- An OBU belongs to the operating point (R133): it carries no extension header, or that names a layer of the point; sequence
headers and temporal delimiters always do, and so does every OBU of a point that names no layer (PRESUMED: AV1's rule,
log 14). -/
def inPoint (idc : BitVec 12) (u : Bytes) : Bool :=
  let h := u.headD 0
  let x := (u.getD 1 0).toNat
  !h.getLsbD 2 || idc == 0 || obuType h == 1 || obuType h == 2 || (idc.getLsbD (x / 32) && idc.getLsbD (8 + x / 8 % 4))

/-- The units that a core decodes (R133). -/
def decodedUnits (codec opSel : Nat) (decState data : Bytes) : AuUnits :=
  let l := splitUnits data.length 0 data
  if codec = 2 then l.filter fun u => inPoint (Config.opIdc opSel decState data) u.2 else l

/-- A sequence is refused (R148): counters, LAST_REFUSE, the decode state and every reference discarded; an ACTIVE or HELD
stream is HELD for its dimension. -/
def State.refuseSeq (s : State) (w : Nat) (e : PlanWindow) (au : AccessUnit) (q : PicRun) (seq : SeqInfo) (cause : Nat) :
    State :=
  let s := e.named.foldl (fun s n =>
    ((s.setNum (Reg.DEC.LAST_REFUSE n) (2 ^ 31 + cause * 2 ^ 16 + e.stream * 256 + seq.level % 256)).incW
      (Reg.DEC.REFUSED n)).raise (U.dec n) 10 (s.evWin w)) s
  let held := (((outEntries q.table).take q.desc.outHold).filter (·.valid)).map (·.buffer)
  let store := (q.store.filter fun x => held.contains x.buffer).map fun x => { x with isRef := false }
  let slot := au.epoch.toNat * s.phi e.stream + au.sub.toNat
  let s := s.writeCopy (U.dec (e.named.headD 0)) q q.table true store au.epoch.toNat au.sub.toNat slot
  s.when (s.streamState e.stream == 2 || s.streamState e.stream == 3) fun s => s.enterHeld e.stream 1

/-- The cores of a window set out on its picture; `beyond` holds what their charge will do to each, and `done` says that there is
nothing for them to decode. -/
def State.startCores (s : State) (w : Nat) (e : PlanWindow) (parts : List (Nat × Nat)) (beyond : Nat → Bool) (done : Bool) :
    State :=
  parts.foldl (fun s x =>
    let job : DecJob :=
      { win := BitVec.ofNat 12 w, part := x.2, overrun := beyond x.2, stopped := false, done := done, elapsed := 0 }
    (s.setDec x.1 (some job)).setNum (Reg.DEC.CURRENT x.1) (2 ^ 31 + w * 2 ^ 16 + e.stream * 256 + x.2)) s

/-- The information on a picture: of one whose state is lost nothing is known, so it takes the largest size and depth that
the descriptor allows (Table 5.8). -/
def DecDesc.infoFor (d : DecDesc) (whole : Nat) (raw : PicInfo) : PicInfo :=
  if whole = 6 then { raw with width := d.maxW, height := d.maxH, depth := 8 + 2 * d.depthMax } else raw

/-- A picture divided over the cores and reconstructed, unless it is concealed whole (R140, R144). -/
def DecDesc.setOut (d : DecDesc) (info : PicInfo) (cycles : Nat) (q : PicRun) : PicRun × List CoreRun × Bool :=
  let own := d.divide info
  let run := d.reconstruct info own.1 cycles
  ({ q with info := info, owner := own.1, units := if q.whole = 0 then run.1 else [] }, run.2, own.2)

/-- The picture that a window sets out on: the newer decode-state copy, its store and table, and what the access unit holds. A
random-access picture after a loss starts from an empty state (Table 5.8). -/
def State.openPicture (s : State) (p : Plan) (d : DecDesc) (refs : List PlanRef) (au : AccessUnit) (bad : Bool) (cycles : Nat) :
    PicRun × List CoreRun × Bool :=
  let base := p.refAddr (refs.getD 0 default)
  let copy := s.newerCopy base
  let all := match copy with | some i => s.readMem (base + i * copyBytes) copyBytes | none => []
  let book := match copy with | some _ => storeOf (sliceB all 64 192) | none => (true, [])
  let st := if book.1 then [] else all
  let data := (s.readChain au.cells).drop 32
  let nals := decodedUnits d.codec d.opSel st data
  let raw := Config.picture d.codec st nals
  let whole := if bad then 7 else if book.1 && !au.ra then 6 else 0
  d.setOut (d.infoFor whole raw) cycles
    { desc := d, stateBase := base, storeBase := p.refAddr (refs.getD 1 default)
      statsBase := p.refAddr (refs.getD 2 default), info := raw, ra := au.ra, data := data, nals := nals, decState := st
      store := book.2, table := sliceB all 0 64, older := (match copy with | some i => 1 - i | none => 0), whole := whole
      owner := [], units := [], abandoned := false, elapsed := false }

/-- The descriptor check failed (R137, R154): the whole picture is concealed, by the first descriptor of the window that holds on
its own; where none does there is no place for a picture and nothing is handed on (log 46). -/
def State.decDescFail (s : State) (p : Plan) (w : Nat) (e : PlanWindow) (au : AccessUnit) : State :=
  let s := e.named.foldl (fun s n => s.raise (U.dec n) 12 (s.evWin w)) s
  match e.named.findSome? fun n => s.decDescOf p e n with
  | some (d, _, refs) =>
    let q := (s.openPicture p d refs au true e.cycles).1
    let s := s.setWin w { s.win w with pic := some q }
    s.startCores w e (e.named.zipIdx) (fun _ => false) false
  | none =>
    let s := e.named.foldl (fun s n => s.noteConceal n e.stream 1000 7 (s.evWin w)) s
    let s := (s.flagWin w (bit1 4)).setWin w { (s.flagWin w (bit1 4)).win w with permille := 1000 }
    (s.startCores w e (e.named.zipIdx) (fun _ => false) true).pli e.stream

/-- What the cores of a window read as it fires: descriptors, decode state, the access unit's chain (R137, R138). -/
def State.readAtFiring (s : State) (p : Plan) (e : PlanWindow) (refs : List PlanRef) (au : AccessUnit) : State :=
  let u := U.dec (e.named.headD 0)
  let s := e.named.foldl (fun s n => (p.programsFor e n).foldl (fun s q => s.readBeats (U.dec n) (p.base + q.codeOff) 64) s) s
  let s := s.readCopies u (p.refAddr (refs.getD 0 default)) copyBytes
  au.cells.foldl (fun s i => s.readBeats u (s.cellAddr i) 256) s

/-- A DECODE window fires with its access unit (R137 to R149): each named core checks its descriptor, reads the decode
state, checks an activated sequence, and starts on its share. -/
def State.fireDecode (s : State) (p : Plan) (w : Nat) (e : PlanWindow) (au : AccessUnit) : State :=
  let s := e.named.foldl (fun s n => s.incW (Reg.DEC.PICTURES n)) s
  match s.decCheck p e with
  | none => s.decDescFail p w e au
  | some (d, refs, parts) =>
    let o := s.openPicture p d refs au false e.cycles
    let q := o.1
    let s := s.readAtFiring p e refs au
    let cause := match q.info.activates with | some x => seqCause d x | none => 0
    if cause ≠ 0 then (s.refuseSeq w e au q (q.info.activates.getD default) cause).startCores w e parts (fun _ => false) true
    else
      let s := s.when (q.info.activates.isSome && s.streamState e.stream == 3 && s.holdReason e.stream == 1) fun s =>
        s.setStream e.stream 2 0
      let s := s.when (o.2.2 && q.whole == 0) fun s => e.named.foldl (fun s n => s.incW (Reg.DEC.PART_SHORT n)) s
      let s := s.setWin w { s.win w with pic := some q }
      s.startCores w e parts (fun i => (o.2.1.getD i default).overrun && q.whole == 0) false

end Sys2Proof.Machine
end

