-- ==== Sys2Proof/Machine/TileOps.lean ====
section
/-!
DEFINITION. Running a tile program (09_tile_programs): issue, completion, invalid instructions, stage cycles, the header and
swap checks at firing, and state swap.
-/
namespace Sys2Proof.Machine

/-! ### Queues of the units (R235, R236) -/

/-- The instructions in flight of a class: 1 MATRIX, 2 VECTOR, 3 XFER, 4 FABRIC. -/
def Tile.queue (x : Tile) (c : Nat) : List Flight :=
  match c with
  | 1 => x.qMatrix
  | 2 => x.qVector
  | 3 => x.qXfer
  | 4 => x.qFabric
  | _ => []

/-- Replace them. -/
def Tile.setQueue (x : Tile) (c : Nat) (q : List Flight) : Tile :=
  match c with
  | 1 => { x with qMatrix := q }
  | 2 => { x with qVector := q }
  | 3 => { x with qXfer := q }
  | 4 => { x with qFabric := q }
  | _ => x

/-- Every unit has completed what was issued to it (R239). -/
def Tile.drained (x : Tile) : Bool := x.qMatrix.isEmpty && x.qVector.isEmpty && x.qXfer.isEmpty && x.qFabric.isEmpty

/-- The program that runs on a physical tile. -/
def State.progOf (s : State) (t : Nat) : Option TileProg := (s.tileOf t).prog

/-- Change it. -/
def State.setProg (s : State) (t : Nat) (p : TileProg) : State := s.setTile t { s.tileOf t with prog := some p }

/-- The tile works: RUNNING or STOPPING (Table 1.3), its window FIRED. -/
def State.tileWorks (s : State) (t : Nat) (p : TileProg) : Bool :=
  (s.runState (U.tile t) == 1 || s.runState (U.tile t) == 2) && (s.win p.win.toNat).st == .fired

/-! ### Stage cycles (R255) -/

/-- Tile-clock cycles since the program's window fired. -/
def State.tileCycles (s : State) (p : TileProg) : Nat :=
  (s.clock.time.toNat - (s.win p.win.toNat).fireTime) * s.tileMhz / 1000

/-- The stage kinds under which some unit executes an instruction: the oldest of each unit, and EMITOBJ while it copies. -/
def Tile.kindsNow (x : Tile) (p : TileProg) : List Nat :=
  ([1, 2, 3, 4].filterMap fun c => (x.queue c).head?.map (·.kind)) ++ (if x.emitting then [p.kind] else [])

/-- STAGE_CYCLES take up the cycles since the last mark. -/
def State.stageMark (s : State) (t : Nat) : State :=
  match s.progOf t with
  | none => s
  | some p =>
    let now := s.tileCycles p
    let kinds := (s.tileOf t).kindsNow p
    let s := s.setProg t { p with mark := Nat.max p.mark now }
    (List.range 5).foldl (fun s k => s.when (kinds.contains k) fun s => s.incS (Reg.TILE.STAGE_CYCLES t k) (now - p.mark)) s

/-! ### Invalid instructions (R240) -/

/-- A check fails: nothing further issues; PG_ERR.INVALID_INSN, LAST_INVALID and LAST_INVALID_PC. -/
def State.invalidInsn (s : State) (t cause : Nat) : State :=
  match s.progOf t with
  | none => s
  | some p =>
    let s := s.setProg t { p with halted := true }
    let s := s.setNum (Reg.TILE.LAST_INVALID t) (2 ^ 31 + cause * 2 ^ 24 + p.win.toNat * 4096 + p.stream.toNat)
    let s := s.setNum (Reg.TILE.LAST_INVALID_PC t) p.pc
    s.raise (U.tile t) 11 (some (p.win, p.stream))

/-- A CLASS and OP that Tables 9.3 and 9.7 define. -/
def knownOp (w0 : Word) : Bool :=
  let op := fld w0 27 22
  match fld w0 31 28 with
  | 0 => decide (op ≤ 4)
  | 1 => op == 0
  | 2 => decide (op ≤ 0x16) || (decide (0x20 ≤ op ∧ op ≤ 0x24))
  | 3 => decide (op ≤ 1)
  | 4 => op == 0
  | _ => false

/-! ### Issue (R235, R236) -/

/-- The four words of an instruction of a class and operation. -/
def insnWords (x : TileInsn) (cls op : Nat) : Word × Word × Word × Word :=
  (BitVec.ofNat 32 (cls * 2 ^ 28 + op * 2 ^ 22 + x.wait.toNat * 2 ^ 18 + x.lo.toNat), x.w1, x.w2, x.w3)

/-- Every earlier instruction of each class whose WAIT bit is set has completed. -/
def Tile.waitsMet (x : Tile) (wait : BitVec 4) : Bool :=
  [1, 2, 3, 4].all fun c => !wait.getLsbD (c - 1) || (x.queue c).isEmpty

/-- Nothing but its own waits holds back the program's next instruction. -/
def Tile.atIssue (x : Tile) (p : TileProg) : Bool :=
  p.started && !p.halted && !p.ended && !x.emitting && x.waitCtr.isNone

/-- The class queue of an instruction, one that no table defines included, has space (R236; log 51). -/
def Tile.hasSpace (x : Tile) (cls : Nat) : Bool := decide ((x.queue cls).length < 5)

/-- The next instruction is looked at: a program that has reached INSN_COUNT without END is invalid (R239), and so is one
whose next instruction issues with a reserved CLASS or OP, which no unit executes (R240). -/
def State.lookNext (s : State) (t : Nat) : State :=
  match s.progOf t with
  | none => s
  | some p =>
    let x := s.tileOf t
    if !x.atIssue p then s
    else match p.insns[p.pc]? with
      | none => s.invalidInsn t 1
      | some i =>
        if knownOp i.1 || !x.waitsMet (BitVec.ofNat 4 (fld i.1 21 18)) || !x.hasSpace (fld i.1 31 28) then s
        else s.invalidInsn t 2

/-- The instruction is the tile's next and issues now: its waits are met and its unit's 4-entry queue has space behind
the instruction that the unit executes (R236; log 51). -/
def State.mayIssue (s : State) (t : Nat) (p : TileProg) (cls : Nat) (w : Word × Word × Word × Word) (wait : BitVec 4) :
    Bool :=
  let x := s.tileOf t
  s.tileWorks t p && x.atIssue p && p.insns[p.pc]? == some w && x.waitsMet wait && x.hasSpace cls

/-- The instruction has issued: counters, the next index. -/
def State.issued (s : State) (t : Nat) : State :=
  match s.progOf t with
  | none => s
  | some p =>
    let s := s.setProg t { p with pc := p.pc + 1 }
    let s := (s.incW (Reg.TILE.INSN_ISSUED t)).setNum (Reg.TILE.PROG_PC t) ((p.pc + 1) % 65536)
    s.lookNext t

/-- An instruction joins its unit's queue under the stage kind in force. -/
def State.enqueue (s : State) (t : Nat) (c : Nat) (p : TileProg) (o : UnitOp) : State :=
  s.setTile t ((s.tileOf t).setQueue c ((s.tileOf t).queue c ++ [{ kind := p.kind, op := o }]))

/-- One instruction of a physical tile: when it is the one to issue, it is checked (a cause of Table 9.2, 0 for none),
then acts; otherwise nothing happens (log 2). -/
def onInsn (s : State) (x : TileInsn) (cls op : Nat) (check : State → Nat → TileProg → Nat)
    (act : State → Nat → TileProg → State) : Res :=
  onUnit s (U.tile x.tile.toNat) fun s =>
    let t := x.tile.toNat
    match s.progOf t with
    | none => s
    | some p =>
      s.when (s.mayIssue t p cls (insnWords x cls op) x.wait) fun s =>
        let s := s.stageMark t
        let c := check s t p
        if c ≠ 0 then s.invalidInsn t c
        else (act s t ((s.progOf t).getD p)).issued t

/-- END completes when every unit has drained, and the program no longer runs (R239, Table 9.11; log 166). -/
def State.noteEnd (s : State) (t : Nat) : State :=
  match s.progOf t with
  | some p => s.when (p.ended && (s.tileOf t).drained) fun s => s.clrBit (Reg.TILE.PROG_STATE t) 31
  | none => s

/-- The oldest instruction of a unit completes and leaves its queue; the program may end, or its next instruction issue. -/
def State.popUnit (s : State) (t c : Nat) : State :=
  ((s.setTile t ((s.tileOf t).setQueue c ((s.tileOf t).queue c).tail)).noteEnd t).lookNext t

/-- A unit's oldest instruction goes on. -/
def State.setHead (s : State) (t c : Nat) (o : UnitOp) : State :=
  s.setTile t ((s.tileOf t).setQueue c (modAt ((s.tileOf t).queue c) 0 fun g => { g with op := o }))

/-- A completion of a unit: the state of its oldest instruction, when the tile works. -/
def onFlight (s : State) (t : Nat) (c : Nat) (f : State → TileProg → Flight → State) : Res :=
  onUnit s (U.tile t) fun s =>
    match s.progOf t, ((s.tileOf t).queue c).head? with
    | some p, some g => s.when (s.tileWorks t p) fun s => f (s.stageMark t) p g
    | _, _ => s

/-! ### Counters of clipped and invalid elements (R203, R206) -/

/-- Count elements clipped at expansion and at requantisation, and invalid ones. -/
def State.countClips (s : State) (t : Nat) (p : TileProg) (exp req bad : Nat) : State :=
  let s := s.incS (Reg.TILE.SAT_EXP_CNT t) exp
  let s := s.incS (Reg.TILE.SAT_REQ_CNT t) req
  let s := s.incS (Reg.TILE.WIN_SAT_CNT t) (exp + req)
  s.when (decide (bad ≠ 0)) fun s =>
    (s.incS (Reg.TILE.INVALID_CNT t) bad).raise (U.tile t) 9 (some (p.win, p.stream))

/-! ### Arrival counters (R253) -/

/-- A beat lands: the named counter goes up by one. -/
def State.arrive (s : State) (t k : Nat) : State := s.incW (Reg.TILE.ARRIVAL t k)

/-! ### Swap (R78 to R80, R258, R259) -/

/-- C of R258 for a swap region of `units` blocks. -/
def copySpan (units : Nat) : Nat := roundUp (64 * units + 64) 4096

/-- The stamp of copy j is complete: MAGIC, LTILE, UNITS, KEY, not poisoned, and no CRC mismatch found before (R259). -/
def State.stampOk (s : State) (p : TileProg) (j : Nat) : Bool :=
  let a := p.stateAddr + j * copySpan p.swapUnits
  let b := s.readMem (a + 64 * p.swapUnits) 64
  !s.poisoned (a + 64 * p.swapUnits) 64 && leAt b 0 4 == 0x53545354 && (leAt b 9 1) % 64 == p.ltile &&
    leAt b 10 2 == p.swapUnits && leAt b 12 4 == p.stateKey.toNat && !s.ple.badCopies.contains a

/-- EPOCH of a stamp. -/
def State.stampEpoch (s : State) (p : TileProg) (j : Nat) : Nat :=
  leNat (s.readMem (p.stateAddr + j * copySpan p.swapUnits + 64 * p.swapUnits + 4) 5)

/-- The newer complete copy; copy 0 on a tie (R259). -/
def State.newerState (s : State) (p : TileProg) : Option Nat :=
  match s.stampOk p 0, s.stampOk p 1 with
  | true, true => some (if s.stampEpoch p 0 < s.stampEpoch p 1 then 1 else 0)
  | true, false => some 0
  | false, true => some 1
  | false, false => none

/-- Both stamps are read. -/
def State.readStamps (s : State) (t : Nat) (p : TileProg) : State :=
  (List.range 2).foldl (fun s j => s.readBeats (U.tile t) (p.stateAddr + j * copySpan p.swapUnits + 64 * p.swapUnits) 64) s

/-- The swap region is filled with zeros (R259). -/
def State.stateReset (s : State) (t : Nat) (p : TileProg) : State :=
  let s := s.tileWr t (64 * p.swapTs) (List.replicate (64 * p.swapUnits) 0)
  let s := (s.raise (U.tile t) 13 (some (p.win, p.stream))).incW (Reg.TILE.STATE_RESET_CNT t)
  s.flagWin p.win.toNat (bit1 12)

/-- Where the stream's last swap-out of a logical tile's state did not complete (R80, R271). -/
def State.staleOf (s : State) (n l : Nat) : Bool := s.ple.stale.get (fun _ => false) (64 * n + l)

/-- Change it. -/
def State.setStale (s : State) (n l : Nat) (b : Bool) : State :=
  { s with ple := { s.ple with stale := s.ple.stale.set (fun _ => false) (64 * n + l) b } }

/-- A window with SWAP_OUT has ended: a named tile whose swap-out is complete holds the stream's newest state, and one whose
swap-out is not, because the window was forced closed, fired or not, or had a REPEATED outcome, leaves it stale (R80, R271). -/
def State.noteStale (s : State) (w : Nat) (e : PlanWindow) : State :=
  s.when e.swapOut fun s => (maskList e.tiles 64).foldl (fun s l =>
    s.setStale e.stream l (!((s.win w).fireAt.isSome && (s.tileOf (s.physTile l)).swappedOut))) s

/-- Swap-in (R78, R80, R259): the newer complete copy, or zeros; where the stream's last swap-out did not complete, the
stale-state flag. -/
def State.swapIn (s : State) (t : Nat) (p : TileProg) : State :=
  let copy := s.newerState p
  let s := s.readStamps t p
  match copy with
  | none => s.stateReset t p
  | some j =>
    let a := p.stateAddr + j * copySpan p.swapUnits
    let n := 64 * p.swapUnits
    let d := s.readMem a n
    let crc := leNat (s.readMem (a + n + 16) 4)
    let bad := s.poisoned a n
    let s := s.readBeats (U.tile t) a n
    if bad then s.stateReset t p
    else if crc32c d ≠ crc then
      ({ s with ple := { s.ple with badCopies := a :: s.ple.badCopies } }).stateReset t p
    else
      let s := s.tileWr t (64 * p.swapTs) d
      s.when p.stale fun s => s.flagWin p.win.toNat (bit1 13)

/-- The stamp of a swap-out (Table 9.10). -/
def stateStamp (epoch ltile units key crc : Nat) : Bytes :=
  leBytes 4 0x53545354 ++ leBytes 5 epoch ++ leBytes 1 ltile ++ leBytes 2 units ++ leBytes 4 key ++ leBytes 4 crc ++
    List.replicate 44 0

/-- Swap-out (R80, R258): the older copy, its stamp last. With no complete copy, copy 0 is written (log 52). -/
def State.swapOut (s : State) (t : Nat) (p : TileProg) : State :=
  let j := match s.newerState p with | some j => 1 - j | none => 0
  let a := p.stateAddr + j * copySpan p.swapUnits
  let d := s.tileRd t (64 * p.swapTs) (64 * p.swapUnits)
  let s := (s.readStamps t p).writeMem (U.tile t) a d
  let s := s.writeMem (U.tile t) (a + 64 * p.swapUnits) (stateStamp s.clock.epoch.toNat p.ltile p.swapUnits p.stateKey.toNat (crc32c d))
  let s : State := { s with ple := { s.ple with badCopies := s.ple.badCopies.filter (· ≠ a) } }
  s.setTile t { s.tileOf t with swappedOut := true }

/-- The tile of this program still owes its swap-out (R78, R271). -/
def State.owesSwapOut (s : State) (e : PlanWindow) (t : Nat) : Bool :=
  e.swapOut && !(s.tileOf t).repeated && !(s.tileOf t).swappedOut

/-! ### Firing (R234, R236, R240, R258) -/

/-- The header of a program (Table 9.1) breaks R234; a missing program entry and poisoned code count as such (log 52). -/
def badHeader (b : Bytes) (size : Nat) (poison : Bool) : Bool :=
  poison || decide (size < 64) || leAt b 0 4 != 0x54505247 || leAt b 6 2 != 1 || leAt b 4 2 == 0 ||
    decide (size < 64 + 16 * leAt b 4 2)

/-- A reserved field of the header is not zero (Table 9.1; cause OPCODE of Table 9.2). -/
def headerReserved (b : Bytes) : Bool := leAt b 12 3 != 0 || decide (leNat (b.drop 20) ≠ 0)

/-- The registers and the tile at firing: window and stream, the counters of the window, the arrival counters (R253),
retries enabled (R270). -/
def State.beginTile (s : State) (t w n : Nat) (q : TileProg) : State :=
  let s := s.setNum (Reg.TILE.PROG_STATE t) (2 ^ 31 + w * 65536 + n * 256)
  let s := s.setNum (Reg.TILE.PROG_PC t) 0
  let s := (s.setNum (Reg.TILE.WIN_SAT_CNT t) 0).setNum (Reg.TILE.ARR_WIN_FREEZE t) 0
  let s := s.setNum (Reg.TILE.RETRY_USED t) 0
  let s := (List.range 16).foldl (fun s k => s.setNum (Reg.TILE.ARRIVAL t k) 0) s
  s.setTile t { s.tileOf t with
    prog := some q, qMatrix := [], qVector := [], qXfer := [], qFabric := [], waitCtr := none, emitting := false,
    retrying := [], repeated := false, overCounted := false, swappedOut := false }

/-- One named tile starts (R234, R258): header and swap failures are detected at firing; with a swap-in to come, issue
waits for it. -/
def State.fireOne (s : State) (p : Plan) (w : Nat) (e : PlanWindow) (l : Nat) : State :=
  let t := s.physTile l
  let prog := (p.programsFor e l).head?
  let q := prog.getD default
  let base := p.base + q.codeOff
  let head := s.readMem base 64
  let count := leAt head 4 2
  let bad := prog.isNone || badHeader head q.codeSize (s.poisoned base (64 + 16 * count))
  let refs := (p.refsOf q).map fun r => (p.refAddr r, r.length, r.access)
  let insns := if bad then [] else (List.range count).map fun i =>
    let b := s.readMem (base + 64 + 16 * i) 16
    (BitVec.ofNat 32 (wordAt b 0), BitVec.ofNat 32 (wordAt b 1), BitVec.ofNat 32 (wordAt b 2), BitVec.ofNat 32 (wordAt b 3))
  let units := leAt head 8 2
  let ts := leAt head 10 2
  let ref := refs[leAt head 15 1]?
  let swap := e.swapIn || e.swapOut
  let badSwap := decide (65536 < ts + units) || (swap && match ref with
    | some r => decide (r.2.2 ≠ 3 ∨ r.2.1 < 2 * copySpan units)
    | none => true)
  let prg : TileProg :=
    { win := BitVec.ofNat 12 w, stream := BitVec.ofNat 8 e.stream, ltile := l, insns := insns, refs := refs, pc := 0, kind := 0
      swapTs := ts, swapUnits := units, stateKey := BitVec.ofNat 32 (leAt head 16 4),
      stateAddr := (match ref with | some r => r.1 | none => 0), stale := s.staleOf e.stream l,
      started := !(swap && e.swapIn), halted := false, ended := false, mark := 0 }
  let s := (s.readBeats (U.tile t) base (64 + 16 * insns.length)).beginTile t w e.stream prg
  if bad then s.invalidInsn t 1
  else if headerReserved head then s.invalidInsn t 2
  else if badSwap then s.invalidInsn t 10
  else s.when prg.started fun s => s.lookNext t

/-- A TILE window fires: every named tile starts (R63). -/
def State.fireTiles (s : State) (p : Plan) (w : Nat) (e : PlanWindow) : State :=
  (maskList e.tiles 64).foldl (fun s l => s.fireOne p w e l) s

/-! ### Done (R61, R239) -/

/-- Every named tile's program has ended and its units have drained, its swap-out included (R61, R239). -/
def State.tilesDone (s : State) (w : Nat) (e : PlanWindow) : Bool :=
  (maskList e.tiles 64).all fun l =>
    let t := s.physTile l
    match s.progOf t with
    | some p => p.win.toNat == w && p.ended && !p.halted && (s.tileOf t).drained && !s.owesSwapOut e t
    | none => false

end Sys2Proof.Machine
end

