-- ==== Sys2Proof/Machine/MopOps.lean ====
section
/-!
DEFINITION. A matrix operation on its way through the array (08_matrix_array, 10_mirror_column_and_repair): the retention
buffer, the checks of its passes in the order of their verdicts, retries and their outcomes, the accumulators, frozen and
bubble cycles, and what a TILE window's close compares.
-/
namespace Sys2Proof.Machine

/-! ### The operation in the array -/

/-- The oldest matrix operation of a tile, which its array executes (R236). -/
def State.mopOf (s : State) (t : Nat) : Option (MopDesc × MopRun) :=
  match (s.tileOf t).qMatrix.head? with
  | some g => (match g.op with | .matrix d r => some (d, r) | _ => none)
  | none => none

/-- Its operation descriptor. -/
def MopDesc.op (d : MopDesc) : Opd := Opd.ofBytes d.opd

/-- Its passes. -/
def MopDesc.passes (d : MopDesc) : List Pass := d.op.passes d.skip

/-- ARR_CTRL shows the oldest matrix operation, with the pass that it has come to: that of its last fused vector, or the one
whose verdicts are being taken; BUSY falls when there is none (Table 8.9). -/
def State.showOp (s : State) (t : Nat) : State :=
  match s.mopOf t with
  | some (d, r) =>
    let o := d.op
    let pass := Nat.max r.pass (if r.entered = 0 then 0 else passAt d.passes (r.entered - 1))
    s.setNum (Reg.TILE.ARR_CTRL t) (2 ^ 31 + o.mode * 2 ^ 28 + o.rate.getD 0 * 2 ^ 26 + o.stat * 2 ^ 25 +
      b2n o.diag * 2 ^ 24 + pass % 65536)
  | none => s.clrBit (Reg.TILE.ARR_CTRL t) 31

/-- The oldest matrix operation goes on. -/
def State.setMop (s : State) (t : Nat) (d : MopDesc) (r : MopRun) : State := s.setHead t 1 (.matrix d r)

/-- A front loads the next pass's stationary operand, while the retention buffer has room for it: three operands, from that
of the pass whose verdicts are being taken (R214, R218); its elements are expanded (R203). -/
def State.loadFront (s : State) (t : Nat) (p : TileProg) : State :=
  match s.mopOf t with
  | none => s
  | some (d, r) =>
    match d.passes[r.fronts]? with
    | none => s
    | some P =>
      if r.pass + 3 ≤ r.fronts then s
      else
        let o := d.op
        let a := (s.tileOf t).statBlock o (Prd.ofBytes d.prd) P
        let n := elemCounts a.flatten
        let k : Retained := { pass := r.fronts, operand := a.map fun row => row.map fun c => c.vs.map o.cellCode, held := [] }
        (s.setMop t d { r with fronts := r.fronts + 1, kept := (r.kept.filter fun k => r.pass ≤ k.pass) ++ [k] }).countClips
          t p n.1 0 n.2

/-- The fronts that the buffer has room for. -/
def State.loadFronts (s : State) (t : Nat) (p : TileProg) : State := ((s.loadFront t p).loadFront t p).loadFront t p

/-! ### The order of the verdicts (Table 10.1, R266, R267) -/

/-- A verdict that is due: its check (0 SUM, 1 LOAD, 2 DUP), pass and vector. -/
abbrev CheckAt := Nat × Nat × Nat

/-- The verdict that comes next. A pass's LOAD verdict falls in array cycle f + 71 and a vector's in e + 80, so the last
vectors of the pass before have theirs after it. A replay's verdict follows its failure; only those last vectors of the
pass before come between a LOAD failure and its replay's verdict (log 164). -/
def nextOf (o : Opd) (ps : List Pass) (r : MopRun) (retry : List Replay) : Option CheckAt :=
  let kind := if o.mode = 0 then 0 else 2
  match retry with
  | q :: _ => some (if q.check = 1 ∧ r.pass < q.pass then (kind, r.pass, r.vec) else (q.check, q.pass, q.vec))
  | [] =>
    match ps[r.pass]? with
    | none => none
    | some P =>
      if r.loads = r.pass then some (1, r.pass, 0)
      else if r.loads = r.pass + 1 ∧ r.loads < ps.length ∧ Nat.max 64 (P.vecs * o.cpv) < r.vec * o.cpv + 9 then
        some (1, r.loads, 0)
      else some (kind, r.pass, r.vec)

/-- Vectors that must have entered for a verdict to be due: the vector itself, or all of the passes before a front. -/
def vectorsBefore (ps : List Pass) (c : CheckAt) : Nat := vectorsOf (ps.take c.2.1) + if c.1 = 1 then 0 else c.2.2 + 1

/-- The verdict that comes next on a tile; none while a fused vector that it needs has not entered (R254). -/
def State.nextCheck (s : State) (t : Nat) : Option CheckAt :=
  match s.mopOf t with
  | none => none
  | some (d, r) => match nextOf d.op d.passes r (s.tileOf t).retrying with
    | none => none
    | some c => if d.op.fuseEn ∧ r.entered < vectorsBefore d.passes c then none else some c

/-! ### Outcomes (R266 to R274) -/

/-- RETRY_USED takes up a retry's delay; past the window's RETRY_CYCLES, RETRY_OVER once for the window (R274), marked when
the retry was injected (R281). -/
def State.retryCost (s : State) (t : Nat) (p : TileProg) (cycles : Nat) (inj : Bool) : State :=
  let w := p.win.toNat
  let s := s.incS (Reg.TILE.RETRY_USED t) cycles
  let s := s.setWin w { s.win w with retries := (s.win w).retries + 1 }
  let allow := match s.planWin w with | some e => e.retryCycles | none => 0
  let x := s.tileOf t
  s.when (decide (allow < (s.reg (Reg.TILE.RETRY_USED t)).toNat) && !x.overCounted) fun s =>
    ((s.setTile t { x with overCounted := true }).raise (U.tile t) 17 (some (p.win, p.stream)) inj).incS
      (Reg.TILE.RETRY_OVER_CNT t)

/-- A first attempt fails: MISMATCH, its count, and the LAST_MISMATCH registers; OUTCOME is 2 UNRETRIED, or 0 until the
replay's verdict. -/
def State.mismatch (s : State) (t : Nat) (p : TileProg) (check pass vec outcome : Nat) (inj : Bool)
    (diff : Option (Nat × Nat)) : State :=
  let s := (s.raise (U.tile t) 14 (some (p.win, p.stream)) inj).incS (Reg.TILE.MISMATCH_CNT t)
  let s := s.setNum (Reg.TILE.LAST_MISMATCH t)
    (2 ^ 31 + b2n inj * 2 ^ 30 + outcome * 2 ^ 28 + p.win.toNat * 2 ^ 16 + check * 2 ^ 14 + p.stream.toNat)
  let s := s.setNum (Reg.TILE.LAST_MISMATCH_POS t) (pass % 65536 * 65536 + vec % 65536)
  match diff with
  | some d => (s.setNum (Reg.TILE.LAST_DIFF t) d.1).setNum (Reg.TILE.LAST_TOL t) d.2
  | none =>
    let s1 := s.setReg (Reg.TILE.LAST_DIFF t) (s.freeBits 32)
    s1.drawn.setReg (Reg.TILE.LAST_TOL t) (s1.drawn.freeBits 32) |>.drawn

/-- A first attempt's verdict (R263 to R272): it passes, starts a replay, or, after a REPEATED outcome in the window, is
UNRETRIED. -/
def State.firstVerdict (s : State) (t : Nat) (p : TileProg) (check pass vec : Nat) (v : Verdict) : State :=
  let x := s.tileOf t
  let eligible := match x.inj with
    | some i => i.check == check && (check == 1 || vec == 0)
    | none => false
  let now := eligible && (match x.inj with | some i => i.left == 0 | none => false)
  let arm := x.inj
  let s := if !eligible then s
    else if now then (s.setTile t { x with inj := none }).clrBit (Reg.TILE.MIRROR_INJ t) 31
    else s.setTile t { x with inj := x.inj.map fun i => { i with left := i.left - 1 } }
  if v.pass ∧ !now then s
  else
    let s := s.when now fun s => s.flagWin p.win.toNat (bit1 14)
    let persist := now && (match arm with | some i => i.persist | none => false)
    let keep := now && (match arm with | some i => i.noRetire | none => false)
    if x.repeated then (s.mismatch t p check pass vec 2 now v.diff).incS (Reg.TILE.UNRETRIED_CNT t)
    else
      let s := s.mismatch t p check pass vec 0 now v.diff
      let r : Replay := { check := check, pass := pass, vec := vec, inj := now, persist := persist, noRetire := keep }
      s.setTile t { s.tileOf t with retrying := r :: (s.tileOf t).retrying }

/-- The replay's verdict (R268 to R272): TRANSIENT or REPEATED. -/
def State.replayVerdict (s : State) (t : Nat) (p : TileProg) (r : Replay) (pass : Bool) : State :=
  let s := s.setTile t { s.tileOf t with retrying := (s.tileOf t).retrying.tail }
  let s := s.retryCost t p (if r.check = 1 then 72 else 81) r.inj
  if pass ∧ !r.persist then
    let old := s.rfld (Reg.TILE.TRANS_LEVEL t) 7 0
    let new := min 255 (old + 1)
    let limit := s.rfld (Reg.TILE.RETRY_CFG t) 7 0
    let s := (s.incS (Reg.TILE.TRANSIENT_CNT t)).setNum (Reg.TILE.TRANS_LEVEL t) new
    s.when (limit != 0 && decide (limit ≤ new) && (decide (old < limit) || !s.flagged t)) fun s => s.flagTile t 2 r.inj
  else
    let s := s.setFld (Reg.TILE.LAST_MISMATCH t) 29 28 1
    let s := (s.incS (Reg.TILE.REPEAT_CNT t)).raise (U.tile t) 15 (some (p.win, p.stream)) r.inj
    let s := s.setTile t { s.tileOf t with repeated := true }
    let s := s.flagWin p.win.toNat (bit1 7)
    s.when (!r.noRetire) fun s => s.flagTile t 1 r.inj

/-- The replay under way that a verdict is of. -/
def Tile.replayOf (x : Tile) (c : CheckAt) : Option Replay :=
  match x.retrying with
  | r :: _ => if (r.check, r.pass, r.vec) = c then some r else none
  | [] => none

/-- A verdict: a replay's, or a first attempt's. -/
def State.judge (s : State) (t : Nat) (p : TileProg) (c : CheckAt) (v : Verdict) : State :=
  let s := s.when v.undecided fun s => s.incS (Reg.TILE.CHK_UNDECIDED t)
  match (s.tileOf t).replayOf c with
  | some r => s.replayVerdict t p r v.pass
  | none =>
    (s.when (c.1 != 1) fun s => s.incW (Reg.TILE.CHK_VECTORS t)).firstVerdict t p c.1 c.2.1 c.2.2 v

/-- What an attempt gave is kept (R266, Table 10.3): no replay of it is under way. -/
def State.keeps (s : State) (t : Nat) (c : CheckAt) : Bool := ((s.tileOf t).replayOf c).isNone

/-- A pass has completed: it and the bubble before it are counted (R215, Table 8.9). -/
def State.passDone (s : State) (t : Nat) (cycles : Nat) : State :=
  let b := bubbleOf (s.tileOf t).vPrev
  let s := (s.incW (Reg.TILE.ARR_PASS_CNT t)).incS (Reg.TILE.ARR_BUBBLE_CNT t) b
  s.setTile t { s.tileOf t with vPrev := some cycles }

/-- A LOAD verdict (R265, R267). The cells of an attempt that is kept hold what the upset made of them. -/
def State.takeLoad (s : State) (t : Nat) (p : TileProg) (c : CheckAt) (u : LoadUpset) : State :=
  match s.mopOf t with
  | none => s
  | some (d, r) =>
    match r.kept.find? fun k => k.pass == c.2.1 with
    | none => s
    | some k =>
      let s := s.judge t p c (d.op.frontVerdict k u)
      s.when (s.keeps t c) fun s =>
        s.setMop t d { r with loads := c.2.1 + 1, kept := r.kept.map fun q =>
          if q.pass = c.2.1 then { q with held := u.cells } else q }

/-- A SUM or DUP verdict (R262 to R264, R266): the vector's results enter the accumulators once they are kept. Its elements
are expanded, and without fused arrival it is counted, on its first attempt (R203). -/
def State.takeVector (s : State) (t : Nat) (p : TileProg) (c : CheckAt) (u : ColUpset) : State :=
  match s.mopOf t with
  | none => s
  | some (d, r) =>
    match d.passes[c.2.1]?, r.kept.find? fun k => k.pass == c.2.1 with
    | some P, some k =>
      let o := d.op
      let es := (s.tileOf t).streamVec o (Prd.ofBytes d.prd) P c.2.2
      let b := es.map (·.vs)
      let n := elemCounts es
      let first := s.keeps t c
      let ys := upsetCols (o.columns P c.2.2 (o.valuesOf k.cells) b) u
      let s := s.when first fun s =>
        (s.countClips t p n.1 0 n.2).when (!o.fuseEn) fun s => s.incW (Reg.TILE.ARR_VEC_CNT t)
      let s := s.judge t p c (o.vectorVerdict P c.2.1 c.2.2 (o.valuesOf k.operand) b ys u)
      s.when (s.keeps t c) fun s =>
        let last := decide (P.vecs ≤ c.2.2 + 1)
        let s := s.setMop t d { r with acc := o.enterAcc P c.2.2 ys r.acc, pass := if last then c.2.1 + 1 else c.2.1,
                                       vec := if last then 0 else c.2.2 + 1 }
        s.when last fun s => (s.passDone t (P.vecs * o.cpv)).loadFronts t p
    | _, _ => s

/-- Nothing upset the array. -/
def ColUpset.none : ColUpset := { cols := [], mirror := Option.none, bound := Option.none }

/-- Nothing upset the front. -/
def LoadUpset.none : LoadUpset := { cells := [], sumRow := Option.none, mirror := Option.none }

/-- The verdict that comes next, with nothing upset. -/
def State.takeCheck (s : State) (t : Nat) (p : TileProg) (c : CheckAt) : State :=
  if c.1 = 1 then s.takeLoad t p c LoadUpset.none else s.takeVector t p c ColUpset.none

/-- Up to `n` verdicts in their order, those before `stop` where one is named. -/
def State.takeChecks (t : Nat) (p : TileProg) (stop : Option CheckAt) : Nat → State → State
  | 0, s => s
  | n + 1, s => match s.nextCheck t with
    | none => s
    | some c => if stop = some c then s else State.takeChecks t p stop n (s.takeCheck t p c)

/-- More than the verdicts that an operation can still have: one for each front and vector, and each again in a replay. -/
def State.checksLeft (s : State) (t : Nat) : Nat :=
  match s.mopOf t with
  | some (d, r) => 2 * (vectorsOf (d.passes.drop r.pass) + (d.passes.drop r.pass).length + 2)
  | none => 0

/-! ### Freeze and the end of an operation (R219 to R222, R236) -/

/-- The frozen cycles of an operation (R219, R220): how long feeder, drain and stationary-load path held it up is free, and
so is how far the causes overlap (log 57). -/
def State.countFreeze (s : State) (t : Nat) : State :=
  let d := (s.freeBits 32).toNat
  let f := (s.drawn.freeBits 32).toNat
  let l := (s.drawn.drawn.freeBits 32).toNat
  let s := s.drawn.drawn.drawn
  let hi := Nat.max d (Nat.max f l)
  let tot := hi + (s.freeBits 34).toNat % (d + f + l - hi + 1)
  let s := s.drawn
  let s := ((s.incS (Reg.TILE.ARR_FREEZE_DRY t) d).incS (Reg.TILE.ARR_FREEZE_FULL t) f).incS (Reg.TILE.ARR_FREEZE_LOAD t) l
  (s.incS (Reg.TILE.ARR_FREEZE_CNT t) tot).incS (Reg.TILE.ARR_WIN_FREEZE t) tot

/-- The epilogue has written the elements of Y whose sums are complete (R245), and the skipped blocks among the first
`blocks` are counted (R257). -/
def State.outputs (s : State) (t : Nat) (p : TileProg) (d : MopDesc) (r : MopRun) (blocks : Nat) : State :=
  let y := (s.tileOf t).writeY d r
  let s := (s.setTile t y.1).countClips t p 0 y.2.1 y.2.2
  s.incW (Reg.TILE.SKIP_BLOCKS t) (d.skip.filter (· < blocks)).length

/-- The oldest matrix operation has its last output element in tile store; the next one begins (R236). -/
def State.endMop (s : State) (t : Nat) (p : TileProg) : State :=
  match s.mopOf t with
  | none => s
  | some (d, r) => (((((s.outputs t p d r d.op.blocks).countFreeze t).popUnit t 1).loadFronts t p)).showOp t

/-- Vectors that had entered of passes that did not complete: the bubbles before them, and the streaming cycles of the last
one (R215). -/
def State.cutPasses (t cpv : Nat) : List Pass → Nat → State → State
  | [], _, s => s
  | P :: l, n, s =>
    if n = 0 then s
    else
      let v := min n P.vecs
      let s := s.incS (Reg.TILE.ARR_BUBBLE_CNT t) (bubbleOf (s.tileOf t).vPrev)
      State.cutPasses t cpv l (n - v) (s.setTile t { s.tileOf t with vPrev := some (v * cpv) })

/-- The array is stopped in the middle of an operation (R67, R204, R220, R222): how far it had come is free, within the
vectors that have entered where arrival is fused; what it had done and how long it was frozen are counted, and the
elements of Y whose sums were complete are in tile store (log 57, log 166). -/
def State.cutShort (s : State) (t : Nat) : State :=
  match s.progOf t, s.mopOf t with
  | some p, some _ =>
    let n := (s.freeBits 64).toNat % (s.checksLeft t + 1)
    let s := State.takeChecks t p none n s.drawn
    match s.mopOf t with
    | none => s
    | some (d, r) =>
      let o := d.op
      let done := vectorsOf (d.passes.take r.pass) + r.vec
      let ahead := if o.fuseEn then r.entered - done
        else (s.freeBits 8).toNat % (min (80 / o.cpv) (vectorsOf d.passes - done) + 1)
      let s := s.drawn
      let s := s.when (!o.fuseEn) fun s => s.incW (Reg.TILE.ARR_VEC_CNT t) ahead
      let s := State.cutPasses t o.cpv (d.passes.drop r.pass) (r.vec + ahead) s
      let P := d.passes.getD r.pass default
      (s.outputs t p d r (if r.pass < d.passes.length ∧ (o.diag ∨ P.grp = 0) then P.base / 256 else o.blocks)).countFreeze t
  | _, _ => s

/-! ### Close (R204, R222, R239) -/

/-- More elements clipped in the window than SAT_THRESH allows (R204). -/
def State.overSat (s : State) (t : Nat) : Bool :=
  decide ((s.reg (Reg.TILE.SAT_THRESH t)).toNat < (s.reg (Reg.TILE.WIN_SAT_CNT t)).toNat)

/-- What a named tile compares when its window closes, and the end of its program (R204, R222). -/
def State.closeTile (s : State) (w n : Nat) (t : Nat) : State :=
  let win := some (BitVec.ofNat 12 w, BitVec.ofNat 8 n)
  let s := (s.stageMark t).cutShort t
  let s := s.when (s.overSat t) fun s =>
    let s := (s.raise (U.tile t) 8 win).setNum (Reg.TILE.LAST_SAT t) (2 ^ 31 + w * 4096 + n)
    (s.setReg (Reg.TILE.LAST_SAT_CNT t) (s.reg (Reg.TILE.WIN_SAT_CNT t))).flagWin w (bit1 11)
  let fz := s.reg (Reg.TILE.ARR_WIN_FREEZE t)
  let s := s.when (decide ((s.reg (Reg.TILE.ARR_FREEZE_THRESH t)).toNat < fz.toNat)) fun s =>
    let s := (s.raise (U.tile t) 10 win).setNum (Reg.TILE.ARR_LAST_FREEZE t) (2 ^ 31 + w * 4096 + n)
    s.setReg (Reg.TILE.ARR_LAST_FREEZE_CNT t) fz
  let s := (s.clrBit (Reg.TILE.PROG_STATE t) 31).clrBit (Reg.TILE.ARR_CTRL t) 31
  s.setTile t { s.tileOf t with
    prog := none, qMatrix := [], qVector := [], qXfer := [], qFabric := [], waitCtr := none, emitting := false,
    retrying := [] }

/-- The named tiles of a TILE window that has reached DONE or FORCED (R204, R222): once it has fired, each compares, a tile
reset in the window too, and what is in flight is dropped (R67). -/
def State.closeTiles (s : State) (w : Nat) (e : PlanWindow) : State :=
  (s.noteStale w e).when (s.win w).fireAt.isSome fun s =>
    (maskList e.tiles 64).foldl (fun s l => s.closeTile w e.stream (s.physTile l)) s

/-- Flags that a window's close would still add, taken up when its record is accepted before (R204, R295; log 53). -/
def State.satAhead (s : State) (w : Nat) (e : PlanWindow) : State :=
  s.when (e.kind == 2 && (s.win w).st == .fired && (maskList e.tiles 64).any fun l => s.overSat (s.physTile l)) fun s =>
    s.flagWin w (bit1 11)

end Sys2Proof.Machine
end

