-- ==== Sys2Proof/Machine/Tile.lean ====
section
/-!
DEFINITION. CTRL, XFER and FABRIC instructions of a tile program, landing beats, and state swap (R78, R80, R234 to R241,
R249 to R259).
-/
namespace Sys2Proof.Machine

/-- The lowest cause that holds, 0 when none does (R240; log 50). -/
def firstCause : List (Bool × Nat) → Nat
  | [] => 0
  | (b, c) :: l => if b then c else firstCause l

/-- Bits [hi:lo] of a word are not zero. -/
def dirty (w : Word) (hi lo : Nat) : Bool := fld w hi lo != 0

/-- Words 1 to 3 are zero. -/
def noWords (x : TileInsn) : Bool := x.w1 == 0 && x.w2 == 0 && x.w3 == 0

/-! ### CTRL -/

/-- NOP: nothing (Table 9.3). -/
def execNop (x : TileInsn) (s : State) : Res :=
  onInsn s x 0 0 (fun _ _ _ => if x.lo == 0 && noWords x then 0 else 2) fun s _ _ => s

/-- END: issue ends; it completes when every unit has drained (R239). -/
def execEndProg (x : TileInsn) (s : State) : Res :=
  onInsn s x 0 1 (fun _ _ _ => if x.lo == 0 && noWords x then 0 else 2) fun s t p =>
    (s.setProg t { p with ended := true }).noteEnd t

/-- STAGE: the kind of later instructions (R255); a KIND beyond Table 9.9 breaks that rule (log 50). -/
def execStage (x : TileInsn) (s : State) : Res :=
  let k := x.lo.toNat
  onInsn s x 0 2 (fun _ _ _ => firstCause [(decide (8 ≤ k) || !noWords x, 2), (decide (4 < k), 9)]) fun s t p =>
    (s.setProg t { p with kind := k }).setFld (Reg.TILE.PROG_STATE t) 30 28 k

/-- WAITCTR: issue waits until arrival counter CTR has reached VALUE (Table 9.3). -/
def execWaitctr (x : TileInsn) (s : State) : Res :=
  let k := x.lo.toNat
  onInsn s x 0 3 (fun _ _ _ => if decide (16 ≤ k) || x.w2 != 0 || x.w3 != 0 then 2 else 0) fun s t _ =>
    s.when (decide ((s.reg (Reg.TILE.ARRIVAL t k)).toNat < x.w1.toNat)) fun s =>
      s.setTile t { s.tileOf t with waitCtr := some (k, x.w1) }

/-- WAITCTR_RELEASE: the counter has reached the value, and issue goes on (R253). -/
def execWaitctrRelease (t : BitVec 7) (s : State) : Res :=
  onUnit s (U.tile t.toNat) fun s =>
    match s.progOf t.toNat, (s.tileOf t.toNat).waitCtr with
    | some p, some (k, v) =>
      s.when (s.tileWorks t.toNat p && decide (v.toNat ≤ (s.reg (Reg.TILE.ARRIVAL t.toNat k)).toNat)) fun s =>
        (s.setTile t.toNat { s.tileOf t.toNat with waitCtr := none }).lookNext t.toNat
    | _, _ => s

/-- COUNT of an object table, and the entries that EGR can take of it: none above 1,024 (R256, R290). -/
def State.objCount (s : State) (t a : Nat) : Nat × Nat :=
  let n := leNat (s.tileRd t a 4)
  (n, if n ≤ 1024 then n else 0)

/-- The checks of EMITOBJ (R256): the table inside the store, a FILTER stage, a window with EMIT 1, its lowest-numbered
tile, once. -/
def emitCheck (x : TileInsn) (s : State) (t : Nat) (p : TileProg) : Nat :=
  let a := 64 * fld x.w1 31 16
  let w := p.win.toNat
  let e := (s.planWin w).getD default
  firstCause [(x.lo != 0 || dirty x.w1 15 0 || x.w2 != 0 || x.w3 != 0, 2),
    (decide (storeSize < a + 64 + 48 * (s.objCount t a).2), 6),
    (p.kind != 3 || !e.emit || (maskList e.tiles 64).head? != some p.ltile || (s.win w).objs.isSome, 9)]

/-- EMITOBJ: the object table goes to EGR, and issue is blocked until EGR has copied it (R256, R295). -/
def execEmitobj (x : TileInsn) (s : State) : Res :=
  onInsn s x 0 4 (emitCheck x) fun s t p =>
    let a := 64 * fld x.w1 31 16
    let n := s.objCount t a
    let d := leBytes 4 n.1 ++ s.tileRd t (a + 64) (48 * n.2)
    let s := s.setWin p.win.toNat { s.win p.win.toNat with objs := some d }
    s.setTile t { s.tileOf t with emitting := true }

/-! ### XFER -/

/-- The checks of LOAD and STORE (R241): reserved fields, the region, the reference's alignment, bounds and ACCESS. -/
def xferCheck (x : TileInsn) (store : Bool) (p : TileProg) : Nat :=
  let off := x.w2.toNat
  let n := fld x.w3 15 0
  let okRef := match p.refs[fld x.w1 31 24]? with
    | some r => decide (off % 64 = 0 ∧ off + 64 * n ≤ r.2.1) && r.2.2.testBit (if store then 1 else 0)
    | none => false
  firstCause [(x.lo != 0 || dirty x.w1 (if store then 23 else 18) 0, 2),
    (decide (65536 < fld x.w3 31 16 + n), 6), (!okRef, 7)]

/-- The device address of a transfer. -/
def xferAddr (x : TileInsn) (p : TileProg) : Nat := (p.refs.getD (fld x.w1 31 24) (0, 0, 0)).1 + x.w2.toNat

/-- LOAD: DRAM to tile store, block by block as it lands (R241, R253). -/
def execLoad (x : TileInsn) (s : State) : Res :=
  onInsn s x 3 0 (fun _ _ p => xferCheck x false p) fun s t p =>
    s.enqueue t 3 p (.loadOp (xferAddr x p) (64 * fld x.w3 31 16) (fld x.w3 15 0)
      (if tst x.w1 19 then some (fld x.w1 23 20) else none))

/-- STORE: tile store to DRAM, which has it all when the transfer completes (R236, R241). -/
def execStore (x : TileInsn) (s : State) : Res :=
  onInsn s x 3 1 (fun _ _ p => xferCheck x true p) fun s t p =>
    s.enqueue t 3 p (.storeOp (xferAddr x p) (64 * fld x.w3 31 16) (fld x.w3 15 0))

/-- XFER_COMPLETE: a LOAD's last block is in tile store, or DRAM has accepted a STORE's last byte (R236). -/
def execXferComplete (t : BitVec 7) (s : State) : Res :=
  onFlight s t.toNat 3 fun s _ g =>
    match g.op with
    | .loadOp _ _ 0 _ => s.popUnit t.toNat 3
    | .storeOp a ts n => (s.writeMem (U.tile t.toNat) a (s.tileRd t.toNat ts (64 * n))).popUnit t.toNat 3
    | _ => s

/-- A block of a LOAD lands: zeros for a poisoned one, which is counted and flagged (R241, R253). -/
def State.landLoad (s : State) (t : Nat) (p : TileProg) (addr ts left : Nat) (ctr : Option Nat) : State :=
  let bad := s.poisoned addr 64
  let s := (s.readBeats (U.tile t) addr 64).tileWr t ts (if bad then List.replicate 64 0 else s.readMem addr 64)
  let s := s.when bad fun s =>
    ((s.incS (Reg.TILE.POISON_CNT t)).raise (U.tile t) 12 (some (p.win, p.stream))).flagWin p.win.toNat (bit1 10)
  let s := match ctr with | some k => s.arrive t k | none => s
  s.setHead t 3 (.loadOp (addr + 64) (ts + 64) (left - 1) ctr)

/-! ### FABRIC -/

/-- The logical tiles from column `c` to column `c'` of row `r`, both included. -/
def alongRow (r c c' : Nat) : List Nat :=
  if c ≤ c' then (List.range (c' + 1 - c)).map fun i => 8 * r + c + i else (List.range (c + 1 - c')).map fun i => 8 * r + c - i

/-- The logical tiles from row `r` to row `r'` of column `c`, without the first. -/
def alongCol (c r r' : Nat) : List Nat :=
  if r ≤ r' then (List.range (r' - r)).map fun i => 8 * (r + 1 + i) + c else (List.range (r - r')).map fun i => 8 * (r - 1 - i) + c

/-- A route: along the source's row to the destination's column, then along that column (R249). -/
def routeOf (a b : Nat) : List Nat := alongRow (a / 8) (a % 8) (b % 8) ++ alongCol (b % 8) (a / 8) (b / 8)

/-- The links of a route, in order: origin and end. -/
def linksOf (a b : Nat) : List (Nat × Nat) := (routeOf a b).zip (routeOf a b).tail

/-- The number of a link direction (Table 15.7; log 54): row links before column links. -/
def linkIndex (l : Nat × Nat) : Nat :=
  let d := if l.1 < l.2 then 0 else 1
  if l.1 / 8 = l.2 / 8 then 14 * (l.1 / 8) + 2 * (min l.1 l.2 % 8) + d
  else 112 + 14 * (l.1 % 8) + 2 * (min l.1 l.2 / 8) + d

/-- The checks of SEND (R251): reserved fields, the regions, the route. -/
def sendCheck (x : TileInsn) (s : State) (p : TileProg) : Nat :=
  let dst := fld x.w1 31 26
  let n := fld x.w3 15 0
  let tiles := match s.planWin p.win.toNat with | some e => maskList e.tiles 64 | none => []
  firstCause [(x.lo != 0 || dirty x.w1 25 20 || dirty x.w1 7 0 || dirty x.w3 31 16, 2),
    (decide (65536 < fld x.w2 31 16 + n ∨ 65536 < fld x.w2 15 0 + n), 6),
    (fld x.w1 15 8 == 0 || dst == p.ltile || (routeOf p.ltile dst).any fun l => !tiles.contains l, 8)]

/-- A SEND that a tile transmits: its source and destination, its slots, the cycle of its issue. -/
structure Sending where
  src : Nat
  dest : Nat
  slots : Nat
  issued : Nat
  deriving DecidableEq, Repr

/-- Where two SENDs meet: the link slots that both use on each link direction they share, with the link's origin and how
many hops the second has behind it there (R250, R252); a hop takes 4 cycles (R249). -/
def Sending.meets (a b : Sending) : List (Nat × Nat × Nat) :=
  let la := linksOf a.src a.dest
  let lb := linksOf b.src b.dest
  la.zipIdx.flatMap fun x => (lb.zipIdx.filter fun y => y.1 = x.1).flatMap fun y =>
    ((List.range 8).filter fun k => a.slots.testBit ((k + 4 * x.2) % 8) && b.slots.testBit ((k + 4 * y.2) % 8)).map fun k =>
      (k, x.1.1, y.2)

/-- The link serves the SEND issued first, of two issued in one cycle that of the lower-numbered source (R252). -/
def Sending.before (a b : Sending) : Bool := decide (a.issued < b.issued ∨ a.issued = b.issued ∧ a.src < b.src)

/-- The SEND that a tile transmits, if it has beats left. -/
def State.sending (s : State) (w : Nat) (t : Nat) : Option Sending :=
  match s.progOf t, (s.tileOf t).qFabric.head? with
  | some p, some g => if p.win.toNat = w then (match g.op with
      | .sendOp d _ _ left _ m i => if left = 0 then none else some { src := p.ltile, dest := d, slots := m, issued := i }
      | _ => none) else none
  | _, _ => none

/-- The other SENDs of a window that tiles transmit. -/
def State.otherSends (s : State) (w t : Nat) : List Sending :=
  (List.range 72).filterMap fun u => if u = t then none else s.sending w u

/-- A SEND begins to transmit: PFB counts it once for each other SEND of the window with which it shares a slot of a link
direction (R252; log 54). -/
def State.collide (s : State) (t : Nat) (w : Nat) : State :=
  match s.sending w t with
  | none => s
  | some a => (s.otherSends w t).foldl (fun s b => match a.meets b with
    | [] => s
    | (k, o, _) :: _ =>
      let s := (s.raise U.pfb 8 (s.evWin w)).incS Reg.PFB.COLLISION_CNT
      s.setNum Reg.PFB.LAST_COLLISION (2 ^ 31 + k * 2 ^ 24 + w * 4096 + o * 64)) s

/-- The tile's SEND has a slot in which no link serves another SEND before it (R252; log 166). -/
def State.mayTransmit (s : State) (w t : Nat) : Bool :=
  match s.sending w t with
  | none => false
  | some a =>
    let taken := ((s.otherSends w t).filter fun b => b.before a).flatMap fun b =>
      (b.meets a).map fun x => (x.1 + 4 * x.2.2) % 8
    (List.range 8).any fun k => a.slots.testBit k && !taken.contains k

/-- SEND: beats leave in the chosen slots and land at the destination (R250, R252). -/
def execSend (x : TileInsn) (s : State) : Res :=
  onInsn s x 4 0 (fun s _ p => sendCheck x s p) fun s t p =>
    let first := (s.tileOf t).qFabric.isEmpty
    let s := s.enqueue t 4 p (.sendOp (fld x.w1 31 26) (64 * fld x.w2 31 16) (64 * fld x.w2 15 0) (fld x.w3 15 0)
      (fld x.w1 19 16) (fld x.w1 15 8) (s.tileCycles p))
    s.when first fun s => s.collide t p.win.toNat

/-- A beat of a SEND lands in the destination's store and counts there, on its links and in BEATS (R250, R253). -/
def State.landSend (s : State) (t : Nat) (p : TileProg) (dest src dst left ctr slots issued : Nat) : State :=
  let d := s.physTile dest
  let s := (s.tileWr d dst (s.tileRd t src 64)).arrive d ctr
  let s := s.incW Reg.PFB.BEATS
  let s := (linksOf p.ltile dest).foldl (fun (s : State) l =>
    { s with fabric := { s.fabric with beats := s.fabric.beats.upd (fun _ => 0) (linkIndex l) (fun n => (n + 1) % 2 ^ 64) } }) s
  s.setHead t 4 (.sendOp dest (src + 64) (dst + 64) (left - 1) ctr slots issued)

/-- BEAT_LAND: a beat of the tile's LOAD or SEND in progress lands (R253); that of a SEND leaves in a slot that its links
give it (R252). -/
def execBeatLand (src : BeatSrc) (s : State) : Res :=
  match src with
  | .load t => onFlight s t.toNat 3 fun s p g =>
    (match g.op with
     | .loadOp a ts left c => s.when (decide (left ≠ 0)) fun s => s.landLoad t.toNat p a ts left c
     | _ => s)
  | .fabric t => onFlight s t.toNat 4 fun s p g =>
    (match g.op with
     | .sendOp d a b left c m i => s.when (decide (left ≠ 0) && s.mayTransmit p.win.toNat t.toNat) fun s =>
       s.landSend t.toNat p d a b left c m i
     | _ => s)

/-- SEND_COMPLETE: the last beat has landed (R236); the next SEND of the tile begins. -/
def execSendComplete (t : BitVec 7) (s : State) : Res :=
  onFlight s t.toNat 4 fun s p g =>
    match g.op with
    | .sendOp _ _ _ 0 _ _ _ => (s.popUnit t.toNat 4).collide t.toNat p.win.toNat
    | _ => s

/-! ### State swap -/

/-- SWAP_IN_DONE: the tile's state is in the swap region, or the tile resets it, and issue starts (R78, R236, R259). -/
def execSwapInDone (t : BitVec 7) (s : State) : Res :=
  onUnit s (U.tile t.toNat) fun s =>
    match s.progOf t.toNat with
    | none => s
    | some p => s.when (s.tileWorks t.toNat p && !p.started && !p.halted) fun s =>
      let s := s.swapIn t.toNat p
      (s.setProg t.toNat { p with started := true }).lookNext t.toNat

/-- SWAP_OUT_DONE: the tile has written its state and then the stamp (R78, R80, R271). -/
def execSwapOutDone (t : BitVec 7) (s : State) : Res :=
  onUnit s (U.tile t.toNat) fun s =>
    match s.progOf t.toNat with
    | none => s
    | some p =>
      let e := (s.planWin p.win.toNat).getD default
      s.when (s.tileWorks t.toNat p && p.ended && !p.halted && (s.tileOf t.toNat).drained && s.owesSwapOut e t.toNat)
        fun s => s.swapOut t.toNat p

end Sys2Proof.Machine
end

