-- ==== Sys2Proof/Machine/Array.lean ====
section
/-!
DEFINITION. MOP, its completion and fused vector entry (08_matrix_array, R242 to R246, R254, R257).
-/
namespace Sys2Proof.Machine

/-- The descriptors of a MOP: operation, epilogue, prologue. -/
def State.mopBytes (s : State) (t : Nat) (x : TileInsn) : Bytes × Bytes × Bytes :=
  let ob := s.tileRd t (64 * fld x.w1 31 16) 64
  let o := Opd.ofBytes ob
  (ob, s.tileRd t (64 * o.epdTs) 64, s.tileRd t (64 * o.prdTs) 64)

/-- The output blocks that the skip bitmap names, with SKIP_EN (R257). -/
def State.skipped (s : State) (t : Nat) (o : Opd) : List Nat :=
  if o.skipEn then
    (List.range o.blocks).filter fun b => ((s.tileRd t (64 * o.skmTs + b / 8) 1).getD 0 0).toNat.testBit (b % 8)
  else []

/-- What a MOP is to execute. -/
def State.mopDesc (s : State) (t : Nat) (x : TileInsn) : MopDesc :=
  let b := s.mopBytes t x
  { opd := b.1, epd := b.2.1, prd := b.2.2, skip := s.skipped t (Opd.ofBytes b.1) }

/-- MOP: one matrix operation from its descriptor (R242 to R246, R257). It joins the array's queue; when the array is free,
its first fronts load (R214). -/
def execMop (x : TileInsn) (s : State) : Res :=
  onInsn s x 1 0 (fun s t _ =>
      if x.lo != 0 || dirty x.w1 15 0 || x.w2 != 0 || x.w3 != 0 then 2
      else
        let b := s.mopBytes t x
        mopCause b.1 b.2.1 b.2.2)
    fun s t p =>
      let first := (s.tileOf t).qMatrix.isEmpty
      let s := s.enqueue t 1 p (.matrix (s.mopDesc t x) MopRun.start)
      s.when first fun s => (s.loadFronts t p).showOp t

/-- MOP_COMPLETE: the oldest operation's last output element is in tile store (R236). Verdicts that no command has brought
are taken first, in their order, with nothing upset (R266); a fused operation must have its last vector. -/
def execMopComplete (t : BitVec 7) (s : State) : Res :=
  let t := t.toNat
  onFlight s t 1 fun s p _ =>
    match s.mopOf t with
    | some (d, r) =>
      s.when (!d.op.fuseEn || decide (r.entered = vectorsOf d.passes)) fun s =>
        (State.takeChecks t p none (s.checksLeft t) s).endMop t p
    | none => s

/-- FUSED_VECTOR_ENTRY: the arrival counter has reached what the next vector of the oldest operation waits for, and it
enters row 0 (R254). -/
def execFusedVectorEntry (t : BitVec 7) (s : State) : Res :=
  let t := t.toNat
  onFlight s t 1 fun s _ _ =>
    match s.mopOf t with
    | some (d, r) =>
      let o := d.op
      s.when (o.fuseEn && decide (r.entered < vectorsOf d.passes) &&
          decide (o.fuseNeed d.skip r.entered ≤ (s.reg (Reg.TILE.ARRIVAL t o.fuseCtr)).toNat)) fun s =>
        ((s.incW (Reg.TILE.ARR_VEC_CNT t)).setMop t d { r with entered := r.entered + 1 }).showOp t
    | none => s

end Sys2Proof.Machine
end

