-- ==== Sys2Proof/Machine/LensOps.lean ====
section
/-!
DEFINITION. Lens engine operations (06_lens_and_prism): descriptors and the firing checks, picture input, scaling, colour,
normalisation, layouts, regrouping, augmentation records.
-/
namespace Sys2Proof.Machine

/-! ### Descriptors (Tables 6.1, 6.2) -/

/-- An output entry (Table 6.2). -/
structure LnsOut where
  tile1 : Bool
  layout : Nat
  fmt : Nat
  log2B : Nat
  c : Nat
  hTab : Nat
  vTab : Nat
  ow : Nat
  oh : Nat
  ax : Nat
  ay : Nat
  aw : Nat
  ah : Nat
  sx : Nat
  sy : Nat
  sw : Nat
  sh : Nat
  tile : Nat
  tsOff : Nat
  mean : List Nat
  invStd : List Nat
  qmul : Nat
  zp : Int
  pad : List Nat
  reservedZero : Bool
  deriving DecidableEq, Repr, Inhabited

/-- Read one from its 16 words. -/
def LnsOut.ofWords (w : Nat → Nat) : LnsOut :=
  { tile1 := bitOf (w 0) 31, layout := bitsOf (w 0) 30 28, fmt := bitsOf (w 0) 27 24, log2B := bitsOf (w 0) 23 22
    c := bitsOf (w 0) 21 16 + 1, hTab := bitsOf (w 0) 14 12, vTab := bitsOf (w 0) 10 8
    ow := bitsOf (w 1) 31 16, oh := bitsOf (w 1) 15 0, ax := bitsOf (w 2) 31 16, ay := bitsOf (w 2) 15 0
    aw := bitsOf (w 3) 31 16, ah := bitsOf (w 3) 15 0, sx := bitsOf (w 4) 31 16, sy := bitsOf (w 4) 15 0
    sw := bitsOf (w 5) 31 16, sh := bitsOf (w 5) 15 0, tile := bitsOf (w 6) 21 16, tsOff := bitsOf (w 6) 15 0
    mean := (List.range 3).map fun i => w (8 + i), invStd := (List.range 3).map fun i => w (11 + i)
    qmul := w 14, zp := signedN 8 (bitsOf (w 15) 31 24)
    pad := [bitsOf (w 15) 23 16, bitsOf (w 15) 15 8, bitsOf (w 15) 7 0]
    reservedZero := !bitOf (w 0) 15 && !bitOf (w 0) 11 && bitsOf (w 0) 7 0 == 0 && bitsOf (w 6) 31 22 == 0 && w 7 == 0 }

/-- A lens descriptor (Table 6.1). -/
structure LnsDesc where
  mode : Nat
  outN : Nat
  tables : Nat
  augEn : Bool
  ring : Nat
  rx : Nat
  ry : Nat
  rw : Nat
  rh : Nat
  m : List Nat
  ofs : List Nat
  outs : List LnsOut
  reservedZero : Bool
  deriving DecidableEq, Repr, Inhabited

/-- Read a descriptor in device DRAM. -/
def State.lnsDesc (s : State) (a : Nat) : LnsDesc :=
  let w := fun i => leNat (s.readMem (a + 4 * i) 4)
  let n := bitsOf (w 0) 23 20 + 1
  { mode := bitsOf (w 0) 31 28, outN := n, tables := bitsOf (w 0) 19 16, augEn := bitOf (w 0) 13, ring := bitsOf (w 0) 12 0
    rx := bitsOf (w 1) 31 16, ry := bitsOf (w 1) 15 0, rw := bitsOf (w 2) 31 16, rh := bitsOf (w 2) 15 0
    m := (List.range 9).map fun i => w (4 + i), ofs := (List.range 3).map fun i => w (13 + i)
    outs := (List.range n).map fun k => LnsOut.ofWords fun i => w (16 + 16 * k + i)
    reservedZero := bitsOf (w 0) 27 24 == 0 && bitsOf (w 0) 15 14 == 0 && w 3 == 0 }

/-- Coefficient k of phase p of table t (R163). -/
def State.lnsCoef (s : State) (a outN t p k : Nat) : Int :=
  signedN 16 (leNat (s.readMem (a + 64 + 64 * outN + 1024 * t + 16 * p + 2 * k) 2))

/-- Bytes of an element of a format 0x6 to 0xE. -/
def elemBytes (fmt : Nat) : Nat := if fmt ≤ 9 then 1 else if fmt ≤ 0xC then 2 else 4

/-- Block B. -/
def LnsOut.b (o : LnsOut) : Nat := 2 ^ o.log2B

/-- Padded channel count CP (R175), for a layout: 0 CHW, 1 HWC, 2 PRISM. -/
def LnsOut.cp (o : LnsOut) (layout : Nat) : Nat :=
  if layout = 2 then roundUp (o.c * o.b * o.b) 16 else if layout = 1 ∧ o.c = 3 then 4 else o.c

/-- RP (R176). -/
def LnsOut.rp (o : LnsOut) (layout : Nat) : Nat :=
  let e := elemBytes o.fmt
  roundUp (if layout = 0 then o.ow * e else if layout = 1 then o.ow * o.cp 1 * e else o.ow / o.b * o.cp 2 * e) 64

/-- Tensor size (R176). -/
def LnsOut.size (o : LnsOut) (layout : Nat) : Nat :=
  if layout = 0 then o.c * o.oh * o.rp 0 else if layout = 1 then o.oh * o.rp 1 else o.oh / o.b * o.rp 2

/-- Byte offset of an element (R175). -/
def LnsOut.elemOff (o : LnsOut) (layout x y c : Nat) : Nat :=
  let e := elemBytes o.fmt
  if layout = 0 then c * o.oh * o.rp 0 + y * o.rp 0 + x * e
  else if layout = 1 then y * o.rp 1 + (x * o.cp 1 + c) * e
  else y / o.b * o.rp 2 + (x / o.b * o.cp 2 + ((y % o.b) * o.b + x % o.b) * o.c + c) * e

/-- What a byte of a tensor belongs to (the inverse of R175): an element and its byte, a padding channel's byte, or the
rest of a row. -/
inductive TensorByte where
  | elem (x y c i : Nat)
  | padCh (i : Nat)
  | rowEnd
  deriving DecidableEq, Repr

/-- The inverse of R175. -/
def LnsOut.at (o : LnsOut) (off : Nat) : TensorByte :=
  let e := elemBytes o.fmt
  let row := off / o.rp o.layout
  let k := off % o.rp o.layout / e
  let i := off % e
  if o.layout = 0 then (if k < o.ow then .elem k (row % o.oh) (row / o.oh) i else .rowEnd)
  else
    let cp := o.cp o.layout
    let x := k / cp
    let ch := k % cp
    if o.layout = 1 then
      (if o.ow ≤ x then .rowEnd else if ch < o.c then .elem x row ch i else .padCh i)
    else
      let q := ch / o.c
      if o.ow / o.b ≤ x then .rowEnd
      else if ch < o.c * o.b * o.b then .elem (x * o.b + q % o.b) (row * o.b + q / o.b) (ch % o.c) i
      else .padCh i

/-- Bytes of a descriptor with its outputs and tables (Tables 6.1, 6.2, R163). -/
def LnsDesc.bytes (d : LnsDesc) : Nat := 64 + 64 * d.outN + 1024 * d.tables

/-- The charge (R179). -/
def LnsDesc.charge (d : LnsDesc) : Nat :=
  ceilDiv (d.outs.foldl (fun a o => a + o.ow * o.oh) 0) 2 + ceilDiv (d.rw * d.rh) 8 + 4000

/-! ### Firing checks (R181, Table 6.7) -/

/-- FIELD of one output; a reserved LAYOUT counts as a reserved field (log 47). -/
def LnsOut.badField (o : LnsOut) : Bool := !o.reservedZero || decide (2 < o.layout)

/-- TABLE of the coefficients (R163). -/
def State.badCoefs (s : State) (a : Nat) (d : LnsDesc) : Bool :=
  (List.range d.tables).any fun t => (List.range 64).any fun p =>
    let l := (List.range 8).map fun k => s.lnsCoef a d.outN t p k
    l.any (fun c => decide (c < -512 ∨ 511 < c)) || l.foldl (· + ·) 0 != 256

/-- GEOMETRY of one output (Tables 6.1, 6.2, 6.7): the ranges of the rectangles hold in both modes, and REGROUP adds those of
R178. -/
def LnsDesc.badGeometry (d : LnsDesc) (o : LnsOut) : Bool :=
  !decide (1 ≤ o.ow ∧ o.ow ≤ 8192 ∧ 1 ≤ o.oh ∧ o.oh ≤ 8192) ||
  ((o.layout == 2 || d.mode == 1) && (o.ow % o.b != 0 || o.oh % o.b != 0)) ||
  !decide (d.rx % 2 = 0 ∧ d.ry % 2 = 0 ∧ d.rw % 2 = 0 ∧ d.rh % 2 = 0 ∧ 2 ≤ d.rw ∧ d.rw ≤ 8192 ∧ 2 ≤ d.rh ∧
      d.rh ≤ 8192 ∧ 4 ≤ o.sw ∧ 4 ≤ o.sh ∧ 1 ≤ o.aw ∧ 1 ≤ o.ah ∧ o.ax + o.aw ≤ o.ow ∧ o.ay + o.ah ≤ o.oh) ||
  (d.mode == 1 && !decide (d.rx = 0 ∧ d.ry = 0 ∧ d.rw = o.ow / o.b ∧ d.rh = o.oh / o.b))

/-- FORMAT of one output (Table 6.3, R178). -/
def LnsDesc.badFormat (d : LnsDesc) (o : LnsOut) : Bool :=
  if d.mode = 1 then !decide (6 ≤ o.fmt ∧ o.fmt ≤ 0xE ∧ o.layout ≤ 1)
  else !(o.fmt == 6 || o.fmt == 7 || o.fmt == 8 || o.fmt == 0xB || o.fmt == 0xC) || (o.c != 1 && o.c != 3)

/-- REFERENCE of the inputs (R164). -/
def LnsDesc.badInputs (d : LnsDesc) (q : PlanProgram) (refs : List PlanRef) : Bool :=
  let r0 := refs.getD 0 default
  let r1 := refs.getD 1 default
  q.refCount != d.outN + 2 || refs.length != d.outN + 2 || r0.access % 2 == 0 ||
  (if d.mode = 1 then r1.length != 0 || decide (r0.length < (d.outs.getD 0 default).size 2) else r1.access % 2 == 0)

/-- REFERENCE of one output (R164). -/
def LnsOut.badRef (o : LnsOut) (r : PlanRef) : Bool :=
  if o.tile1 then r.length != 0 else decide (r.length < o.size o.layout) || decide (r.access < 2)

/-- TILE_DEST of output k (R177). -/
def State.badTileDest (s : State) (p : Plan) (w : Nat) (e : PlanWindow) (d : LnsDesc) (k : Nat) (o : LnsOut) : Bool :=
  let ok := p.windows.any fun v => v.kind == 2 && v.stream == e.stream && v.tiles.testBit o.tile && v.deps.contains w &&
    decide (v.start ≤ e.start) && v.existsIn s.clock.epoch.toNat
  let span := fun (x : LnsOut) => (64 * x.tsOff, x.size x.layout)
  o.tile1 && (!ok || decide (storeSize < 64 * o.tsOff + o.size o.layout) ||
    (d.outs.take k).any fun x => x.tile1 && x.tile == o.tile && meet (span x) (span o))

/-- RING (R174). -/
def State.badRing (s : State) (e : PlanWindow) (d : LnsDesc) (others : List Nat) : Bool :=
  d.augEn && (s.ringKind d.ring != 1 || s.rfld (Reg.RING.BIND d.ring) 31 24 != e.stream || others.contains d.ring)

/-- The first output, from index k on, that fails a check. -/
def firstOut (f : Nat → LnsOut → Bool) : List LnsOut → Nat → Option Nat
  | [], _ => none
  | o :: os, k => if f k o then some k else firstOut f os (k + 1)

/-- The program entry of an engine: the first that names it. -/
def Plan.lensProgram (p : Plan) (e : PlanWindow) (n : Nat) : Option PlanProgram := (p.programsFor e n).head?

/-- The checks of Table 6.7 for one engine, in its order: the cause and the output concerned. A program that is missing or
whose descriptor reads poisoned data fails as SIZE (log 47). -/
def State.lensCheck (s : State) (p : Plan) (w : Nat) (e : PlanWindow) (n : Nat) (otherRings : List Nat) : Nat × Nat :=
  match p.lensProgram e n with
  | none => (2, 0)
  | some q =>
    let a := p.base + q.codeOff
    let d := s.lnsDesc a
    let refs := p.refsOf q
    let size := d.bytes
    if q.codeSize < 64 ∨ s.poisoned a 64 then (2, 0)
    else if 1 < d.mode ∨ !d.reservedZero then (1, 0)
    else if q.codeSize < size ∨ s.poisoned a size ∨ 8 < d.outN ∨
        (if d.mode = 0 then d.tables < 1 ∨ 8 < d.tables else d.outN ≠ 1 ∨ d.tables ≠ 0) then (2, 0)
    else match firstOut (fun _ o => o.badField) d.outs 0 with
      | some k => (1, k)
      | none =>
        if d.mode = 0 ∧ s.badCoefs a d then (3, 0)
        else match firstOut (fun _ o => d.mode == 0 && (decide (d.tables ≤ o.hTab) || decide (d.tables ≤ o.vTab))) d.outs 0 with
          | some k => (3, k)
          | none => match firstOut (fun _ o => d.badGeometry o) d.outs 0 with
            | some k => (4, k)
            | none => match firstOut (fun _ o => d.badFormat o) d.outs 0 with
              | some k => (5, k)
              | none =>
                if d.badInputs q refs then (6, 0)
                else match firstOut (fun k o => o.badRef (refs.getD (2 + k) default)) d.outs 0 with
                  | some k => (6, k)
                  | none => match firstOut (fun k o => s.badTileDest p w e d k o) d.outs 0 with
                    | some k => (7, k)
                    | none =>
                      if s.badRing e d otherRings then (8, 0)
                      else if e.cycles < d.charge then (9, 0)
                      else (0, 0)

/-! ### Picture input (R165, R166, R169) -/

/-- A clamp region [x0, x1) × [y0, y1). -/
abbrev Region := Nat × Nat × Nat × Nat

/-- The clamp region of luma (plane 0) and chroma (R169). -/
def LnsDesc.clampTo (d : LnsDesc) (src : OutEntry) (plane : Nat) : Region :=
  if plane = 0 then (d.rx, min (d.rx + d.rw) src.width, d.ry, min (d.ry + d.rh) src.height)
  else (d.rx / 2, min ((d.rx + d.rw) / 2) (ceilDiv src.width 2), d.ry / 2, min ((d.ry + d.rh) / 2) (ceilDiv src.height 2))

/-- The clamp region is empty. -/
def Region.empty (r : Region) : Bool := decide (r.2.1 ≤ r.1 ∨ r.2.2.2 ≤ r.2.2.1)

/-- The output table entry that an engine takes at firing (R165, R166, R169). -/
def State.lensPicture (s : State) (p : Plan) (e : PlanWindow) (q : PlanProgram) (d : LnsDesc) : Option OutEntry :=
  let base := p.refAddr ((p.refsOf q).getD 0 default)
  match s.newerCopy base, s.storeGeometry p e.stream with
  | some i, some _ =>
    let c := wrapN 40 ((s.clock.epoch.toNat : Int) - e.lag)
    match (outEntries (s.readMem (base + i * copyBytes) 64)).find? fun x => x.valid && x.epoch == c && x.sub == e.sub with
    | some x => if Region.empty (d.clampTo x 0) ∨ Region.empty (d.clampTo x 1) then none else some x
    | none => none
  | _, _ => none

/-- What an engine reads from: buffer address, geometry, entry. -/
structure LnsSrc where
  addr : Nat
  geo : DecDesc
  ent : OutEntry
  deriving DecidableEq, Repr, Inhabited

/-- The picture is 10-bit. -/
def LnsSrc.deep (src : LnsSrc) : Bool := src.ent.depth != 8

/-- A sample at the nearest position inside the clamp region; mid-grey in a poisoned block (R166, R169). -/
def State.lensSample (s : State) (d : LnsDesc) (src : LnsSrc) (plane : Nat) (y x : Int) : Int :=
  let r := d.clampTo src.ent plane
  let x' := (clampI r.1 ((r.2.1 : Int) - 1) x).toNat
  let y' := (clampI r.2.2.1 ((r.2.2.2 : Int) - 1) y).toNat
  let a := src.addr + src.geo.sampleOff src.deep plane x' y'
  if (s.readBlock (a / 64)).2 then ((2 ^ (src.ent.depth - 1) : Nat) : Int)
  else (leNat (s.readMem a (sampleBytes src.deep)) : Int)

/-- The 64-byte blocks of the clamp regions, which the engine reads (R166, R169). -/
def LnsDesc.pictureBlocks (d : LnsDesc) (src : LnsSrc) : List Nat :=
  let rows := fun (plane : Nat) =>
    let r := d.clampTo src.ent plane
    (List.range (r.2.2.2 - r.2.2.1)).map fun i =>
      (src.addr + src.geo.sampleOff src.deep plane r.1 (r.2.2.1 + i), (r.2.1 - r.1) * sampleBytes src.deep * (if plane = 0 then 1 else 2))
  ((rows 0 ++ rows 1).flatMap fun x => blocksOf x.1 x.2).eraseDups

/-! ### Scaling (R168) -/

/-- The source rectangle after augmentation (R173): X, Y, W, H in quarter samples. -/
def LnsOut.source (o : LnsOut) (a : Option AugEntry) : Int × Int × Int × Int :=
  match a with
  | none => (o.sx, o.sy, o.sw, o.sh)
  | some a =>
    let w : Int := (o.sw * a.sx / 4096 : Nat)
    let h : Int := (o.sh * a.sy / 4096 : Nat)
    (o.sx + a.dx + ((o.sw : Int) - w) / 2, o.sy + a.dy + ((o.sh : Int) - h) / 2, w, h)

/-- The component value h of an output sample at (u, v) of the active rectangle (R168). `tab` is the descriptor's place. -/
def State.lensScale (s : State) (tab : Nat) (d : LnsDesc) (src : LnsSrc) (o : LnsOut) (a : Option AugEntry)
    (plane u v : Nat) : Int :=
  let r := o.source a
  let uu : Int := if (a.map (·.hflip)).getD false then (o.aw : Int) - 1 - u else u
  let vv : Int := if (a.map (·.vflip)).getD false then (o.ah : Int) - 1 - v else v
  let sx := r.2.2.1 * 16384 / (o.aw : Int)
  let sy := r.2.2.2 * 16384 / (o.ah : Int)
  let px := r.1 * 16384 + (2 * uu + 1) * sx / 2 - 32768
  let py := r.2.1 * 16384 + (2 * vv + 1) * sy / 2 - 32768
  let px := if plane = 0 then px else px / 2
  let py := if plane = 0 then py else (py - 32768) / 2
  let ix := px / 65536
  let iy := py / 65536
  let phx := (px / 1024 % 64).toNat
  let phy := (py / 1024 % 64).toNat
  (List.range 8).foldl (fun (h : Int) (k : Nat) =>
    let col := (List.range 8).foldl (fun (c : Int) (j : Nat) =>
      c + s.lnsCoef tab d.outN o.vTab phy j * s.lensSample d src plane (iy - 3 + j) (ix - 3 + k)) 0
    h + s.lnsCoef tab d.outN o.hTab phx k * ((col + 32) / 64)) 0

/-! ### Colour and normalisation (R170, R171) -/

/-- A saturating FP32 product, its value alone. -/
def vMul (a b : Fv) : Fv := (fvMul a b).1

/-- A saturating FP32 sum, its value alone. -/
def vAdd (a b : Fv) : Fv := (fvAdd a b).1

/-- An FP32 word's value. -/
def fvOf (w : Nat) : Fv := ffFP32.decode w

/-- A rational rounded to FP32. -/
def fvQuot (n d : Nat) : Fv := (sat32 ((Dy.ofInt n).div (Dy.ofInt d))).1

/-- Component value y (R170). -/
def lensComponent (h : Int) (depth : Nat) : Fv := vMul (sat32 (Dy.ofInt h)).1 (fvQuot 1 (1024 * (2 ^ depth - 1)))

/-- r_i of an active sample (R170). -/
def LnsDesc.colour (d : LnsDesc) (c i : Nat) (comp : Nat → Fv) : Fv :=
  if c = 1 then comp 0
  else
    let m := fun j => fvOf (d.m.getD (3 * i + j) 0)
    vAdd (vAdd (vAdd (vMul (m 0) (comp 0)) (vMul (m 1) (comp 1))) (vMul (m 2) (comp 2))) (fvOf (d.ofs.getD i 0))

/-- n_i × QMUL from r_i (R171). -/
def LnsOut.normalise (o : LnsOut) (i : Nat) (r : Fv) : Fv :=
  vMul (vMul (vAdd r (fvOf (o.mean.getD i 0)).neg) (fvOf (o.invStd.getD i 0))) (fvOf o.qmul)

/-- q of an output element (R168 to R171, R173): a pad sample outside the active rectangle or without a picture. -/
def State.lensValue (s : State) (tab : Nat) (d : LnsDesc) (src : Option LnsSrc) (o : LnsOut) (a : Option AugEntry)
    (x y i : Nat) : Fv :=
  let inside := decide (o.ax ≤ x ∧ x < o.ax + o.aw ∧ o.ay ≤ y ∧ y < o.ay + o.ah)
  match src with
  | some src =>
    if inside then
      let comp := fun plane => lensComponent (s.lensScale tab d src o a plane (x - o.ax) (y - o.ay)) src.ent.depth
      let r := d.colour o.c i comp
      let aug := match a with | some a => (a.gain.getD i 0, a.off.getD i 0) | none => (0x3C00, 0)
      o.normalise i (vAdd (vMul r (ffFP16.decode aug.1)) (ffFP16.decode aug.2))
    else o.normalise i (fvQuot (o.pad.getD i 0) 255)
  | none => o.normalise i (fvQuot (o.pad.getD i 0) 255)

/-- The code of an element and whether it clipped (Table 6.3). Where a parameter of the descriptor makes q not finite the
manual states no code: a free value for the byte offset given (log 49). -/
def State.lensCode (s : State) (o : LnsOut) (q : Fv) (off : Nat) : Nat × Bool :=
  match q with
  | .fin _ _ => let r := requant o.fmt q (.fin false (Dy.ofInt 1)) o.zp; (r.1, r.2.1)
  | .nan => ((Config.freeBits 32 (2 ^ 64 + s.fresh * 2 ^ 40 + off)).toNat, false)
  | .inf _ => ((Config.freeBits 32 (2 ^ 64 + s.fresh * 2 ^ 40 + off)).toNat, false)

/-- The code of 0.0 (R175): ZP, saturated as Table 6.3 says, for the integer formats. -/
def LnsOut.zeroCode (o : LnsOut) : Nat :=
  if o.fmt = 7 then o.zp.toNat else if fmtZp o.fmt then wrapN (fmtBits o.fmt) o.zp else 0

/-- The elements of an output, in no order that matters: x, y, channel. -/
def LnsOut.elems (o : LnsOut) : List (Nat × Nat × Nat) :=
  (List.range o.oh).flatMap fun y => (List.range o.ow).flatMap fun x => (List.range o.c).map fun c => (x, y, c)

/-- A PICTURE-mode output: its tensor and its clipped elements (R171, R175). -/
def State.pictureTensor (s : State) (tab : Nat) (d : LnsDesc) (src : Option LnsSrc) (o : LnsOut) (a : Option AugEntry) :
    Bytes × Nat :=
  let code := fun x y c => s.lensCode o (s.lensValue tab d src o a x y c) (o.elemOff o.layout x y c)
  ((List.range (o.size o.layout)).map fun off => match o.at off with
      | .elem x y c i => BitVec.ofNat 8 ((code x y c).1 / 256 ^ i)
      | .padCh i => BitVec.ofNat 8 (o.zeroCode / 256 ^ i)
      | .rowEnd => 0,
   (o.elems.filter fun z => (code z.1 z.2.1 z.2.2).2).length)

/-- A REGROUP-mode output: every element copied unchanged from the PRISM tensor at `a` (R178). What an element read from a
poisoned block becomes is not stated: free values (log 49). -/
def State.regroupTensor (s : State) (o : LnsOut) (a : Nat) : Bytes :=
  (List.range (o.size o.layout)).map fun off => match o.at off with
    | .elem x y c i =>
      let b := a + o.elemOff 2 x y c + i
      if (s.readBlock (b / 64)).2 then Config.freeBits 8 (2 ^ 64 + s.fresh * 2 ^ 40 + off) else s.readByte b
    | .padCh i => BitVec.ofNat 8 (o.zeroCode / 256 ^ i)
    | .rowEnd => 0

/-! ### Augmentation records (R172, Tables 6.4, 6.5, 6.6) -/

/-- Entry n of a record. -/
def augEntry (b : Bytes) (n : Nat) : AugEntry :=
  let o := 64 + 24 * n
  { dx := signedN 16 (leAt b o 2), dy := signedN 16 (leAt b (o + 2) 2), sx := leAt b (o + 4) 2, sy := leAt b (o + 6) 2
    gain := (List.range 3).map fun i => leAt b (o + 8 + 2 * i) 2, off := (List.range 3).map fun i => leAt b (o + 14 + 2 * i) 2
    hflip := bitOf (leAt b (o + 20) 1) 0, vflip := bitOf (leAt b (o + 20) 1) 1 }

/-- An FP16 code is finite. -/
def fp16Finite (c : Nat) : Bool := match ffFP16.decode c with | .fin _ _ => true | .nan => false | .inf _ => false

/-- Reserved bits of a record are zero. -/
def augReserved (b : Bytes) : Bool :=
  leAt b 5 1 % 64 == 0 && (sliceB b 8 52).all (· == 0) && (List.range 8).all fun n =>
    leAt b (64 + 24 * n + 20) 1 / 4 == 0 && leAt b (64 + 24 * n + 21) 3 == 0

/-- The record's CRC holds. -/
def augCrc (b : Bytes) : Bool := leAt b 60 4 == crc32c (zeroAt b 60 4)

/-- The fields of the entries that OUT_MASK applies are valid. DEDUCED (log 47): an entry that applies to no output has no
fields to be out of range. -/
def augFields (b : Bytes) : Bool :=
  (List.range 8).all fun n => !bitOf (leAt b 7 1) n ||
    (let e := augEntry b n
     decide (1024 ≤ e.sx ∧ e.sx ≤ 16384 ∧ 1024 ≤ e.sy ∧ e.sy ≤ 16384) && e.gain.all fp16Finite && e.off.all fp16Finite)

/-- The engine starts reading the ring's oldest unconsumed entry (R172, R371); an empty, inactive or unreachable ring
gives no read. -/
def State.augRead (s : State) (n ring : Nat) (j : LnsJob) : State :=
  let none' : LnsJob := { j with tag := none, raw := none }
  if s.ringState ring ≠ 1 ∨ s.ringKind ring ≠ 1 ∨ s.hostIdx ring = s.devIdx ring ∨ !s.canRead then s.setLns n (some none')
  else
    let a := s.entryAddr ring (s.devIdx ring)
    if s.winOk (s.ringClass ring) false a 256 then
      let tag := s.pep.nextTag
      let s := s.hostRead (.augment (BitVec.ofNat 13 ring) n) a 256
      s.setLns n (some { j with ring := some ring, tag := some tag, raw := none })
    else ((s.winFail (s.ringClass ring) false false ring).ringFault ring 3).setLns n (some none')

/-- Identity parameters (R172, Table 6.6): LAST_AUG, AUG_DEFAULT, PG_ERR.AUG, the record flag. -/
def State.augDefault (s : State) (n cause : Nat) (j : LnsJob) (e : PlanWindow) : State :=
  let s := s.setLns n (some { j with tag := none, raw := none, settled := true, aug := [] })
  let s := (s.setNum (Reg.LNS.LAST_AUG n) (2 ^ 31 + cause * 2 ^ 16 + e.stream * 256)).incW (Reg.LNS.AUG_DEFAULT n)
  (s.raise (U.lns n) 10 (s.evWin j.win.toNat)).flagWin j.win.toNat (bit1 8)

/-- The engine acts on what its read brought (Table 6.6). A wrong CRC is found before the record's age (log 47). -/
def State.augAct (s : State) (n : Nat) (j : LnsJob) (e : PlanWindow) (ring : Nat) : State :=
  match j.raw with
  | some (.success, b) =>
    if s.ringState ring ≠ 1 then s.augDefault n 1 j e
    else
      let key := leAt b 0 5 * 4 + leAt b 5 1 / 64
      let want := wrapN 40 ((s.clock.epoch.toNat : Int) - e.lag) * 4 + e.sub
      if !augCrc b then (s.consume ring 1).augDefault n 3 j e
      else if key < want then
        let s := s.consume ring 1
        let j := { j with examined := j.examined + 1 }
        if 8 ≤ j.examined then s.augDefault n 1 j e else s.augRead n ring j
      else if want < key then s.augDefault n 2 j e
      else if leAt b 6 1 ≠ e.stream ∨ !augReserved b ∨ !augFields b then (s.consume ring 1).augDefault n 3 j e
      else
        let aug := (List.range 8).map fun k => if bitOf (leAt b 7 1) k then some (augEntry b k) else none
        ((s.consume ring 1).incW (Reg.LNS.AUG_APPLIED n)).setLns n
          (some { j with tag := none, raw := none, settled := true, aug := aug })
  | _ => s.augDefault n 1 j e

/-! ### Windows -/

/-- The engine serves no window (Table 6.8, CURRENT). -/
def State.lnsIdle (s : State) (n : Nat) : State := (s.setLns n none).setNum (Reg.LNS.CURRENT n) 0

/-- The jobs of a window's engines. -/
def State.lnsJobs (s : State) (w : Nat) : List (Nat × LnsJob) :=
  (List.range 8).filterMap fun n => match s.lnsOf n with
    | some j => if j.win.toNat = w then some (n, j) else none
    | none => none

/-- The engines abort, or their window never fires. -/
def State.lensAbort (s : State) (w : Nat) : State := (s.lnsJobs w).foldl (fun s x => s.lnsIdle x.1) s

/-- An engine's job for a window whose program has not begun. -/
def LnsJob.waiting (w : Nat) (settled : Bool) : LnsJob :=
  { win := BitVec.ofNat 12 w, fired := false, ring := none, tag := none, raw := none, examined := 0, settled := settled, aug := [],
    src := none, done := false }

/-- The window reaches START (R172): an engine with AUG_EN 1 starts its read. -/
def State.lensOpen (s : State) (p : Plan) (w : Nat) (e : PlanWindow) : State :=
  e.named.foldl (fun s n =>
    match p.lensProgram e n with
    | some q =>
      let d := s.lnsDesc (p.base + q.codeOff)
      let j := LnsJob.waiting w (!d.augEn)
      if d.augEn then s.augRead n d.ring j else s.setLns n (some j)
    | none => s) s

/-- The rings that the other programs of a window name with AUG_EN 1 (R174). -/
def State.otherRings (s : State) (p : Plan) (e : PlanWindow) (n : Nat) : List Nat :=
  e.named.filterMap fun m => if m = n then none else match p.lensProgram e m with
    | some q => let d := s.lnsDesc (p.base + q.codeOff); if d.augEn then some d.ring else none
    | none => none

/-- The window fires (R165, R166, R181): the checks of Table 6.7, the output table entry, and a ring that brought no read. -/
def State.fireLens (s : State) (p : Plan) (w : Nat) (e : PlanWindow) : State :=
  let s := e.named.foldl (fun s n => s.setNum (Reg.LNS.CURRENT n) (2 ^ 31 + w * 2 ^ 16 + e.stream * 256)) s
  let bad := e.named.filterMap fun n =>
    let c := s.lensCheck p w e n (s.otherRings p e n)
    if c.1 = 0 then none else some (n, c)
  if !bad.isEmpty then
    let s := bad.foldl (fun s x =>
      (s.setNum (Reg.LNS.LAST_ERR x.1) (2 ^ 31 + x.2.2 * 2 ^ 20 + x.2.1 * 2 ^ 16 + e.stream * 256)).raise (U.lns x.1) 8
        (s.evWin w)) s
    let s := e.named.foldl (fun s n => s.setLns n (some (LnsJob.waiting w true))) s
    s.setWin w { s.win w with failed := true }
  else
    e.named.foldl (fun s n =>
      match p.lensProgram e n, s.lnsOf n with
      | some q, some j =>
        let d := s.lnsDesc (p.base + q.codeOff)
        let src := if d.mode = 0 then s.lensPicture p e q d else none
        let s := s.readBeats (U.lns n) (p.base + q.codeOff) d.bytes
        let s := s.when (d.mode == 0) fun s => s.readCopies (U.lns n) (p.refAddr ((p.refsOf q).getD 0 default)) 64
        let s := s.setLns n (some { j with fired := true, src := src })
        let s := s.when (d.mode == 0 && src.isNone) fun s =>
          (s.incW (Reg.LNS.NO_PIC n)).raise (U.lns n) 9 (s.evWin w)
        s.when (!j.settled && j.raw.isNone && j.tag.isNone) fun s =>
          s.augDefault n 1 { j with fired := true, src := src } e
      | _, _ => s) s

end Sys2Proof.Machine
end

