-- ==== Sys2Proof/Machine/StewardOps.lean ====
section
/-!
DEFINITION. Boot images, the seal and the steward domain (14_boot, R366 to R376): image checks, what SEAL does, the
reset of the steward domain.
-/
namespace Sys2Proof.Machine

/-! ### Stages -/

/-- BOOT_STATUS.STAGE: 0 ROM, 1 WAIT_HOST, 2 VERIFY, 3 BOOT_CODE, 4 SEALED, 5 READY, 15 FAILED. -/
def State.stage (s : State) : Nat := s.rfld Reg.STW.BOOT_STATUS 31 28

/-- Write it. -/
def State.setStage (s : State) (n : Nat) : State := s.setFld Reg.STW.BOOT_STATUS 31 28 n

/-- A boot failure: CAUSE, and PG_ERR.BOOT_FAIL of STW (R366, R368). -/
def State.bootFail (s : State) (cause : Nat) : State := (s.setFld Reg.STW.BOOT_STATUS 15 8 cause).raise U.stw 10

/-! ### Memories of the steward -/

/-- What flash reads as where nothing has been written (log 7). -/
def flash0 : Nat → Byte := fun _ => 0xFF

/-- What steward SRAM reads as where nothing has been written (log 7). -/
def sram0 : Nat → Byte := fun _ => 0

/-- Bytes of the QSPI flash. -/
def State.flashRead (s : State) (a n : Nat) : Bytes := s.stw.flash.getRange flash0 a n

/-- Write bytes of the QSPI flash. -/
def State.flashStore (s : State) (a : Nat) (d : Bytes) : State :=
  { s with stw := { s.stw with flash := s.stw.flash.setRange flash0 a d } }

/-- Flash offset of slot A or B (R366). -/
def flashSlot (n : Nat) : Nat := if n = 0 then 0 else 0x800000

/-! ### Image checks (Tables 14.1, 14.2) -/

/-- IMAGE_SIZE of a header. -/
def imgSize (h : Bytes) : Nat := leAt h 8 4

/-- ENTRY of a header. -/
def imgEntry (h : Bytes) : Nat := bitsOf (leAt h 0x10 4) 20 0

/-- KEY_SLOT of a header. -/
def imgKeySlot (h : Bytes) : Nat := leAt h 0x14 4 % 2

/-- SVN of a header. -/
def imgSvn (h : Bytes) : Nat := leAt h 0xC 4 % 256

/-- Check 2, FORMAT; `len` is the length a host or a command gave with the image. -/
def imgFormatOk (h : Bytes) (len : Option Nat) : Bool :=
  leAt h 0 4 == 0x59424F54 && leAt h 4 4 == 0x00010200 && decide (1024 ≤ imgSize h ∧ imgSize h ≤ 1572864) &&
  leAt h 0xC 4 / 256 == 0 && leAt h 0x10 4 / 2 ^ 21 == 0 && decide (imgEntry h < imgSize h - 512) &&
  leAt h 0x14 4 / 2 == 0 && leAt h 0x18 8 == 0 && (sliceB h 0xE0 0x120).all (· == 0) &&
  (match len with | some n => n == imgSize h | none => true)

/-- The fused key hash of a slot. -/
def Fuses.keyHash (f : Fuses) (slot : Nat) : BitVec 384 := if slot = 0 then f.keyHash0 else f.keyHash1

/-- The cause of the first failing check of Table 14.2 from check 2 on, 0 for none: header, then the whole image. -/
def State.imageCheck (s : State) (h img : Bytes) (len : Option Nat) : Nat :=
  if !imgFormatOk h len then 2
  else if s.fuses.revoked.getLsbD (imgKeySlot h) then 3
  else if Config.sha384 (sliceB h 0x20 96) ≠ s.fuses.keyHash (imgKeySlot h) then 4
  else if !Config.ecdsaP384 (sliceB h 0x20 96) (sliceB h 0x80 96) (zeroAt img 0x80 96) then 5
  else if imgSvn h < s.stw.svn.toNat then 6
  else 0

/-- A verified image starts (R366 step 5): its payload in SRAM, the cores at ENTRY, STAGE BOOT_CODE. -/
def State.bootImage (s : State) (source : Nat) (h img : Bytes) : State :=
  let s := { s with stw := { s.stw with sram := s.stw.sram.setRange sram0 0 (img.drop 512),
                                        image := some { svn := BitVec.ofNat 8 (imgSvn h), slot := source } } }
  let s := (s.setNum Reg.STW.ENTRY (imgEntry h)).setFld Reg.SEC.FUSE_INFO 0 0 (imgKeySlot h)
  (s.setFld Reg.STW.BOOT_STATUS 27 26 source).setStage 3

/-- The image of a QSPI slot: header and image. -/
def State.flashImage (s : State) (slot : Nat) : Bytes × Bytes :=
  let h := s.flashRead (flashSlot slot) 512
  (h, s.flashRead (flashSlot slot) (min (imgSize h) 1572864))

/-! ### SEAL (R370, R308 to R310, R331) -/

/-- SPARES as written. -/
def State.spares (s : State) : Nat := s.rfld Reg.SEC.MODE_CFG 0 0

/-- A requester window that check 4 of Table 14.4 refuses. -/
def State.badWindow (s : State) (c w : Nat) : Bool :=
  let lo := s.reg (Reg.SEC.REQ_WIN_LO c w)
  let base := fld lo 31 12 * 4096 + 2 ^ 32 * (s.reg (Reg.SEC.REQ_WIN_HI c w)).toNat
  let pages := (s.reg (Reg.SEC.REQ_WIN_SIZE c w)).toNat
  decide (fld lo 1 0 ≠ 0) && (pages == 0 || decide (2 ^ 64 < base + 4096 * pages))

/-- The cause of the first failing check of Table 14.4, 0 for none. -/
def State.sealCheck (s : State) (value : Word) : Nat :=
  let d := s.reg Reg.SEC.DUMP_CFG
  let u := 16 * (16 - s.spares) * 503316480
  if fld value 31 16 ≠ 0x5EA1 then 1
  else if tst d 31 && decide (u < (fld d 8 0 + 1) * 2 ^ 28) then 2
  else if 8192 < s.rfld Reg.SEC.PART_CFG 13 0 ∨ 8192 < s.rfld Reg.SEC.PART_CFG 29 16 then 3
  else if (List.range 4).any (fun c => (List.range 16).any fun w => s.badWindow c w) then 4
  else if (List.range 4).any (fun i =>
      let p := s.reg (Reg.SEC.STAMP_PRIV i)
      tst p 31 && fld p 23 16 != 1 && fld p 23 16 != 2) then 5
  else if s.rfld Reg.STW.CODE_LIMIT 20 12 = 0 ∨
      s.rfld Reg.STW.CODE_LIMIT 20 12 * 4096 ≤ (s.reg Reg.STW.ENTRY).toNat then 6
  else 0

/-- Every write queue of every controller is empty. -/
def State.queuesEmpty (s : State) : Bool := (List.range 16).all fun c => (s.dmcOf c).wq.isEmpty && (s.dmcOf c).rq.isEmpty

/-- A rank of controller c that failed initialisation, at SEAL (R328, R331): it is handled as a fault, PG_ERR.RANK_FAULT;
RETIRED with the spare in its place while one exists; without one the controller reads FAULTED. -/
def State.sealRank (s : State) (c p : Nat) : State :=
  let s := s.raise (U.dmc c) 11
  if s.rankState c p = 1 then s.setRankState c p 4
  else match s.rankIn c 1 with
    | some t =>
      let q := ((List.range 16).find? fun q => s.rankMap c q == p).getD p
      ((s.setRankState c p 4).setRankState c t 0).setNib (Reg.DMC.RANK_MAP_LO c) (Reg.DMC.RANK_MAP_HI c) q t
    | none => if s.runState (U.dmc c) < 3 then s.enterFaulted (U.dmc c) false else s

/-- A controller takes up the spare ranks and the rank map (R308, R331), and USABLE (Table 12.8); rank 15 comes first among
failed ranks, so that a spare that failed stands in for none. -/
def State.sealDmc (s : State) (c : Nat) : State :=
  let s := if s.spares = 1 then s.setRankState c 15 1 else s
  let s := (s.dmcOf c).badRanks.reverse.foldl (fun s p => s.sealRank c p) s
  let s := s.setNum (Reg.DMC.MEM_CFG c) (2 + s.spares)
  s.setNum (Reg.DMC.USABLE c) ((16 - s.spares) * 480)

/-- SEAL takes effect (R370). -/
def State.sealNow (s : State) : State :=
  let s := (List.range 16).foldl State.sealDmc s
  let seed := BitVec.ofNat 64 (s.reg64 Reg.SEC.SEED_LO Reg.SEC.SEED_HI)
  let s := { s with dram := { s.dram with seed := seed, na := 16 - s.spares },
                    stw := { s.stw with sealing := false, followOn := true } }
  let s := (s.setBit Reg.SEC.SEAL_STATUS 31).setNum Reg.DEVCTL.SEAL_STATE (1 + 2 * s.rfld Reg.SEC.MODE_CFG 2 2)
  s.setStage 4

/-! ### The steward domain (R374) -/

/-- A mailbox request in BUSY goes to ABORTED, and its reply is lost (R374). -/
def State.mbxAbort (s : State) : State :=
  (List.range 32).foldl (fun s n =>
    if s.rfld (Reg.MBX.STATUS n) 2 0 = 2 then
      (s.setFld (Reg.MBX.STATUS n) 2 0 4).setMbx n { s.mbxOf n with result := none }
    else s) s

/-- Some mailbox request is PENDING. -/
def State.mbxWaiting (s : State) : Bool := (List.range 32).any fun n => s.rfld (Reg.MBX.STATUS n) 2 0 == 1

/-- The steward domain resets (R374, R375): SRAM above CODE_LIMIT is cleared, the cores restart at ENTRY, BUSY requests
are ABORTED, a dump in progress starts again, and the follow-on is due, sealed or not (log 169). -/
def State.stewardDomainReset (s : State) : State :=
  let lim := s.rfld Reg.STW.CODE_LIMIT 20 12 * 4096
  let keep := s.stw.sram.filter fun e => decide (e.1 < lim)
  let s := { s with stw := { s.stw with sram := keep, asleep := false, followOn := true, fwLog := [] } }
  let again (d : DumpRun) : DumpRun := { d with written := false }
  let s := { s with erc := { s.erc with dump := s.erc.dump.map again } }
  s.mbxAbort

/-- The watchdog resets the steward domain (R374): STW_RESET_CNT, RESET_CAUSE.WATCHDOG, PG_ERR.WATCHDOG. -/
def State.watchdogReset (s : State) (inj : Bool := false) : State :=
  (((s.incHi Reg.STW.STW_RESET_CNT).setBit Reg.DEVCTL.RESET_CAUSE 2).raise U.stw 9 none inj).stewardDomainReset

/-- Two cores that disagree reset the steward domain (R374): STW_RESET_CNT, PG_ERR.LOCKSTEP. -/
def State.lockstepReset (s : State) (inj : Bool := false) : State :=
  ((s.setFld Reg.STW.STW_RESET_CNT 15 0 (min 0xFFFF (s.rfld Reg.STW.STW_RESET_CNT 15 0 + 1))).raise U.stw 8 none
    inj).stewardDomainReset

end Sys2Proof.Machine
end

