-- ==== Sys2Proof/Machine/RegOps.lean ====
section
/-!
DEFINITION. What a register write does by access code (R10, R11, R28 to R30, R41), what starting, stopping and resetting
an instance do (R20 to R26, R87, R93, R118, R119, R306, R337), and the warm reset (R37 to R39).
-/
namespace Sys2Proof.Machine

/-! ### Live writes (R29) -/

/-- REPAIR_CTRL.AUTO goes from 0 to 1: flags held back count from here (R276). -/
def State.autoOn (s : State) (was : Bool) : State :=
  s.when (!was && s.rbit Reg.PFB.REPAIR_CTRL 0) fun s =>
    { s with fabric := { s.fabric with autoFrom := some (s.clock.epoch, s.clock.phase) } }

/-- RW-L fields take their value: INTA follows ATTN_EN (R356), held flags follow AUTO (R276). -/
def State.landLive (s : State) (a : Nat) (mask v : Word) : State :=
  let auto := s.rbit Reg.PFB.REPAIR_CTRL 0
  let s := s.setReg a ((s.reg a &&& ~~~mask) ||| (v &&& mask))
  if a = Reg.PEP.ATTN_EN then s.updInta
  else if a = Reg.PFB.REPAIR_CTRL then s.autoOn auto
  else s

/-- An RW-L write of an instance: at once, or kept for the start of the instance's next window (R29, R438). -/
def State.writeLive (s : State) (u : Inst) (a : Nat) (mask v : Word) : State :=
  if mask = 0 then s
  else if s.servesWindows u then { s with live := s.live ++ [{ unit := u, addr := a, mask := mask, value := v }] }
  else s.landLive a mask v

/-- The writes kept for some instances take effect together, in arrival order, so that the last one to a field wins. -/
def State.applyLive (s : State) (p : Inst → Bool) : State :=
  let due := s.live.filter fun l => p l.unit
  let s := { s with live := s.live.filter fun l => !p l.unit }
  due.foldl (fun s l => s.landLive l.addr l.mask l.value) s

/-- Writes kept for instances that serve windows no longer take effect (R29). -/
def State.flushLive (s : State) : State := s.applyLive fun u => !s.servesWindows u

/-! ### Writes by access code -/

/-- A rejected static write (R28). -/
def State.staticReject (s : State) (u : Inst) (a : Nat) : State :=
  let s := if s.rbit (pgStatic u) 31 then s.setBit (pgStatic u) 30 else s.setNum (pgStatic u) (2 ^ 31 + (a - u.base) % 2 ^ 24)
  s.raise u 0

/-- TMU refuses some values while STOPPED (R41): the PG_ERR bit, when the write is ignored. -/
def State.tmuRefuses (s : State) (a : Nat) (v : Word) : Option Nat :=
  if s.runState U.tmu ≠ 0 then none
  else if a = Reg.TMU.PERIOD_NS ∧ (v.toNat < 10000000 ∨ 100000000 < v.toNat) then some 4
  else if a = Reg.TMU.EPOCH_CFG ∧ fld v 1 0 = 3 then some 4
  else if a = Reg.TMU.EPOCH_CFG ∧ fld v 1 0 = 2 ∧ !s.gradeD then some 11
  else none

/-- Registers of which any 1 bit written clears the whole field (Tables 5.13, 6.8, 11.6, 18.10). -/
def clearsWhole (b : Blk) (off : Nat) : Bool :=
  match b with
  | .dec => off == 0x64
  | .lns => off == 0x50
  | .egr => off == 0x5C
  | .devctl => off == 0xC8
  | .sec | .tmu | .ple | .erc | .mbx | .pep | .nix | .ing | .cpm | .scx | .dmc | .tile | .pfb | .met | .stw => false

/-- The W1C fields of a register take a write. -/
def State.writeW1c (s : State) (u : Inst) (a : Nat) (mask v : Word) : State :=
  let hit := v &&& mask
  if hit = 0 then s
  else
    let clear := if clearsWhole u.blk (a - u.base) then mask
      else if a = Reg.CPM.FREE_REJECT then hit ||| bit1 30
      else hit
    let s := s.setReg a (s.reg a &&& ~~~clear)
    if a = Reg.PEP.ATTN_STATUS then s.updInta else s

/-- A write to a register, field by field under its access codes (R11, R28 to R30). -/
def State.writeFields (s : State) (u : Inst) (a : Nat) (d : RegDesc) (v : Word) : State :=
  let rws := BitVec.ofNat 32 d.rws
  let boot := BitVec.ofNat 32 d.boot
  let old := s.reg a
  let stopped := s.runState u == 0
  let s := s.writeW1c u a (BitVec.ofNat 32 d.w1c) v
  let s := if rws = 0 then s
    else if stopped then s.setReg a ((s.reg a &&& ~~~rws) ||| (v &&& rws))
    else if v &&& rws = old &&& rws then s
    else s.staticReject u a
  let s := if boot = 0 then s
    else if s.isSealed then s.access u
    else s.setReg a ((s.reg a &&& ~~~boot) ||| (v &&& boot))
  s.writeLive u a (BitVec.ofNat 32 d.rwl) v

/-! ### Starting and stopping (Table 1.3) -/

/-- Lanes that a port of this speed absorbs beyond its own (R87). -/
def absorbs (speed : Nat) : Nat := if speed = 2 then 1 else if speed = 3 then 3 else 0

/-- PORT_CFG.SPEED; 9 to 15 are treated as 0 (Table 3.1). -/
def State.portSpeed (s : State) (n : Nat) : Nat :=
  let v := s.rfld (Reg.NIX.PORT_CFG n) 3 0
  if 9 ≤ v then 0 else v

/-- The port may run (R87, Table 3.1). DESIGN CHOICE (log 160): a port whose SPEED 2 or 3 stands where R87 does not allow it
cannot run and absorbs no lane of another port. -/
def State.portOk (s : State) (n : Nat) : Bool :=
  let v := s.portSpeed n
  let fits := if n < 8 then v == 1 || (v == 2 && n % 2 == 0) || (v == 3 && n % 4 == 0) else decide (4 ≤ v ∧ v ≤ 8)
  fits && (List.range (absorbs v)).all (fun i => s.portSpeed (n + 1 + i) == 0) &&
    (List.range 8).all fun m =>
      m == n || !(decide (m < n ∧ n ≤ m + absorbs (s.portSpeed m)) && (s.portSpeed m == 2 && m % 2 == 0 || s.portSpeed m == 3 && m % 4 == 0))

/-- PG_CTRL.RUN ignores writes here (R25, R381). -/
def runFixed (u : Inst) : Bool := u.blk.alwaysRuns || u.blk == .stw

/-- A RUN write that the block's chapter refuses with PG_ERR.PROTOCOL. -/
def State.runRefused (s : State) (u : Inst) (run : Bool) : Bool :=
  match u.blk with
  | .tmu | .ple | .dmc => !run && s.streamsInUse
  | .nix => run && !s.portOk u.idx
  | .scx => !run && s.streamState u.idx != 0
  | .cpm => if run then !s.poolOk else s.streamsInUse
  | .egr => s.streamsInUse
  | .devctl | .sec | .erc | .mbx | .pep | .ing | .dec | .lns | .tile | .pfb | .met | .stw => false

/-- What entering RUNNING does besides: TMU takes its epoch (R42), CPM frees the pool (R118), a controller takes up its
settings (R337) once its channels are initialised (R459), a port starts its ladder at attempt 1 (R91). -/
def State.runStarts (s : State) (u : Inst) : State :=
  if u.blk = .dmc ∧ !(s.dmcOf u.idx).initDone then s
  else
  let s := s.setRun u 1
  match u.blk with
  | .tmu => s.tmuStart
  | .cpm => s.cpmStart
  | .nix => s.setFld (Reg.NIX.TRAIN_LOG u.idx) 31 16 0
  | .dmc => s.setDmc u.idx { s.dmcOf u.idx with thresh := s.rfld (Reg.DMC.HAMMER_CFG u.idx) 15 0,
                                                 hours := s.rfld (Reg.DMC.SCRUB_CFG u.idx) 7 0,
                                                 prio := s.reg (Reg.DMC.PORT_PRIO u.idx),
                                                 age := s.rfld (Reg.DMC.AGE_LIMIT u.idx) 15 0 }
  | .devctl | .sec | .ple | .erc | .mbx | .pep | .ing | .egr | .scx | .dec | .lns | .tile | .pfb | .met | .stw => s

/-! ### The end of a window's work (Table 1.3, Table 2.4) -/

/-- A STOPPING unit that no window has at work any more leaves STOPPING (Table 1.3): for STOPPED, or for RUNNING when RUN
reads 1. -/
def State.releaseUnit (s : State) (u : Inst) : State :=
  if s.runState u = 2 ∧ !s.serving u then s.setRun u (b2n (s.rbit (pgCtrl u) 0)) else s

/-- The units that a window names are released, where they are STOPPING and serve no other. -/
def State.releaseUnits (s : State) (e : PlanWindow) : State := (s.needs e).foldl State.releaseUnit s

/-- The units of a window stop working on it. -/
def State.dropWork (s : State) (w : Nat) (e : PlanWindow) : State :=
  match e.kind with
  | 0 => s.decAbort w
  | 1 => s.lensAbort w
  | 2 => s.closeTiles w e
  | _ => s

/-- The chain of the access unit that a window consumed goes back to CPM (R124). -/
def State.returnAu (s : State) (e : PlanWindow) (r : WinRun) : State :=
  match r.au with
  | some a => (match a.cells with
    | i :: _ => s.askReturn { source := 2, unit := e.named.headD 0, stream := e.stream, first := i }
    | [] => s)
  | none => s

/-- A window closes: it returns its access unit's chain, and releases the STOPPING instances it served. -/
def State.closeWin (s : State) (w : Nat) (e : PlanWindow) : State :=
  let r := s.win w
  let s := s.setWin w { r with st := .closed, closing := r.st, closeAt := some s.clock.phase }
  (s.returnAu e r).releaseUnits e

/-- Every window that is not CLOSED ends where it stands, with no record: its units stop, it returns its chain and
releases its units. PLE stops or is reset, or the epoch of a PLE that does not run ends (R22, R65, R70). -/
def State.endWindows (s : State) : State :=
  match s.ple.plan with
  | none => s
  | some p => (List.range p.windows.length).foldl (fun s w =>
      match p.windows[w]? with
      | some e =>
        let st := (s.win w).st
        let s := s.when (st == .waiting || st == .open || st == .fired) fun s => s.dropWork w e
        s.when (st != .closed) fun s => s.closeWin w e
      | none => s) s

/-- What leaving for STOPPED does besides: a port's link goes DOWN (R91), CPM's returns end (R119), TMU's epochs stand;
when PLE stops, its windows end and writes kept for a window start take effect (R29). -/
def State.runStops (s : State) (u : Inst) : State :=
  let s := s.setRun u 0
  match u.blk with
  | .nix => s.portStops u.idx
  | .cpm => s.cpmStop
  | .tmu => s.tmuStop
  | .ple => s.endWindows.flushLive
  | .devctl | .sec | .erc | .mbx | .pep | .ing | .egr | .scx | .dec | .lns | .dmc | .tile | .pfb | .met | .stw => s

/-- PG_CTRL.RESET reads 1. -/
def State.resetting (s : State) (u : Inst) : Bool := s.rbit (pgCtrl u) 1

/-- A write to PG_CTRL.RUN (R20, R24 to R26): one that the block's chapter refuses sets PROTOCOL in every run state; in
FAULTED it is ignored, and while a reset is under way the bit stays 0 (R23). -/
def State.writeRun (s : State) (u : Inst) (run : Bool) : State :=
  if runFixed u then s
  else if s.runRefused u run then s.protocol u
  else if s.runState u = 3 ∨ s.resetting u then s
  else
    let s := s.setFld (pgCtrl u) 0 0 (b2n run)
    match s.runState u with
    | 0 => if run then s.runStarts u else s
    | 1 => if run then s else if s.serving u then s.setRun u 2 else s.runStops u
    | _ => s

/-! ### Instance reset (R21 to R24) -/

/-- A reset is refused with PG_ERR.PROTOCOL (R26, R119, R306, R337; Table 15.5). -/
def State.resetRefused (s : State) (u : Inst) : Bool :=
  match u.blk with
  | .dmc => true
  | .tmu | .ple | .cpm | .egr => s.streamsInUse
  | .devctl | .sec | .erc | .mbx | .pep | .nix | .ing | .scx | .dec | .lns | .tile | .pfb | .met | .stw => false

/-- RW-S and RW-L fields of an instance's registers return to their reset values; ERC keeps LOG_HEAD (R405). -/
def State.resetFields (s : State) (u : Inst) : State :=
  let lo := u.base + 0x40
  let hi := u.base + 4096 * u.blk.pages
  let keys := (s.regs.filter fun e => decide (lo ≤ e.1 ∧ e.1 < hi) && e.1 != Reg.ERC.LOG_HEAD).map (·.1)
  keys.foldl (fun s a =>
    match (descsOf u.blk).find? (fun d => d.covers (a - u.base)) with
    | some d =>
      let m := BitVec.ofNat 32 d.rws ||| BitVec.ofNat 32 d.rwl
      s.setReg a ((s.reg a &&& ~~~m) ||| (resetOf a &&& m))
    | none => s) s

/-- The page header after a reset: PG_CTRL, PG_STATE, PG_ERR, PG_ERR_EN, PG_FIRST_ERR, PG_STATIC_LOG; PG_ERR_CNT stays. -/
def State.resetHeader (s : State) (u : Inst) : State :=
  let s := (s.setNum (pgCtrl u) 0).setRun u 0
  let s := (s.setNum (pgErr u) 0).setNum (pgErrEn u) 0x1E
  (s.setNum (pgFirst u) 0).setNum (pgStatic u) 0

/-- Some registers return to 0. -/
def State.zeroRegs (s : State) (l : List Nat) : State := l.foldl (fun s a => s.setNum a 0) s

/-- PLE after a reset: no slot holds an image, no plan is in effect, none is due, no unit works for a window. -/
def State.pleReset (s : State) : State :=
  let s := s.endWindows
  let s := { s with ple := { s.ple with loading := none, checking := none, plan := none, next := none, wins := [] } }
  let s := s.zeroRegs ((List.range 16).map Reg.PLE.SLOT_STATUS)
  (s.zeroRegs [Reg.PLE.COMMIT_STATUS, Reg.PLE.COMMIT_EPOCH_LO, Reg.PLE.COMMIT_EPOCH_HI, Reg.PLE.ACTIVE,
    Reg.PLE.ACTIVE_PLAN_ID]).flushLive

/-- A tile after a reset: its program and queues end; what its array had done is counted (R220); its store and flag stay
(R22, R24). -/
def State.tileReset (s : State) (t : Nat) : State :=
  let s := s.cutShort t
  let x := s.tileOf t
  let s := s.setTile t { x with prog := none, qMatrix := [], qVector := [], qXfer := [], qFabric := [], waitCtr := none,
                                emitting := false, vPrev := none, retrying := [], repeated := false,
                                overCounted := false, inj := none }
  (s.zeroRegs [Reg.TILE.PROG_STATE t, Reg.TILE.PROG_PC t, Reg.TILE.ARR_CTRL t]).clrBit (Reg.TILE.MIRROR_INJ t) 31

/-- CPM after a reset: there is no pool. -/
def State.cpmReset (s : State) : State :=
  let s := { s with cpm := { s.cpm with alloc := [], free := [], fresh := 0, bufs := [], req := none, asked := [],
                                        walking := [] } }
  s.zeroRegs ([Reg.CPM.FREE_CELLS, Reg.CPM.ALLOC_STATUS, Reg.CPM.ALLOC_ADDR_LO,
    Reg.CPM.ALLOC_ADDR_HI] ++ (List.range 4).map Reg.CPM.CLASS_FREE)

/-- Ingress after a reset: what it was reordering and assembling is dropped, and the cells return to the pool. -/
def State.ingReset (s : State) : State :=
  ((List.range 256).filter fun n => s.streamState n != 0).foldl (fun s n =>
    let s := s.returnAll n
    s.setScx n { s.scxOf n with held := [], asm := none, aus := [], next := none }) s

/-- A unit that is reset while it works for a window leaves the window's work incomplete. -/
def State.failWin (s : State) (w : BitVec 12) : State := s.setWin w.toNat { s.win w.toNat with failed := true }

/-- What R22 calls current work, block by block. -/
def State.resetWork (s : State) (u : Inst) : State :=
  match u.blk with
  | .tmu => s.tmuReset
  | .ple => s.pleReset
  | .mbx => (s.setMbx u.idx Mbx.free).zeroRegs [Reg.MBX.STATUS u.idx, Reg.MBX.REQ_STAMP u.idx]
  | .nix => s.portStops u.idx
  | .ing => s.ingReset
  | .cpm => s.cpmReset
  | .egr => { s with egr := { s.egr with store := [], sinks := [] } }.setNum Reg.EGR.STORE_FREE 4096
  | .dec =>
    let s := match s.decOf u.idx with | some j => s.failWin j.win | none => s
    (s.setDec u.idx none).setNum (Reg.DEC.CURRENT u.idx) 0
  | .lns =>
    let s := match s.lnsOf u.idx with | some j => s.failWin j.win | none => s
    (s.setLns u.idx none).setNum (Reg.LNS.CURRENT u.idx) 0
  | .tile => s.tileReset u.idx
  | .erc => { s with erc := { s.erc with reset := false } }
  | .stw => s.stewardDomainReset
  | .devctl | .sec | .pep | .scx | .dmc | .pfb | .met => s

/-- The reset of an instance completes (R21, R22). -/
def State.unitReset (s : State) (u : Inst) : State :=
  let auto := s.rbit Reg.PFB.REPAIR_CTRL 0
  let s := { s with live := s.live.filter fun l => l.unit ≠ u }
  let s := (s.resetFields u).resetHeader u
  let s := if u.blk = .pfb then s.autoOn auto else s
  (s.resetWork u).dropBeats u

/-! ### Warm reset (R37 to R39) -/

/-- The instances whose PG_CTRL.RESET acts. -/
def State.warmUnits (s : State) : List Inst :=
  [Blk.tmu, .ple, .mbx, .nix, .ing, .egr, .cpm, .scx, .dec, .lns, .tile, .pfb, .erc].flatMap fun b =>
    ((List.range (s.fuses.units b)).map fun i => (⟨b, i⟩ : Inst)).filter fun u => s.runState u != 4

/-- DEVCTL's part. -/
def State.warmDevctl (s : State) : State :=
  let s := s.setNum Reg.DEVCTL.SCRATCH 0
  let s := [Reg.DEVCTL.PAIR_CFG, Reg.DEVCTL.HB_MAC_LO, Reg.DEVCTL.HB_MAC_HI, Reg.DEVCTL.HB_VLAN, Reg.DEVCTL.HB_PHASE,
    Reg.DEVCTL.PRIMACY_TERM_REQ].foldl (fun s a => s.setReg a (resetOf a)) s
  let s := s.setFld Reg.DEVCTL.PRIMACY 31 30 0
  { s with pair := { s.pair with due := none } }

/-- PEP's part: rings to DISABLED, fences to their reset values, ATTN_STATUS clear, INTA deasserted; its reads are
forgotten, so that late completions are discarded. -/
def State.warmPep (s : State) : State :=
  let s := s.liveRings.foldl (fun s r => (s.setRing r 0).clrBit (Reg.RING.CFG r) 31) s
  let s := { s with regs := s.regs.filter fun e => !decide (0x3000000 ≤ e.1 ∧ e.1 < 0x3080000),
                    pep := { s.pep with fences := [], fenceOwed := [], idxOwed := [], uploads := [] } }
  let s := s.dropReads fun _ => true
  ((s.setNum Reg.PEP.ATTN_STATUS 0).updInta).dropBeats U.pep

/-- The warm reset completes: every instance as R39 lists. -/
def State.warmDone (s : State) : State :=
  let s := s.warmUnits.foldl State.unitReset s
  let s := s.warmDevctl.warmPep.stewardDomainReset
  { s with power := { s.power with warm := false } }

end Sys2Proof.Machine
end

