-- ==== Sys2Proof/Machine/Checks.lean ====
section
/-!
DEFINITION. The mirror-column checks, retry, flags and row repair (10_mirror_column_and_repair): SUM_CHECK_VERDICT,
DUP_CHECK_VERDICT, LOAD_CHECK_VERDICT, TRANS_DECAY, REPAIR, MIRROR_INJ, REPAIR_REQ.
-/
namespace Sys2Proof.Machine

/-! ### Verdicts (R263 to R267) -/

/-- A verdict that a command brings, with what upset the array: those that come before it are taken first with nothing upset
(R266). Nothing happens when it is not one that is still due (log 164). -/
def onVerdict (s : State) (t : BitVec 7) (c : CheckAt) (f : State → Nat → TileProg → State) : Res :=
  let t := t.toNat
  onFlight s t 1 fun s p _ =>
    let u := State.takeChecks t p (some c) (s.checksLeft t) s
    if u.nextCheck t = some c then (f u t p).showOp t else s

/-- SUM_CHECK_VERDICT (R262, R263). -/
def execSumCheckVerdict (t : BitVec 7) (pass vec : BitVec 32) (u : ColUpset) (s : State) : Res :=
  onVerdict s t (0, pass.toNat, vec.toNat) fun s t p => s.takeVector t p (0, pass.toNat, vec.toNat) u

/-- DUP_CHECK_VERDICT (R264). -/
def execDupCheckVerdict (t : BitVec 7) (pass vec : BitVec 32) (u : ColUpset) (s : State) : Res :=
  onVerdict s t (2, pass.toNat, vec.toNat) fun s t p => s.takeVector t p (2, pass.toNat, vec.toNat) u

/-- LOAD_CHECK_VERDICT (R265, R267). -/
def execLoadCheckVerdict (t : BitVec 7) (pass : BitVec 32) (u : LoadUpset) (s : State) : Res :=
  onVerdict s t (1, pass.toNat, 0) fun s t p => s.takeLoad t p (1, pass.toNat, 0) u

/-! ### Boundary work (R273, R276, Table 10.4) -/

/-- The phase is that of the boundary of the epoch in progress. -/
def State.atBoundary (s : State) : Bool := s.ticking && s.clock.phase == 0

/-- A tile's TRANS_LEVEL at a boundary (R273): a level that is not 0 decreases by 1, once, at a boundary whose count is a
multiple of TRANS_DECAY, 0 treated as 1. -/
def State.decayTile (s : State) (t : Nat) : State :=
  let x := s.tileOf t
  let every := Nat.max 1 (s.rfld (Reg.TILE.RETRY_CFG t) 31 16)
  let level := s.rfld (Reg.TILE.TRANS_LEVEL t) 7 0
  s.when (level != 0 && s.clock.epoch.toNat % every == 0 && x.decayed != some s.clock.epoch) fun s =>
    (s.setTile t { x with decayed := some s.clock.epoch }).setNum (Reg.TILE.TRANS_LEVEL t) (level - 1)

/-- Every tile's that has one. -/
def State.decayAll (s : State) : State :=
  ((List.range (s.fuses.units .tile)).filter fun t => s.rfld (Reg.TILE.TRANS_LEVEL t) 7 0 != 0).foldl State.decayTile s

/-- TRANS_DECAY (R273, R456): the boundary's own work; EPOCH_BOUNDARY has done it for the epoch it starts (log 85). -/
def execTransDecay (t : BitVec 7) (s : State) : Res :=
  onUnit s (U.tile t.toNat) fun s => s.when s.atBoundary fun s => s.decayTile t.toNat

/-- The boundary at which a flag or a change of AUTO acts: E + 1, or E + 2 past phase 0xFC_0000 (R276). -/
def dueAt (e p : Nat) : Nat := if p ≤ 0xFC0000 then e + 1 else e + 2

/-- The boundary at which a tile's flag is acted on; a flag that AUTO 0 held back waits for the first boundary 2^18 pu
after AUTO is 1 again (R276). -/
def State.flagDue (s : State) (t : Nat) : Option Nat :=
  if s.flagged t ∧ s.runState (U.tile t) ≠ 4 then
    (s.tileOf t).flagEpoch.map fun e =>
      let d := dueAt e.toNat (s.rfld (Reg.TILE.SUSPECT t) 23 0)
      match s.fabric.autoFrom with
      | some (ae, ap) => if d ≤ ae.toNat then dueAt ae.toNat ap.toNat else d
      | none => d
  else none

/-- The flag of a tile acts at the boundary of epoch e. -/
def State.flagActs (s : State) (e t : Nat) : Bool := match s.flagDue t with | some d => decide (d ≤ e) | none => false

/-- A tile is retired by row-shift repair: its state, PFB's REPAIRED and REPAIR_EPOCH. -/
def State.retireTile (s : State) (t : Nat) : State :=
  let s := s.setRun (U.tile t) 4
  let s := { s with live := s.live.filter fun l => l.unit ≠ U.tile t,
                    stw := { s.stw with retired := s.stw.retired ++ [t] } }
  let s := s.setReg64 Reg.PFB.REPAIR_EPOCH_LO Reg.PFB.REPAIR_EPOCH_HI s.clock.epoch.toNat
  s.raise U.pfb 9

/-- Change a row. -/
def State.setRow (s : State) (r : Nat) (x : RepairRow) : State :=
  { s with fabric := { s.fabric with rows := modAt s.fabric.rows r fun _ => x } }

/-- A row becomes BLOCKED (R280). -/
def State.blockRow (s : State) (r : Nat) : State :=
  if (s.row r).blocked then s else (s.setRow r { s.row r with blocked := true }).raise U.pfb 10

/-- A spare taken into service has RUN written to 1 when it reads STOPPED (R277). -/
def State.spareRuns (s : State) (t : Nat) : State :=
  if s.runState (U.tile t) = 0 then (s.setBit (pgCtrl (U.tile t)) 0).runStarts (U.tile t) else s

/-- Of two flags the one that was raised first; at equal phase the lower column, which comes first in the list. -/
def State.flagFirst (s : State) (l : List Nat) : Option Nat :=
  let when' (t : Nat) : Nat :=
    ((s.tileOf t).flagEpoch.map BitVec.toNat).getD 0 * puMax + s.rfld (Reg.TILE.SUSPECT t) 23 0
  l.foldl (fun o t => match o with
    | none => some t
    | some u => if when' t < when' u then some t else some u) none

/-- One row at a boundary (Table 10.4). A spare whose own flag is not due yet is not taken into service either. -/
def State.repairRow (s : State) (e r : Nat) : State :=
  let x := s.row r
  let spare := 9 * r + x.gap
  let inUse := ((List.range 9).map fun c => 9 * r + c).filter fun t => t != spare && s.flagActs e t
  let bad := s.flagActs e spare || (!inUse.isEmpty && s.flagged spare)
  if x.spareFree ∧ bad then
    let s := (s.retireTile spare).setRow r { x with spareFree := false }
    if inUse.isEmpty then s else s.blockRow r
  else match s.flagFirst inUse with
    | none => s
    | some t =>
      if !x.spareFree then s.blockRow r
      else
        let s := (s.retireTile t).setRow r { x with gap := t % 9, spareFree := false }
        let s := s.spareRuns spare
        if 1 < inUse.length then s.blockRow r else s

/-- Row repair at a boundary (R276): with AUTO 1, every enabled row. -/
def State.repairRows (s : State) : State :=
  s.when s.autoRepair fun s => (List.range s.fuses.rows).foldl (fun s r => s.repairRow s.clock.epoch.toNat r) s

/-- REPAIR (R276, R456): the boundary's own work, which EPOCH_BOUNDARY has done; a flag that is due and stands then is acted
on (log 85). -/
def execRepair (s : State) : Res := onCore s fun s => s.when s.atBoundary State.repairRows

/-! ### Injection and requests (R281, R285) -/

/-- A write to MIRROR_INJ (R281): ignored with PROTOCOL while ARM reads 1; ARM 1 takes its fields from the write itself. -/
def State.writeInj (s : State) (t : Nat) (v : Word) : State :=
  if s.rbit (Reg.TILE.MIRROR_INJ t) 31 then s.protocol (U.tile t)
  else
    let s := s.writeLive (U.tile t) (Reg.TILE.MIRROR_INJ t) 0x6C00FFFF v
    if tst v 31 then
      (s.setBit (Reg.TILE.MIRROR_INJ t) 31).setTile t { s.tileOf t with
        inj := some { check := fld v 27 26, left := fld v 15 0, persist := tst v 30, noRetire := tst v 29 } }
    else s

/-- MIRROR_INJ. -/
def execMirrorInj (t : BitVec 7) (value : Word) (s : State) : Res :=
  onReg s (U.tile t.toNat) (Reg.TILE.MIRROR_INJ t.toNat) fun s => s.writeInj t.toNat value

/-- REPAIR_REQ (R285). -/
def execRepairReq (value : Word) (s : State) : Res :=
  onBus s fun s =>
    let t := fld value 6 0
    if fld value 31 24 ≠ 0xA5 ∨ 72 ≤ t ∨ !s.has (U.tile t) ∨ s.flagged t ∨ s.runState (U.tile t) = 4 then s.protocol U.pfb
    else s.flagTile t 4

end Sys2Proof.Machine
end

