-- ==== Sys2Proof/Machine/Dec.lean ====
section
/-!
DEFINITION. The commands of the decode cores: DECODE_CHARGE_STOP, DECODE_ELAPSED_ABANDON, DECODE_CORE_COMPLETE (R142 to
R159).
-/
namespace Sys2Proof.Machine

/-- The job of a core that is able to work, with its window's picture. -/
def State.decAt (s : State) (n : Nat) : Option (DecJob × PlanWindow × PicRun) :=
  if 3 ≤ s.runState (U.dec n) then none
  else match s.decOf n with
    | none => none
    | some j => match s.planWin j.win.toNat, (s.win j.win.toNat).pic with
      | some e, some q => some (j, e, q)
      | _, _ => none

/-- Change the picture of a window. -/
def State.setPic (s : State) (w : Nat) (q : PicRun) : State := s.setWin w { s.win w with pic := some q }

/-- DECODE_CHARGE_STOP (R144): the core's charge exceeds CYCLES while units of its own remain; it stops, the picture is
abandoned, and ingress is asked for a PLI. -/
def execDecodeChargeStop (core : BitVec 5) (s : State) : Res :=
  onUnit s (U.dec core.toNat) fun s =>
    let n := core.toNat
    match s.decAt n with
    | none => s
    | some (j, e, q) =>
      if !j.overrun ∨ j.stopped ∨ j.done then s
      else
        let w := j.win.toNat
        let s := s.setDec n (some { j with stopped := true })
        ((s.setPic w { q with abandoned := true }).flagWin w (bit1 5)).pli e.stream

/-- DECODE_ELAPSED_ABANDON (R144, R145): every core of the picture stops; how many units each had reconstructed by then
depends on timing, so it is a free value for each partition of a core that had not finished. -/
def execDecodeElapsedAbandon (core : BitVec 5) (s : State) : Res :=
  onUnit s (U.dec core.toNat) fun s =>
    match s.decAt core.toNat with
    | none => s
    | some (j, e, q) =>
      if j.done ∨ q.elapsed then s
      else
        let w := j.win.toNat
        let jobs := s.decJobs w
        let busy := (jobs.filter fun x => !x.2.done).map fun x => x.2.part
        let r := (q.units.zip q.owner).foldl (fun (a : List Nat × State) x =>
          if busy.contains x.2 then (a.1 ++ [(a.2.freeBits 32).toNat % (x.1 + 1)], a.2.drawn) else (a.1 ++ [x.1], a.2)) ([], s)
        let s := r.2.setPic w { q with units := r.1, abandoned := true, elapsed := true }
        let s := jobs.foldl (fun s x =>
          let s := ((s.raise (U.dec x.1) 9 (s.evWin w)).incW (Reg.DEC.ABANDONED x.1)).raise (U.dec x.1) 13 (s.evWin w)
          s.setDec x.1 (some { x.2 with stopped := true })) s
        (s.flagWin w (bit1 5)).pli e.stream

/-- LAST_CHARGE, LAST_ELAPSED and MAX_RATIO of a core (Table 5.13). -/
def State.noteCharge (s : State) (n charge elapsed : Nat) : State :=
  let s := (s.setNum (Reg.DEC.LAST_CHARGE n) (min (2 ^ 32 - 1) charge)).setNum (Reg.DEC.LAST_ELAPSED n) elapsed
  let r := min 2047 (1000 * elapsed / charge)
  s.when (decide (s.rfld (Reg.DEC.MAX_RATIO n) 10 0 < r)) fun s => s.setNum (Reg.DEC.MAX_RATIO n) r

/-- A core's charge over the units it reconstructed, in cycles (R142). -/
def PicRun.chargeOf (q : PicRun) (part : Nat) : Nat :=
  let own := ((q.desc.partsOf q.info).zip (q.owner.zip q.units)).filter fun x => x.2.1 == part
  let kappa := kappa100 q.desc.codec q.info.profileBit
  ceilDiv (own.foldl (fun a x => ((usable x.1).take x.2.2).foldl (fun a u => a + kappa * u.area + 50 * u.bits) a)
    (ceilDiv 2000000 q.desc.k)) 100

/-- DECODE_CORE_COMPLETE (R147): the core has finished its partitions and its concealment; with the last core of the picture
the window's work is complete. -/
def execDecodeCoreComplete (core : BitVec 5) (elapsed : Word) (s : State) : Res :=
  onUnit s (U.dec core.toNat) fun s =>
    let n := core.toNat
    match s.decAt n with
    | none => s
    | some (j, _, q) =>
      if j.done ∨ (j.overrun ∧ !j.stopped) then s
      else
        let s := s.setDec n (some { j with done := true, elapsed := elapsed.toNat })
        s.noteCharge n (q.chargeOf j.part) elapsed.toNat

end Sys2Proof.Machine
end

