-- ==== Sys2Proof/Machine/DramPorts.lean ====
section
/-!
DEFINITION. Requests at the ports of the DRAM controllers (R317 to R322, R332, R459): the read queues and the choice of the
next beat, requests that are held, and the accesses of BAR2 (R342).
-/
namespace Sys2Proof.Machine

/-! ### The choice of the next read (R322) -/

/-- PORT_PRIO of a requester. -/
def Dmc.prioOf (d : Dmc) (u : Inst) : Nat := fld d.prio (3 * portOf u + 2) (3 * portOf u)

/-- The row of a block is open in the rank that it is read from. -/
def State.rowHit (s : State) (blk : Nat) : Bool :=
  let x := s.spot (blk * 64)
  let br := bankRow x.r
  (s.dmcOf x.ctl).openRow.get (fun _ => none) (s.readRank x * 16 + br.1) == some br.2

/-- The first of two queued beats is served before the second one, which is older: a higher priority, or a row hit in
the same one (R322). -/
def State.before (s : State) (d : Dmc) (m n : MemRead) : Bool :=
  decide (d.prioOf n.unit < d.prioOf m.unit) ||
    (d.prioOf m.unit == d.prioOf n.unit && s.rowHit m.block && !s.rowHit n.block)

/-- The beat that a channel serves next (R322): the oldest that has waited longer than AGE_LIMIT, else by priority, row hit
and age. The queue is in the order of arrival. -/
def State.nextRead (s : State) (c ch : Nat) : Option MemRead :=
  let d := s.dmcOf c
  let q := d.reads ch
  match q.find? fun m => decide (d.age < s.clock.up - m.time) with
  | some m => some m
  | none => q.foldl (fun o m => match o with
      | none => some m
      | some b => if s.before d m b then some m else some b) none

/-! ### Accepting requests -/

/-- A read beat of a unit enters the read queue of its channel; one that finds it full, or a controller that accepts nothing
yet, is held (R318, R370, R459). At or above U there is nothing to read. -/
def State.askRead (s : State) (u : Inst) (blk : Nat) : State :=
  let x := s.spot (blk * 64)
  let ch := s.readRank x / 2
  let q := (s.dmcOf x.ctl).reads ch
  if s.beyond blk then s
  else if !s.memReady x.ctl ∨ 64 ≤ q.length then s.holdReq (.read u blk)
  else s.setReads x.ctl ch (q ++ [{ unit := u, block := blk, time := s.clock.up, drop := false }])

/-- The blocks of a request of `n` blocks (R317): those that lie in the granule of the first. -/
def requestBlocks (addr n : Nat) : List Nat := (List.range (min n (4 - addr / 64 % 4))).map fun i => addr / 64 + i

/-- The beats of a read request (R317). -/
def State.askReq (s : State) (r : DramReq) : State :=
  (requestBlocks r.addr.toNat (r.more.toNat + 1)).foldl (fun s b => s.askRead r.unit b) s

/-- A BAR2 access is served (R313, R314, R341, R342, R359): a read answers with a completion, poisoned when a block is; the
part that reaches U or beyond reads zero, ignores writes and is recorded. -/
def State.bar2Serve (s : State) (off : BitVec 37) (acc : Bar2Acc) : State :=
  let o := off.toNat
  let a := s.bar2Base + o
  match acc with
  | .read len =>
    let k := s.bar2Inside o len
    let d := s.readMemZ a k ++ List.replicate (len - k) 0
    let p := s.poisoned a k
    let s := s.readBeats U.pep a k
    (if k < len then s.bar2Beyond (o + k) else s).emit (.completion d p)
  | .write data en bad =>
    let k := s.bar2Inside o data.length
    let s := s.writeBytes U.pep a (data.take k) en bad
    if k < data.length then s.bar2Beyond (o + k) else s

/-- Bytes of an access. -/
def accLen : Bar2Acc → Nat
  | .read n => n
  | .write d _ _ => d.length

/-- The access is a poisoned write. -/
def accBad : Bar2Acc → Bool
  | .read _ => false
  | .write _ _ bad => bad

/-- Every controller that a BAR2 access touches accepts requests. -/
def State.bar2Ready (s : State) (off : BitVec 37) (acc : Bar2Acc) : Bool :=
  (blocksOf (s.bar2Base + off.toNat) (s.bar2Inside off.toNat (accLen acc))).all fun b => s.memReady (s.spot (b * 64)).ctl

/-- A BAR2 access: served, or held (R370, R459). -/
def State.bar2 (s : State) (off : BitVec 37) (acc : Bar2Acc) : State :=
  if s.bar2Ready off acc then s.bar2Serve off acc else s.holdReq (.bar2 off acc)

/-- A BAR2 access arrives (R341, R342, R359): one inside BAR2 goes to device DRAM, and a poisoned write is logged. -/
def State.bar2Request (s : State) (off : BitVec 37) (acc : Bar2Acc) : State :=
  s.when (decide (off.toNat < 2 ^ s.pep.cfg.prog.bar2Log2)) fun s => (s.leaveL1.when (accBad acc) fun s => s.aerUnc 12).bar2 off acc

/-- The requests that are held are made again, in their order; those that still cannot be accepted stay held. -/
def State.serveHeld (s : State) : State :=
  let l := s.dram.held
  l.foldl (fun s r => match r with
    | .read u b => s.askRead u b
    | .write u e => s.writeBlock u e
    | .bar2 off acc => s.bar2 off acc) { s with dram := { s.dram with held := [] } }

/-! ### Serving a read -/

/-- A beat returns to its requester, or is discarded and counted (R332). -/
def State.returnBeat (s : State) (c : Nat) (m : MemRead) (r : Bytes × Bool) : State :=
  if m.drop then s.incW (Reg.DMC.DISCARD_CNT c)
  else { s with dram := { s.dram with beat := r.1, beatPoison := r.2, beatFor := some m.unit } }

/-- A channel serves its next read (R313, R320 to R322); `errs` and `fails` befall its block first. Room in the queue lets
held requests in. -/
def State.serveRead (s : State) (c ch errs fails : Nat) : State :=
  match s.nextRead c ch with
  | none => s
  | some m =>
    let x := s.spot (m.block * 64)
    let s := s.setReads c ch (((s.dmcOf c).reads ch).erase m)
    let k := blockPlace x.ctl (s.readRank x) x.r (m.block % 4)
    let s := s.setFaults k ((s.faultsAt k).1 + errs, (s.faultsAt k).2 + fails)
    let r := s.readBlock m.block
    ((s.readEffect (portOf m.unit) m.block).returnBeat c m r).serveHeld

end Sys2Proof.Machine
end

