-- ==== Sys2Proof/Machine/DmcCmd.lean ====
section
/-!
DEFINITION. The commands of the DRAM controllers (12_memory): beats, write drain, refresh, the row-hammer window,
scrub, migration, the imbalance monitor, initialisation.
-/
namespace Sys2Proof.Machine

/-! ### Read and write beats -/

/-- DRAM_READ (R313, R317, R320 to R322, R325, R327, R332, R459): requests arrive, each of one to four blocks, and a channel
serves its next beat; `errs` symbol errors and `linkFails` failing tries befall the block that it reads. -/
def execDramRead (reqs : List DramReq) (c : BitVec 4) (ch : BitVec 3) (errs linkFails : Nat) (s : State) : Res :=
  onCore s fun s => (reqs.foldl State.askReq s).serveRead c.toNat ch.toNat errs linkFails

/-- DRAM_WRITE (R317 to R319, R459): the beats of a write request of a unit enter the write queue. -/
def execDramWrite (unit : Inst) (addr : BitVec 37) (beats : List (Bytes × BitVec 64)) (s : State) : Res :=
  onCore s fun s =>
    ((requestBlocks addr.toNat beats.length).zip beats).foldl (fun s b =>
      s.writeBlock unit { block := b.1, data := sliceB b.2.1 0 64, mask := b.2.2, mark := false }) s

/-- What befalls DRAM while a controller is at work (R313, R327; log 162). -/
def State.upsets (s : State) (l : List Upset) : State := l.foldl State.upset s

/-- WRITE_DRAIN (R322): a channel that holds more than 48 entries, or has no read to serve, drains, oldest entry first, down
to 16 entries, or one entry when it holds fewer. Requests held for want of room are made again. -/
def execWriteDrain (c : BitVec 4) (ch : BitVec 3) (upsets : List Upset) (s : State) : Res :=
  onCore s fun s =>
    let s := s.upsets upsets
    let d := s.dmcOf c.toNat
    let n := (d.queue ch.toNat).length
    s.when (d.initDone && (decide (48 < n) || (d.reads ch.toNat).isEmpty)) fun s =>
      (s.drainTo c.toNat ch.toNat (min 16 (n - 1))).serveHeld

/-! ### Refresh and row hammer -/

/-- A bank pair of a rank has a queued request (R323). -/
def State.pairBusy (s : State) (c rank pair : Nat) : Bool :=
  let d := s.dmcOf c
  let here (blk : Nat) : Bool :=
    let x := s.spot (blk * 64)
    s.readRank x == rank && (bankRow x.r).1 % 8 == pair
  (d.queue (rank / 2)).any (fun e => here e.block) || (d.reads (rank / 2)).any fun m => here m.block

/-- REFRESH (R323, R324): one per-bank refresh of a bank pair, issued while the pair has no queued request and at
most 8 in advance; forced, and counted, when 8 are owed. -/
def execRefresh (c rank : BitVec 4) (pair : BitVec 3) (upsets : List Upset) (s : State) : Res :=
  onCore s fun s =>
    let s := s.upsets upsets
    let c := c.toNat
    let rank := rank.toNat
    let pair := pair.toNat
    let owed := s.owes c rank pair
    s.when ((s.dmcOf c).initDone && (decide (8 ≤ owed) || (!s.pairBusy c rank pair && decide (-8 < owed)))) fun s =>
      s.refreshPair c rank pair

/-- REFRESH_RATE_POLL (R323, R324): the rate that the stack reports is applied; beyond 4× sets TEMP_HIGH. -/
def execRefreshRatePoll (c : BitVec 4) (rate : BitVec 2) (s : State) : Res :=
  onCore s fun s =>
    let c := c.toNat
    let keys := (List.range 16).flatMap fun r => (List.range 8).map fun p => (r, p)
    let s := keys.foldl (fun s k => s.settle c k.1 k.2 (s.owes c k.1 k.2)) s
    let s := s.setFld (Reg.DMC.REFRESH_STATUS c) 1 0 rate.toNat
    if rate = 3 then s.raise (U.dmc c) 15 else s

/-- HAMMER_WINDOW_RESET (R325): every activate count of the controller returns to 0. -/
def execHammerWindowReset (c : BitVec 4) (s : State) : Res :=
  onCore s fun s =>
    let d := s.dmcOf c.toNat
    s.setDmc c.toNat { d with hammer := d.hammer.map fun e => (e.1, e.2.map fun r => (r.1, 0)) }

/-! ### Scrub and migration -/

/-- The logical rank that maps to physical rank p; a migration target has its source's. -/
def State.logicalRank (s : State) (c p : Nat) : Option Nat :=
  let src := if s.rankState c p = 3 then s.rfld (Reg.DMC.MIG_STATUS c) 27 24 else p
  (List.range s.dram.na).find? fun q => s.rankMap c q == src

/-- The device block at block `b` of physical rank p, if the mapping gives one. -/
def State.deviceBlock (s : State) (c p b : Nat) : Option Nat :=
  (s.logicalRank c p).map fun q => unmapGranule s.dram.seed s.dram.na { ctl := c, q := q, r := b / 4 } * 4 + b % 4

/-- SCRUB_READ (R316, Table 12.2): a paced scrub read of one block of a rank in service, migrating or spare. It
returns no data; a spare holds no device block, so its LAST_UE address is a free value. -/
def execScrubRead (c rank : BitVec 4) (block : BitVec 23) (errs : Nat) (s : State) : Res :=
  onCore s fun s =>
    let c := c.toNat
    let p := rank.toNat
    let b := block.toNat
    s.when ((s.dmcOf c).initDone && decide ((s.dmcOf c).hours ≠ 0) && decide (b < 4 * rankGranules) &&
        decide (s.rankState c p ≠ 4)) fun s =>
      let k := blockPlace c p (b / 4) (b % 4)
      let s := s.setFaults k ((s.faultsAt k).1 + errs, (s.faultsAt k).2)
      let t := s.beatTo c p (b / 4) (b % 4)
      let s := t.2
      let e := (s.faultsAt k).1
      if t.1 then s.rankFault c p
      else if s.dram.poison.get noPoison k then s.incS (Reg.DMC.POISON_READ_CNT c)
      else if e = 0 then s
      else if e = 1 then
        let s := (s.countCe c).setFaults k (0, 0)
        match s.deviceBlock c p b with
        | some blk => s.when (s.queued blk).isNone fun s =>
            s.enqueueWrite { block := blk, data := s.stored blk, mask := fullMask, mark := false }
        | none => s
      else
        let (blk, s) := match s.deviceBlock c p b with
          | some blk => (blk, s)
          | none => ((s.freeBits 31).toNat, s.drawn)
        let s := (s.countUe c p blk).setFaults k (0, 0)
        let s := { s with dram := { s.dram with poison := s.dram.poison.set noPoison k true } }
        s.rankFault c p

/-- Copy block `i` (0 to 59) of a segment from rank `f` to rank `t` with its marker (R329, Table 12.2): the source is read with
ECC correction, and a corrected block is rewritten; one that reads uncorrectable, or whose beat is confirmed bad, is
written with the marker set, there and at the source, and counts without a further fault. The target's block has fresh
ECC; an error confirmed at it faults the target. -/
def State.copyBlock (s : State) (c f t seg : Nat) (i : Nat) : State :=
  let r := seg * 15 + i / 4
  let kf := blockPlace c f r (i % 4)
  let kt := blockPlace c t r (i % 4)
  let src := s.dram.cells.getRange dram0 (bytePlace c f r (i % 4 * 64)) 64
  let mark := s.dram.poison.get noPoison kf
  let errs := (s.faultsAt kf).1
  let a := s.beatTo c f r (i % 4)
  let b := a.2.beatTo c t r (i % 4)
  let s := b.2
  let ue := !mark && decide (2 ≤ errs)
  let s := if mark then s.incS (Reg.DMC.POISON_READ_CNT c)
    else if errs = 1 then s.countCe c
    else if ue then
      match s.deviceBlock c f (r * 4 + i % 4) with
      | some blk => s.countUe c f blk
      | none => (s.incS (Reg.DMC.UE_CNT c)).raise (U.dmc c) 9
    else s
  let bad := mark || ue || a.1
  let s := (s.setFaults kf (0, 0)).setFaults kt (0, 0)
  let s := { s with dram := { s.dram with
      cells := s.dram.cells.setRange dram0 (bytePlace c t r (i % 4 * 64)) src,
      poison := (s.dram.poison.set noPoison kf (mark || ue)).set noPoison kt (bad || b.1) } }
  if b.1 then s.rankFault c t else s

/-- Segments of a rank (R311, R312). -/
def rankSegments : Nat := rankGranules / 15

/-- MIGRATION_COMMIT (R330): the target takes the source's place in RANK_MAP, the source is RETIRED. The queued requests of the
logical rank move, in their order, to the channel of its new rank: no beat is lost. -/
def State.migCommit (s : State) (c f t : Nat) : State :=
  let q := ((List.range 16).find? fun q => s.rankMap c q == f).getD 0
  let mine (blk : Nat) : Bool := (s.spot (blk * 64)).q == q
  let w := ((s.dmcOf c).queue (f / 2)).filter fun e => mine e.block
  let r := ((s.dmcOf c).reads (f / 2)).filter fun m => mine m.block
  let s := s.setQueue c (f / 2) (((s.dmcOf c).queue (f / 2)).filter fun e => !mine e.block)
  let s := s.setReads c (f / 2) (((s.dmcOf c).reads (f / 2)).filter fun m => !mine m.block)
  let s := s.setNib (Reg.DMC.RANK_MAP_LO c) (Reg.DMC.RANK_MAP_HI c) q t
  let s := (s.setRankState c f 4).setRankState c t 0
  let s := s.setFld (Reg.DMC.MIG_STATUS c) 31 30 2
  let s := s.setNum (Reg.DMC.MIG_TIME c) ((s.clock.up - (s.dmcOf c).migTime) / 1000)
  let s := w.foldl State.enqueueWrite (s.raise (U.dmc c) 12)
  s.setReads c (t / 2) ((s.dmcOf c).reads (t / 2) ++ r)

/-- MIGRATION_SEGMENT_COPY (R329, R330): one segment is copied; a fault of the target aborts the migration (Table
12.5); after the last segment the migration commits. -/
def execMigrationSegmentCopy (c : BitVec 4) (upsets : List Upset) (dstFail : Bool) (s : State) : Res :=
  onCore s fun s =>
    let s := s.upsets upsets
    let c := c.toNat
    let st := Reg.DMC.MIG_STATUS c
    s.when (s.migrating c) fun s =>
      let f := s.rfld st 27 24
      let t := s.rfld st 23 20
      let seg := s.rfld st 17 0
      if dstFail then s.rankFault c t
      else
        let s := (List.range 60).foldl (fun s i => s.when (s.migrating c) fun s => s.copyBlock c f t seg i) s
        s.when (s.migrating c) fun s =>
          if seg + 1 < rankSegments then s.setFld st 17 0 (seg + 1) else s.migCommit c f t

/-! ### Imbalance monitor and initialisation -/

/-- The index of the largest entry, the lowest on a tie. -/
def argMax (l : List Nat) : Nat := l.findIdx fun x => x == l.foldl Nat.max 0

/-- More than 1.5 × the mean of `n` members with sum `sum`, the mean at or above 1,024 × MIN_LOAD (R333). -/
def tooHigh (x sum n minLoad : Nat) : Bool := decide (3 * sum < 2 * n * x) && decide (1024 * minLoad * n ≤ sum)

/-- Load ÷ mean, per mille, saturating (Table 12.8, BAL_STATUS.RATIO). -/
def ratioPm (x sum n : Nat) : Nat := if sum = 0 then 0 else min 0xFFFF (x * n * 1000 / sum)

/-- Beats of controller c's channels since the last interval ended. -/
def State.chanLoads (s : State) (c : Nat) : List Nat :=
  (List.range 8).map fun i => (s.dmcOf c).chanBeats.get (fun _ => 0) i

/-- Its total. -/
def State.ctlLoad (s : State) (c : Nat) : Nat := (s.chanLoads c).foldl (· + ·) 0

/-- The end of a 1 ms interval at one controller, with the beats `all` of the sixteen in that interval (R333). -/
def State.balance (s : State) (all c : Nat) : State :=
  let d := s.dmcOf c
  let ch := s.chanLoads c
  let total := s.ctlLoad c
  let s := s.setNum (Reg.DMC.CTRL_LOAD c) total
  let s := (List.range 8).foldl (fun s i => s.setNum (Reg.DMC.CHAN_LOAD c i) (ch.getD i 0)) s
  let minL := s.rfld (Reg.DMC.BAL_CFG c) 15 0
  let lim := Nat.max 1 (s.rfld (Reg.DMC.BAL_CFG c) 31 16)
  let top := argMax ch
  let overCh := tooHigh (ch.getD top 0) total 8 minL
  let overCtl := tooHigh total all 16 minL
  let kCh := if overCh then d.streakChan + 1 else 0
  let kCtl := if overCtl then d.streakCtl + 1 else 0
  let port (f : Nat → Nat) := argMax ((List.range 8).map f)
  let ofCh (p : Nat) := d.portBeats.get (fun _ => 0) (top * 8 + p)
  let ofCtl (p : Nat) := (List.range 8).foldl (fun a i => a + d.portBeats.get (fun _ => 0) (i * 8 + p)) 0
  let warnCh := decide (lim ≤ kCh)
  let warnCtl := !warnCh && decide (lim ≤ kCtl)
  let s := s.setDmc c { d with chanBeats := [], portBeats := [],
                               streakChan := if warnCh then 0 else kCh,
                               streakCtl := if warnCtl then 0 else kCtl }
  if warnCh then
    (s.setNum (Reg.DMC.BAL_STATUS c)
      (2 ^ 31 + top * 2 ^ 24 + port ofCh * 2 ^ 20 + ratioPm (ch.getD top 0) total 8)).raise (U.dmc c) 14
  else if warnCtl then
    (s.setNum (Reg.DMC.BAL_STATUS c) (2 ^ 31 + 2 ^ 30 + port ofCtl * 2 ^ 20 + ratioPm total all 16)).raise (U.dmc c) 14
  else s

/-- BAL_INTERVAL (R333): a 1 ms interval ends at every controller. -/
def execBalInterval (s : State) : Res :=
  onCore s fun s =>
    let all := (List.range 16).foldl (fun a c => a + s.ctlLoad c) 0
    (List.range 16).foldl (fun s c => s.balance all c) s

/-- The places of one controller. -/
def ofCtl (c : Nat) (unit : Nat) (k : Nat) : Bool :=
  decide (c * 16 * rankGranules * unit ≤ k ∧ k < (c + 1) * 16 * rankGranules * unit)

/-- DRAM_INIT_DONE (R331, R337, R459): every rank that initialises reads zeros with valid ECC and clear markers; the
controller leaves STOPPED by itself with RUN reading 1 and takes up its settings, and serves the requests it held. A
failed rank is kept for SEAL. -/
def execDramInitDone (c : BitVec 4) (failed : BitVec 16) (s : State) : Res :=
  onCore s fun s =>
    let c := c.toNat
    s.when (!(s.dmcOf c).initDone) fun s =>
      let s := { s with dram := { s.dram with
          cells := s.dram.cells.filter fun e => !ofCtl c 256 e.1,
          poison := s.dram.poison.filter fun e => !ofCtl c 4 e.1,
          faults := s.dram.faults.filter fun e => !ofCtl c 4 e.1 } }
      let s := s.setDmc c { s.dmcOf c with initDone := true, badRanks := maskList failed.toNat 16, since := s.clock.up,
                                           owed := [] }
      let s := if s.runState (U.dmc c) = 0 then (s.runStarts (U.dmc c)).setBit (pgCtrl (U.dmc c)) 0 else s
      s.serveHeld

end Sys2Proof.Machine
end

