-- ==== Sys2Proof/Machine/PleOps.lean ====
section
/-!
DEFINITION. The life of a window (R27, R61 to R69, Table 2.4): opening, readiness, firing, completion, skipping, forcing,
its record and its close; and the passing of phases, with the window events that fall due in them in the order of R456.
-/
namespace Sys2Proof.Machine

/-! ### Readiness (R27, R62) -/

/-- Every instance that a window names is RUNNING (R27, R261). -/
def State.unitsRun (s : State) (e : PlanWindow) : Bool := (s.needs e).all fun u => s.running u

/-- The access unit of a window's frame slot: capture epoch e − LAG, frame index SUB (R62). -/
def State.auFor (s : State) (e : PlanWindow) (a : AccessUnit) : Bool :=
  a.epoch == s.clock.epoch - BitVec.ofNat 40 e.lag && a.sub.toNat == e.sub

/-- It is complete: ingress holds it, or a window of this epoch has consumed it. -/
def State.auReady (s : State) (p : Plan) (e : PlanWindow) : Bool :=
  (s.scxOf e.stream).aus.any (s.auFor e) ||
  (List.range p.windows.length).any fun v => match p.windows[v]?, (s.win v).au with
    | some f, some a => f.stream == e.stream && s.auFor e a
    | _, _ => false

/-- A window's input is ready (R62). -/
def State.inputReady (s : State) (p : Plan) (e : PlanWindow) : Bool :=
  e.deps.all (fun d => (s.win d).went .done) && (!e.srcFrame || s.auReady p e)

/-- The window fires now (R27, R61, R63). -/
def State.fires (s : State) (p : Plan) (w : Nat) (e : PlanWindow) : Bool :=
  let r := s.win w
  r.st == .open && !r.blocked && s.unitsRun e && s.inputReady p e && decide (s.clock.phase.toNat ≤ e.latest)

/-- Everything a fired window does is complete (R61): its cores, its engines, or its tiles with their swap-out. -/
def State.workDone (s : State) (w : Nat) (e : PlanWindow) : Bool :=
  match e.kind with
  | 0 => !(s.win w).failed && (s.decJobs w).all fun x => x.2.done
  | 1 => !(s.win w).failed && (s.lnsJobs w).all fun x => x.2.done
  | 2 => s.tilesDone w e
  | _ => true

/-! ### Closing (Table 2.4, R68, R69, R295) -/

/-- The stream gets a record of this window (R69). -/
def State.recordDue (s : State) (e : PlanWindow) : Bool :=
  e.emit && s.running U.ple && decide (2 ≤ s.streamState e.stream)

/-- A window that has nothing left to hand over and no unit aborting closes. -/
def State.tryClose (s : State) (w : Nat) (e : PlanWindow) : State :=
  let r := s.win w
  if (r.st = .done ∨ r.st = .skipped ∨ r.st = .forced) ∧ (r.handed ∨ !s.recordDue e) ∧ r.left.isEmpty then s.closeWin w e else s

/-- A window goes to SKIPPED (R61, R64). -/
def State.skipWin (s : State) (w : Nat) (e : PlanWindow) : State :=
  let s := s.setWin w { s.win w with st := .skipped }
  let s := (s.incW Reg.PLE.SKIPPED_CNT).raise U.ple 10 (s.evWin w)
  let s := if e.kind = 1 then s.lensAbort w else s
  s.tryClose w e

/-- Windows that have not fired and depend on one that went to SKIPPED or FORCED go to SKIPPED, in index order (R64). -/
def State.skipDeps (s : State) (p : Plan) : State :=
  (List.range p.windows.length).foldl (fun s v =>
    match p.windows[v]? with
    | some f =>
      let r := s.win v
      if (r.st = .waiting ∨ r.st = .open) ∧ f.deps.any (fun d => (s.win d).went .skipped || (s.win d).went .forced) then
        s.skipWin v f
      else s
    | none => s) s

/-! ### The steps of a window -/

/-- START (R27, R29, R172, R456): writes kept for the named instances take effect; a named instance that is not RUNNING
blocks the window until its DEADLINE; an engine with AUG_EN 1 starts its read. -/
def State.openWin (s : State) (p : Plan) (w : Nat) (e : PlanWindow) : State :=
  let us := s.needs e
  let s := s.applyLive fun u => us.contains u
  let s := s.setWin w { s.win w with st := .open, blocked := !s.unitsRun e }
  if e.kind = 1 then s.lensOpen p w e else s

/-- The access unit that a firing DECODE window consumes passes to the window, with its flags (R124, Table 11.3). -/
def State.takeAu (s : State) (w : Nat) (e : PlanWindow) : State × Option AccessUnit :=
  let x := s.scxOf e.stream
  match x.aus.find? (s.auFor e) with
  | some a =>
    let s := s.setScx e.stream { x with aus := x.aus.filter fun b => b != a }
    let f : Word := (if a.loss then bit1 0 else 0) ||| (if a.noMarker then bit1 1 else 0) |||
      (if a.tsJump then bit1 2 else 0) ||| (if a.frag then bit1 3 else 0)
    (s.setWin w { s.win w with au := some a, flags := (s.win w).flags ||| f }, some a)
  | none => (s, none)

/-- Completion (R61): the picture of a DECODE window is handed on with it (R134). -/
def State.doneWin (s : State) (w : Nat) (e : PlanWindow) : State :=
  let s := if e.kind = 0 then s.finishDecode w e else s
  let s := s.setWin w { s.win w with st := .done }
  (s.dropWork w e).tryClose w e

/-- Firing (R63); a DECODE window without SRC_FRAME has nothing to do and is DONE at once (R138). -/
def State.fireWin (s : State) (p : Plan) (w : Nat) (e : PlanWindow) : State :=
  let s := (s.setWin w { s.win w with st := .fired, fireAt := some s.clock.phase, fireTime := s.clock.time.toNat }).incW
    Reg.PLE.FIRED_CNT
  match e.kind with
  | 0 => if e.srcFrame then (match s.takeAu w e with | (s1, some a) => s1.fireDecode p w e a | (s1, none) => s1)
      else s.doneWin w e
  | 1 => s.fireLens p w e
  | 2 => s.fireTiles p w e
  | _ => s

/-- DEADLINE (R27, R32, R67, R332): the window goes to FORCED; the units of a fired window abort and drop their requests, and the STOPPING ones among the
window's instances leave STOPPING. -/
def State.forceWin (s : State) (p : Plan) (w : Nat) (e : PlanWindow) : State :=
  let r := s.win w
  let busy := if r.st = .fired then s.unitsOf e else []
  let s := s.setWin w { r with st := .forced, left := busy }
  let s := (s.incW Reg.PLE.FORCED_CNT).setNum Reg.PLE.LAST_FORCED (2 ^ 31 + w * 4096 + e.stream)
  let s := busy.foldl State.dropBeats (((s.raise U.ple 9 (s.evWin w)).dropWork w e).releaseUnits e)
  (s.tryClose w e).skipDeps p

/-- The tile of a window whose EMITOBJ waits for EGR. -/
def State.emitter (s : State) (e : PlanWindow) : Option Nat :=
  ((maskList e.tiles 64).map s.physTile).find? fun t => (s.tileOf t).emitting

/-- A record of this window is due, and PLE has what it takes to hand it over: the window is DONE, SKIPPED or FORCED. -/
def State.handsOver (s : State) (w : Nat) (e : PlanWindow) : Bool :=
  let r := s.win w
  s.recordDue e && !r.handed && (r.st == .done || r.st == .skipped || r.st == .forced)

/-- Put a window behind those of a lower stream number (R295). -/
def byStream (x : PlanWindow × Nat) : List (PlanWindow × Nat) → List (PlanWindow × Nat)
  | [] => [x]
  | y :: l => if x.1.stream ≤ y.1.stream then x :: y :: l else y :: byStream x l

/-- The windows whose records PLE hands over now, in the order in which EGR takes them: increasing stream number (R295). -/
def State.handOver (s : State) (p : Plan) : List (PlanWindow × Nat) :=
  (p.windows.zipIdx.filter fun x => s.handsOver x.2 x.1).foldr byStream []

/-- EGR accepts one of them, and the window closes unless its units still abort. -/
def State.acceptOne (s : State) (p : Plan) (x : PlanWindow × Nat) : State := (s.acceptRecord p x.2 x.1).tryClose x.2 x.1

/-- The end of a phase unit: every record that PLE hands over in it is accepted (R68, R69, R295). -/
def State.acceptDue (s : State) (p : Plan) : State := (s.handOver p).foldl (fun s x => s.acceptOne p x) s

/-- EGR accepts the record of one window: at EMITOBJ (R256, R295), or with those that EGR takes before it in the phase unit
in which the window went to DONE, SKIPPED or FORCED. -/
def State.acceptWin (s : State) (p : Plan) (w : Nat) (e : PlanWindow) : State :=
  if (s.win w).st = .fired then
    match (if e.kind = 2 ∧ s.recordDue e ∧ !(s.win w).handed then s.emitter e else none) with
    | some t =>
      let s := ((s.stageMark t).satAhead w e).acceptRecord p w e
      (s.setTile t { s.tileOf t with emitting := false }).lookNext t
    | none => s
  else s.when (s.handsOver w e) fun s =>
    ((s.handOver p).takeWhile (fun x => x.2 != w) ++ [(e, w)]).foldl (fun s x => s.acceptOne p x) s

/-! ### Window events in their order (R61, R63, R67, R456) -/

/-- The phase of a window's next event (Table 2.4): START; for an OPEN window its DEADLINE under R27, now when it is ready,
else the phase past LATEST; for a FIRED one now when its work is complete before DEADLINE, else its DEADLINE; for an
aborting one 2^10 pu after its DEADLINE, no later than the epoch's last phase (R65, R67; log 158). -/
def State.winMoment (s : State) (p : Plan) (w : Nat) (e : PlanWindow) : Option Nat :=
  let r := s.win w
  let now := s.clock.phase.toNat
  match r.st with
  | .waiting => some (Nat.max now e.start)
  | .open => some (if r.blocked then Nat.max now e.deadline else if s.fires p w e then now else Nat.max now (e.latest + 1))
  | .fired => some (if s.workDone w e && decide (now < e.deadline) then now else Nat.max now e.deadline)
  | .forced => if r.left.isEmpty then none else some (Nat.max now (Nat.min (e.deadline + 1024) (puMax - 1)))
  | .done | .skipped | .closed => none

/-- A window's event at its moment (Table 2.4). -/
def State.winEvent (s : State) (p : Plan) (w : Nat) (e : PlanWindow) (m : Nat) : State :=
  let s := s.toPhase m
  let r := s.win w
  match r.st with
  | .waiting => s.openWin p w e
  | .open => if r.blocked then s.forceWin p w e
      else if s.fires p w e then s.fireWin p w e
      else (s.skipWin w e).skipDeps p
  | .fired => if s.workDone w e ∧ s.clock.phase.toNat < e.deadline then s.doneWin w e else s.forceWin p w e
  | .forced => (s.setWin w { r with left := [] }).tryClose w e
  | .done | .skipped | .closed => s

/-- The order of window events (R456): by phase unit, then by window index. -/
def eventKey (m w : Nat) : Nat := 4096 * m + w

/-- The window event that comes first. -/
def State.nextEvent (s : State) (p : Plan) : Option (Nat × Nat × PlanWindow) :=
  p.windows.zipIdx.foldl (fun o x =>
    match s.winMoment p x.2 x.1, o with
    | none, o => o
    | some m, none => some (m, x.2, x.1)
    | some m, some b => if eventKey m x.2 < eventKey b.1 b.2.1 then some (m, x.2, x.1) else some b) none

/-- PLE executes its plan: it is RUNNING and epochs advance. -/
def State.planRuns (s : State) : Bool := s.running U.ple && s.ticking

/-- The window events that come before a key happen, in their order; before the clock leaves a phase unit, EGR has accepted
the records handed over in it (R68). The first argument bounds the number of events. -/
def State.runEvents (p : Plan) : Nat → Nat → State → State
  | 0, _, s => s
  | n + 1, key, s =>
    if !s.planRuns then s
    else match s.nextEvent p with
      | some (m, w, e) =>
        if eventKey m w < key then
          let s := if s.clock.phase.toNat < m then s.acceptDue p else s
          State.runEvents p n key (s.winEvent p w e m)
        else if s.clock.phase.toNat < key / 4096 then s.acceptDue p else s
      | none => if s.clock.phase.toNat < key / 4096 then s.acceptDue p else s

/-- Every window has at most four events left (Table 2.4). -/
def State.runBefore (s : State) (key : Nat) : State :=
  match s.ple.plan with
  | none => s
  | some p => State.runEvents p (5 * p.windows.length + 1) key s

/-- The clock moves as `f` says, and what falls due in the phases that it leaves happens on the way. -/
def State.passing (s : State) (f : State → State) : State := f (s.runBefore (eventKey (f s).clock.phase.toNat 0))

/-- Time passes until phase p of the epoch in progress. -/
def State.passPhase (s : State) (p : Nat) : State := s.passing fun s => s.toPhase p

/-- Time passes until device time t, within the epoch in progress. -/
def State.passTime (s : State) (t : Nat) : State := s.passing fun s => s.toTime t

/-- Time passes until `pu` phase units after a phase; none when that moment lies in a later epoch. -/
def State.passPu (s : State) (e : BitVec 40) (p : BitVec 24) (pu : Nat) : Option State :=
  (s.afterPu e p pu).bind fun s1 => (s.runBefore (eventKey s1.clock.phase.toNat 0)).afterPu e p pu

/-- One nanosecond of the idle device (log 1). -/
def State.tick (s : State) : State := s.passing State.tickClock

/-! ### The end of an epoch (R65, R69) -/

/-- A window that is not CLOSED when its epoch ends: an edge of acquisition has cut the epoch short (R49), and what was still
to come happens now. -/
def State.settleWin (s : State) (p : Plan) (w : Nat) (e : PlanWindow) : State :=
  let s := if (s.win w).st = .waiting then s.openWin p w e else s
  match (s.win w).st with
  | .open => if (s.win w).blocked then s.forceWin p w e else (s.skipWin w e).skipDeps p
  | .fired => if s.workDone w e then s.doneWin w e else s.forceWin p w e
  | .waiting | .done | .skipped | .forced | .closed => s

/-- The epoch ends at phase `last`: every window event up to it happens, the records still due are accepted, and every window
closes (R65, R69); with PLE not RUNNING the windows end without a record (R70). -/
def State.settleWindows (s : State) (last : Nat) : State :=
  let s := s.runBefore (eventKey (last + 1) 0)
  match s.ple.plan with
  | none => s
  | some p =>
    let s := s.when (s.running U.ple) fun s =>
      (p.windows.zipIdx.foldl (fun s x => if (s.win x.2).st = .closed then s else s.settleWin p x.2 x.1) s).acceptDue p
    s.endWindows

/-- Windows of an epoch enter WAITING (R61): those of the plan in effect that exist in it, while PLE runs. -/
def State.startWins (s : State) (e : Nat) : State :=
  let ws := match s.ple.plan with
    | some p => if s.running U.ple then p.windows.zipIdx.filterMap fun x =>
        if x.1.existsIn e then some (x.2, WinRun.waiting) else none
      else []
    | none => []
  { s with ple := { s.ple with wins := ws } }

/-- A plan takes effect (R60, R73, R74): slots, ACTIVE, ACTIVE_PLAN_ID, COMMIT_STATUS, the streams it serves or leaves. -/
def State.takePlan (s : State) (p : Plan) : State :=
  let s := match s.ple.plan with | some q => if q.slot = p.slot then s else s.setSlot q.slot 2 0 | none => s
  let s := { s with ple := { s.ple with plan := some p, next := none } }
  let s := (s.setNum Reg.PLE.ACTIVE (2 ^ 31 + p.slot)).setNum Reg.PLE.ACTIVE_PLAN_ID p.planId
  let s := s.setCommit 0
  (List.range 256).foldl (fun s n =>
    if s.streamState n = 1 ∧ p.serves n then s.enterActive n
    else if s.streamState n = 4 ∧ !p.serves n then
      let s := s.enterFree n
      { s with ple := { s.ple with stale := s.ple.stale.filter fun x => x.1 / 64 != n } }
    else s) s

/-- The plan change due at the boundary of epoch e. -/
def State.planChange (s : State) (e : Nat) : State :=
  match s.ple.next with
  | some (p, at') => if at'.toNat ≤ e then s.takePlan p else s
  | none => s

end Sys2Proof.Machine
end

