-- ==== Sys2Proof/Machine/Steward.lean ====
section
/-!
DEFINITION. The commands of boot, SEAL and the steward domain (R366 to R375, R381).
-/
namespace Sys2Proof.Machine

/-- BOOT_IMAGE_CHECK_DONE (R366 to R368): the ROM has read and checked the image of its present source; device DRAM answers once
every controller is initialised (R459). `readOk` is whether the slot could be read. -/
def execBootImageCheckDone (readOk : Bool) (s : State) : Res :=
  onCore s fun s =>
    if s.stage = 2 then
      match s.stw.hostTry with
      | none => s
      | some n => s.when ((List.range 16).all s.memReady) fun s =>
        let h := s.readMem 0 512
        let img := s.readMem 0 (min (imgSize h) 1572864)
        let c := if s.poisoned 0 (Nat.max 512 (min (imgSize h) 1572864)) then 2 else s.imageCheck h img (some n)
        let s := s.readBeats U.stw 0 (Nat.max 512 (min (imgSize h) 1572864))
        let s := { s with stw := { s.stw with hostTry := none } }
        if c = 0 then s.bootImage 2 h img
        else ({ s with stw := { s.stw with hostFailed := true } } : State).setStage 15 |>.bootFail c
    else
      s.when (s.stage == 0 && s.power.straps == 0) fun s =>
        let slot := s.stw.trySlot
        let s := s.setFld Reg.STW.BOOT_STATUS 27 26 slot
        let im := s.flashImage slot
        let c := if readOk then s.imageCheck im.1 im.2 none else 1
        if c = 0 then s.bootImage slot im.1 im.2
        else
          let s := s.bootFail c
          if slot = 0 then { s with stw := { s.stw with trySlot := 1 } } else s.setStage 1

/-- HOST_BOOT (R366, R368): in WAIT_HOST, or in FAILED after a host image failed, the ROM verifies the image at device
address 0. -/
def execHostBoot (value : Word) (s : State) : Res :=
  onBus s fun s =>
    s.when (s.stage == 1 || (s.stage == 15 && s.stw.hostFailed)) fun s =>
      let s := { s with stw := { s.stw with hostTry := some (fld value 20 0) } }
      (s.setFld Reg.STW.BOOT_STATUS 27 26 2).setStage 2

/-- SEAL (R30, R370, Table 14.4): GO 1 with every check passed starts the seal; a failed check is recorded. -/
def execSeal (value : Word) (s : State) : Res :=
  onBus s fun s =>
    if s.isSealed then s.access U.sec
    else if s.stw.sealing ∨ !tst value 0 then s
    else
      let c := s.sealCheck value
      if c = 0 then { s with stw := { s.stw with sealing := true } }
      else (s.setFld Reg.SEC.SEAL_STATUS 7 0 c).raise U.sec 9

/-- SEAL_COMPLETE (R370): once every queue has drained; the requests held meanwhile are served under the new mapping. -/
def execSealComplete (s : State) : Res :=
  onCore s fun s => s.when (s.stw.sealing && s.queuesEmpty) fun s => s.sealNow.serveHeld

/-- STEWARD_SLEEP (R373): the domain sleeps unless a wake event is pending; then firmware takes up the events that it
handles by itself (ERC, MET, TIMER, and MBX with no request PENDING), which clears them (log 30). -/
def execStewardSleep (s : State) : Res :=
  onCore s fun s =>
    s.when (!s.stw.asleep && s.stw.image.isSome) fun s =>
      if s.rfld Reg.STW.WAKE_STATUS 4 0 = 0 then { s with stw := { s.stw with asleep := true } }
      else
        (((s.clrBit Reg.STW.WAKE_STATUS 1).clrBit Reg.STW.WAKE_STATUS 3).clrBit Reg.STW.WAKE_STATUS 4).when (!s.mbxWaiting)
          fun s => s.clrBit Reg.STW.WAKE_STATUS 0

/-- STEWARD_WAKE (R373): with a wake event pending, a sleeping domain runs firmware again. -/
def execStewardWake (s : State) : Res :=
  onCore s fun s =>
    s.when (s.stw.asleep && s.rfld Reg.STW.WAKE_STATUS 4 0 != 0) fun s =>
      ({ s with stw := { s.stw with asleep := false } } : State).incW Reg.STW.WAKE_CNT

/-- WAKE_TIMER (R373, Table 14.5). -/
def execWakeTimer (s : State) : Res := onCore s fun s => s.wake 4

/-- WATCHDOG_EXPIRY (R373, R374): with the watchdog on and the domain awake. -/
def execWatchdogExpiry (s : State) : Res :=
  onCore s fun s =>
    s.when (s.rbit Reg.STW.WDT_CFG 31 && !s.stw.asleep) fun s => s.watchdogReset

/-- STEWARD_LOCKSTEP (R374): the cores disagree. -/
def execStewardLockstep (s : State) : Res :=
  onCore s fun s => s.lockstepReset

/-- STEWARD_RESET (R21, R374, R381): STW PG_CTRL.RESET. -/
def execStewardReset (s : State) : Res := onBus s fun s => s.unitReset U.stw

/-- Flash sector of the repair list (R375). -/
def repairList : Nat := 0x1000000

/-- The tiles of the repair list: one byte an index, 0xFF an unused place (log 31). -/
def State.savedRepairs (s : State) : List Nat :=
  ((s.flashRead repairList 4096).map BitVec.toNat).filter fun t => decide (t < 72)

/-- BOOT_FOLLOW_ON (R370, R375): firmware, once an image runs, reads RESET_CAUSE and logs it through ERC, flags each saved tile that is neither flagged nor
RETIRED, and sets READY. -/
def execBootFollowOn (s : State) : Res :=
  onCore s fun s =>
    s.when (s.stw.followOn && !s.stw.asleep && s.stw.image.isSome) fun s =>
      let s := { s with stw := { s.stw with followOn := false, fwLog := s.stw.fwLog ++ [s.reg Reg.DEVCTL.RESET_CAUSE] } }
      let s := s.firmwareEntry
      let s := s.savedRepairs.foldl (fun s t =>
        if s.has (U.tile t) ∧ s.runState (U.tile t) ≠ 4 ∧ !s.rbit (Reg.TILE.SUSPECT t) 31 then s.flagTile t 4 else s) s
      let s := if (List.range 16).any (fun c => s.runState (U.dmc c) == 3) then s.setFld Reg.STW.BOOT_STATUS 15 8 0x10 else s
      s.setStage 5

end Sys2Proof.Machine
end

