-- ==== Sys2Proof/Machine/Mailbox.lean ====
section
/-!
DEFINITION. The mailboxes and the steward commands that reach firmware through them (R376 to R379, R403, Tables 14.6,
15.8).
-/
namespace Sys2Proof.Machine

/-- STATUS.STATE: 0 IDLE, 1 PENDING, 2 BUSY, 3 DONE, 4 ABORTED. -/
def State.mbxState (s : State) (n : Nat) : Nat := s.rfld (Reg.MBX.STATUS n) 2 0

/-- A write by the owner restarts the second after which the lock lapses (R377; log 171). -/
def State.mbxTouch (s : State) (n : Nat) (src : Stamp) : State :=
  let m := s.mbxOf n
  if m.owner = src then s.setMbx n { m with lastWrite := s.clock.time.toNat } else s

/-- A request from this stamp in this mailbox counts as secure (R376). -/
def State.mbxSecure (s : State) (n : Nat) (src : Stamp) : Bool :=
  if s.split then decide (n < 16)
  else (List.range 4).any fun i =>
    let p := s.reg (Reg.SEC.STAMP_PRIV i)
    tst p 31 && fld p 23 0 == src.toNat

/-- MBX_LOCK_READ (R377): a free mailbox is taken; the owner reads 0, others the owner's stamp. -/
def execMbxLockRead (src : Stamp) (n : BitVec 5) (s : State) : Res :=
  onCore s fun s =>
    let n := n.toNat
    if s.power.warm then s.answer 0
    else
      let m := s.mbxOf n
      if m.owner = 0 then (s.setMbx n { m with owner := src, lastWrite := s.clock.time.toNat }).answer 0
      else if m.owner = src then s.answer 0
      else s.answer (m.owner.setWidth 32)

/-- MBX_UNLOCK (R377): RELEASE by the owner frees the mailbox; by anyone else it sets PG_ERR.PROTOCOL. -/
def execMbxUnlock (src : Stamp) (n : BitVec 5) (value : Word) (s : State) : Res :=
  onBus s fun s =>
    let n := n.toNat
    let m := s.mbxOf n
    if !tst value 0 then s.mbxTouch n src
    else if m.owner = src ∧ m.owner ≠ 0 then s.setMbx n { m with owner := 0 }
    else s.protocol (U.mbx n)

/-- MBX_LOCK_LAPSE (R377): a second after the owner's last write, with no request PENDING or BUSY. -/
def execMbxLockLapse (n : BitVec 5) (s : State) : Res :=
  onCore s fun s =>
    let n := n.toNat
    let m := s.mbxOf n
    s.when (m.owner != 0 && s.mbxState n != 1 && s.mbxState n != 2) fun s =>
      (s.passTime (m.lastWrite + 1000000000)).setMbx n { m with owner := 0 }

/-- MBX_SEND (R369, R376, R378, R379): submits REQ with the sender's stamp and wakes the steward. -/
def execMbxSend (src : Stamp) (n : BitVec 5) (s : State) : Res :=
  onBus s fun s =>
    let n := n.toNat
    let s := s.mbxTouch n src
    if !s.isSealed ∨ s.mbxBarred n src ∨ s.mbxState n ≠ 0 then s.protocol (U.mbx n)
    else
      let s := s.setNum (Reg.MBX.REQ_STAMP n) src.toNat
      (s.setNum (Reg.MBX.STATUS n) (b2n (s.mbxSecure n src) * 8 + 1)).wake 0

/-- MBX_TAKE (R379): firmware, awake, takes a PENDING request. -/
def execMbxTake (n : BitVec 5) (s : State) : Res :=
  onCore s fun s =>
    let n := n.toNat
    s.when (s.mbxState n == 1 && !s.stw.asleep) fun s =>
      let s := (s.setFld (Reg.MBX.STATUS n) 2 0 2).setMbx n { s.mbxOf n with result := none }
      s.when (!(List.range 32).any fun i => s.mbxState i == 1) fun s => s.clrBit Reg.STW.WAKE_STATUS 0

/-- Word i of the request. -/
def State.req (s : State) (n i : Nat) : Word := s.reg (Reg.MBX.REQ n i)

/-- CMD of the request. -/
def State.reqCmd (s : State) (n : Nat) : Nat := fld (s.req n 0) 31 16

/-- The command numbers of Tables 14.6 and 15.8. -/
def knownCmd (c : Nat) : Bool := [1, 2, 0x10, 0x11, 0x20, 0x21, 0x30, 0x31, 0x32].contains c

/-- MBX_REPLY (R376, R379): firmware writes the reply of the request it has served; a command of no table is UNKNOWN, and
DENIED when the request is not secure, since no table marks it any. -/
def execMbxReply (n : BitVec 5) (s : State) : Res :=
  onCore s fun s =>
    let n := n.toNat
    let m := s.mbxOf n
    let res : Option (Nat × Bytes) := if knownCmd (s.reqCmd n) then m.result
      else some (if s.rbit (Reg.MBX.STATUS n) 3 then 1 else 2, [])
    match res with
    | none => s
    | some r =>
      s.when (s.mbxState n == 2 && !s.stw.asleep) fun s =>
        let words := (List.range 63).map fun i => leAt r.2 (4 * i) 4
        let s := s.setNum (Reg.MBX.REPLY n 0) (r.1 * 2 ^ 16 + (r.2.length + 4))
        let s := (List.range 63).foldl (fun s i => s.setNum (Reg.MBX.REPLY n (i + 1)) (words.getD i 0)) s
        ((s.setFld (Reg.MBX.STATUS n) 2 0 3).setMbx n { s.mbxOf n with result := none }).attn 2

/-- MBX_ACK (R378, R379): DONE or ABORTED returns to IDLE. -/
def execMbxAck (src : Stamp) (n : BitVec 5) (s : State) : Res :=
  onBus s fun s =>
    let n := n.toNat
    if s.mbxBarred n src then s.protocol (U.mbx n)
    else (s.mbxTouch n src).when (decide (3 ≤ s.mbxState n)) fun s => s.setFld (Reg.MBX.STATUS n) 3 0 0

/-! ### Steward commands -/

/-- Firmware serves the BUSY request of a mailbox if it is command `c`: a secure command of a non-secure request is
DENIED; a length above 256 is BAD_ARGS; otherwise `f` gives the result, the reply bytes after word 0, and the state. -/
def State.serve (s : State) (n c : Nat) (any : Bool) (f : State → Nat × Bytes × State) : State :=
  s.when (s.mbxState n == 2 && s.reqCmd n == c && (s.mbxOf n).result.isNone && !s.stw.asleep) fun s =>
    if !any ∧ !s.rbit (Reg.MBX.STATUS n) 3 then s.setMbx n { s.mbxOf n with result := some (2, []) }
    else if 256 < fld (s.req n 0) 15 0 then s.setMbx n { s.mbxOf n with result := some (3, []) }
    else
      let r := f s
      r.2.2.setMbx n { r.2.2.mbxOf n with result := some (r.1, r.2.1) }

/-- Little-endian bytes of words. -/
def wordsBytes (l : List Word) : Bytes := l.flatMap fun w => leBytes 4 w.toNat

/-- PING (R379, Table 14.6): the reply repeats request words 1 to 63. -/
def execPing (n : BitVec 5) (s : State) : Res :=
  onCore s fun s => s.serve n.toNat 1 true fun s =>
    (0, wordsBytes ((List.range 63).map fun i => s.req n.toNat (i + 1)), s)

/-- STATUS (R379, Table 14.6): BOOT_STATUS, FW_VER, RESET_CAUSE, fused SVN, image SVN, one word each. -/
def execStatus (n : BitVec 5) (s : State) : Res :=
  onCore s fun s => s.serve n.toNat 2 true fun s =>
    (0, wordsBytes [s.reg Reg.STW.BOOT_STATUS, s.reg Reg.STW.FW_VER, s.reg Reg.DEVCTL.RESET_CAUSE,
      s.stw.svn.setWidth 32, (match s.stw.image with | some i => i.svn.setWidth 32 | none => 0)], s)

/-- REPAIR_SAVE (R376, Table 14.6): the tiles retired since cold reset, other than at manufacture, to the repair list. -/
def execRepairSave (n : BitVec 5) (s : State) : Res :=
  onCore s fun s => s.serve n.toNat 0x10 false fun s =>
    let l := s.stw.retired.map (BitVec.ofNat 8)
    (0, [], s.flashStore repairList (l ++ List.replicate (4096 - l.length) 0xFF))

/-- REPAIR_CLEAR (R376, Table 14.6): the repair list is erased. -/
def execRepairClear (n : BitVec 5) (s : State) : Res :=
  onCore s fun s => s.serve n.toNat 0x11 false fun s => (0, [], s.flashStore repairList (List.replicate 4096 0xFF))

/-- FLASH_WRITE (R376, Table 14.6): an image at device address words 1 and 2, length word 3, is verified and written
into the slot not booted from; after a host boot that is slot A (log 32). -/
def execFlashWrite (n : BitVec 5) (s : State) : Res :=
  onCore s fun s => s.serve n.toNat 0x20 false fun s =>
    let a := (s.req n.toNat 1).toNat + 2 ^ 32 * (s.req n.toNat 2).toNat
    let len := (s.req n.toNat 3).toNat
    let h := s.readMem a 512
    let img := s.readMem a (min len 1572864)
    let bad := decide (s.usable < a + len) || s.poisoned a (min len 1572864) || s.imageCheck h img (some len) != 0
    let s := s.readBeats U.stw a (min len 1572864)
    if bad then (4, [], s)
    else
      let slot := match s.stw.image with | some i => if i.slot = 0 then 1 else 0 | none => 0
      (0, [], s.flashStore (flashSlot slot) img)

/-- SVN_COMMIT (R376, Table 14.6): the fused SVN rises to the running image's. -/
def execSvnCommit (n : BitVec 5) (s : State) : Res :=
  onCore s fun s => s.serve n.toNat 0x21 false fun s =>
    match s.stw.image with
    | some i => (0, [], if s.stw.svn.toNat < i.svn.toNat then { s with stw := { s.stw with svn := i.svn } } else s)
    | none => (4, [], s)

end Sys2Proof.Machine
end

