-- ==== Sys2Proof/Machine/Dump.lean ====
section
/-!
DEFINITION. The fatal-error dump (15_errors, R392, R396 to R403): DUMP_WRITE, DUMP_COMPLETE, DUMP_TIMEOUT, DUMP_CTRL_REARM,
DUMP_WINDOW_READ and the steward commands of Table 15.8.
-/
namespace Sys2Proof.Machine

/-! ### Media (R397, R402) -/

/-- The DRAM region serves: DUMP_CFG.EN is 1 and every DMC reads RUNNING or STOPPED. -/
def State.dumpToDram (s : State) : Bool :=
  s.rbit Reg.SEC.DUMP_CFG 31 && (List.range 16).all fun c => decide (s.runState (U.dmc c) ≤ 1)

/-- Device address of the region. -/
def State.dumpBase (s : State) : Nat := s.rfld Reg.SEC.DUMP_CFG 8 0 * 2 ^ 28

/-- The unretired physical tiles of row 0, in increasing column order. -/
def State.fallbackTiles (s : State) : List Nat := (List.range 9).filter fun t => s.runState (U.tile t) != 4

/-- Write bytes at an offset of the fallback medium. -/
def State.fallbackWr (s : State) : List Nat → Bytes → State
  | [], _ => s
  | t :: ts, d => State.fallbackWr (s.tileWr t 0 (d.take storeSize)) ts (d.drop storeSize)

/-- A byte of the fallback medium, zero beyond its end. -/
def State.fallbackRd (s : State) (tiles : List Nat) (o : Nat) : Byte :=
  match tiles[o / storeSize]? with
  | some t => (s.tileRd t (o % storeSize) 1).headD 0
  | none => 0

/-- The dump's bytes from its start are written to its medium. -/
def State.mediumWr (s : State) (d : DumpRun) (b : Bytes) : State :=
  if d.fallback then s.fallbackWr d.tiles b else s.writeMem U.stw s.dumpBase b

/-- Bytes of the dump's medium from offset `o`. -/
def State.mediumRd (s : State) (d : DumpRun) (o n : Nat) : Bytes :=
  if d.fallback then (List.range n).map fun i => s.fallbackRd d.tiles (o + i) else s.readMem (s.dumpBase + o) n

/-- What reading `n` bytes of the dump's medium from offset `o` does to DRAM, by a requester (R313, R402, Table 12.3). -/
def State.mediumBeats (s : State) (u : Inst) (d : DumpRun) (o n : Nat) : State :=
  if d.fallback then s else s.readBeats u (s.dumpBase + o) n

/-! ### Sections (Table 15.7) -/

/-- Zeros up to a multiple of 4 KiB. -/
def pad4k (b : Bytes) : Bytes := b ++ List.replicate (roundUp b.length 4096 - b.length) 0

/-- The bytes of words. -/
def numBytes (l : List Nat) : Bytes := l.flatMap (leBytes 4)

/-- REGS: every page of every instance of the directory, read with no side effect (R399). -/
def State.secRegs (s : State) : Bytes :=
  s.fuses.directory.flatMap fun u => (List.range (1024 * u.blk.pages)).flatMap fun i =>
    leBytes 4 (s.readReg (u.base + 4 * i)).toNat

/-- The state code of a window (Table 2.4). -/
def WinSt.code : WinSt → Nat
  | .waiting => 0 | .open => 1 | .fired => 2 | .done => 3 | .skipped => 4 | .forced => 5 | .closed => 6

/-- A phase with its valid bit. -/
def phaseWord : Option (BitVec 24) → Nat
  | some p => 2 ^ 31 + p.toNat
  | none => 0

/-- The 32 bytes of a window index; a window that does not exist reads 7. -/
def State.winBytes (s : State) (w : Nat) : Bytes :=
  let x := s.win w
  if s.ple.wins.any (fun e => e.1 == w) then
    numBytes [x.st.code + (match s.planWin w with | some e => e.stream | none => 0) * 256, phaseWord x.fireAt,
      phaseWord x.closeAt, 0, 0, 0, 0, 0]
  else numBytes [7, 0, 0, 0, 0, 0, 0, 0]

/-- WINDOWS: a 4 KiB page of PLE and TMU state, one word or word pair each in the order of Table 15.7 (log 37). -/
def State.secWindows (s : State) : Bytes :=
  pad4k (numBytes [s.clock.epoch.toNat, s.clock.epoch.toNat / 2 ^ 32, s.clock.phase.toNat, (s.reg Reg.PLE.ACTIVE).toNat,
    (s.reg Reg.PLE.ACTIVE_PLAN_ID).toNat, (s.reg Reg.PLE.COMMIT_STATUS).toNat]) ++
    (List.range 4096).flatMap s.winBytes

/-- FABRIC: the beat counters. -/
def State.secFabric (s : State) : Bytes := (List.range 224).flatMap fun l => leBytes 8 (s.fabric.beats.get (fun _ => 0) l)

/-- ERRORS: the log slots, then the coalescing table. -/
def State.secErrors (s : State) : Bytes :=
  (List.range 1024).flatMap s.logBytes ++
    (List.range 256).flatMap fun i => (List.range 8).flatMap fun j => leBytes 4 (s.coal i j)

/-- RANKS: 64 bytes for each controller. -/
def State.secRanks (s : State) : Bytes :=
  (List.range 16).flatMap fun c => numBytes ([s.reg (Reg.DMC.RANK_MAP_LO c), s.reg (Reg.DMC.RANK_MAP_HI c),
    s.reg (Reg.DMC.RANK_STATE_LO c), s.reg (Reg.DMC.RANK_STATE_HI c), s.reg (Reg.DMC.MIG_STATUS c), s.reg (Reg.DMC.MIG_TIME c),
    s.reg (Reg.DMC.USABLE c), s.reg (Reg.DMC.LAST_UE_LO c), s.reg (Reg.DMC.LAST_UE_HI c)].map (·.toNat) ++
    [0, 0, 0, 0, 0, 0, 0])

/-- RINGS: 32 bytes for each ring, then 16 for each fence. -/
def State.secRings (s : State) : Bytes :=
  ((List.range 8192).flatMap fun r => numBytes ([s.reg (Reg.RING.BASE_LO r), s.reg (Reg.RING.BASE_HI r),
    s.reg (Reg.RING.CFG r), s.reg (Reg.RING.BIND r), s.hostIdx r, s.devIdx r, s.reg (Reg.RING.STATUS r),
    s.reg (Reg.RING.FAULT_IDX r)].map (·.toNat))) ++
  (List.range 8192).flatMap fun f =>
    let m := fld (s.reg (Reg.FENCE.MIRROR_LO f)) 31 3 * 8 + 2 ^ 32 * (s.reg (Reg.FENCE.MIRROR_HI f)).toNat
    leBytes 8 (s.fenceVal f).toNat ++ leBytes 8 (m + b2n (s.fenceEn f) * 2 + b2n (s.rbit (Reg.FENCE.CFG f) 30))

/-- METER: the four strobe snapshots and the periodic one, 32 bytes each. -/
def State.secMeter (s : State) : Bytes :=
  ((List.range 4).flatMap fun i =>
    let x := s.met.slots.get (fun _ => ([], 0, false)) i
    sliceB x.1 0 20 ++ leBytes 8 x.2.1.toNat ++ List.replicate 4 0) ++
  (match s.met.newest with | some f => sliceB f.1 0 20 | none => List.replicate 20 0) ++ List.replicate 12 0

/-- STEWARD: the steward SRAM. -/
def State.secSteward (s : State) : Bytes := s.stw.sram.getRange sram0 0 0x200000

/-- PLAN: the image of the slot in effect. -/
def State.secPlan (s : State) : Option Bytes := s.ple.plan.map fun p => s.readMem p.base p.imageSize

/-- The sections in order; PLAN on a DRAM dump only. -/
def State.dumpSections (s : State) (fallback : Bool) : List (Nat × Bytes) :=
  [(1, s.secRegs), (2, s.secWindows), (3, pad4k s.secFabric), (4, s.secErrors), (5, pad4k s.secRanks), (6, s.secRings),
   (7, pad4k s.secMeter), (8, s.secSteward)] ++
  (match s.secPlan with | some b => if fallback then [] else [(9, pad4k b)] | none => [])

/-- The section table: type, offset, length and CRC, sections one after another from `off`. -/
def sectionTable : Nat → List (Nat × Bytes) → List (Nat × Nat × Nat × Nat)
  | _, [] => []
  | off, (ty, b) :: rest => (ty, off, b.length, crc32c b) :: sectionTable (off + roundUp b.length 4096) rest

/-! ### The header (Table 15.6) -/

/-- The header and section table of a dump; STATE is 1 or 2, and only a completed header carries a CRC. -/
def State.dumpHeader (s : State) (d : DumpRun) (st : Nat) : Bytes :=
  let seq := if d.now then 0xFFFFFFFF else (s.reg Reg.ERC.FATAL_SEQ).toNat
  let h := numBytes [0x44554D50, 0x00010040,
      d.table.length * 2 ^ 16 + b2n s.erc.logLost * 512 + b2n d.fallback * 256 + st, s.fuses.ident,
      s.erc.fatalCount % 65536 * 2 ^ 16 + s.rfld Reg.DEVCTL.NODE 15 0, seq, (s.reg Reg.ERC.FATAL_TIME_LO).toNat,
      (s.reg Reg.ERC.FATAL_TIME_HI).toNat, (s.reg Reg.ERC.FATAL_POS_LO).toNat, (s.reg Reg.ERC.FATAL_POS_HI).toNat, d.total,
      (s.reg Reg.ERC.FATAL_STATUS).toNat, if st = 2 then (s.clock.time.toNat - d.began) / 1000 else 0, 0, 0, 0]
  let t := d.table.flatMap fun e => numBytes [e.1, e.2.1, e.2.2.1, e.2.2.2]
  if st = 2 then h.take 60 ++ leBytes 4 (crc32c (h ++ t)) ++ t else h ++ t

/-! ### Writing it -/

/-- DUMP_STATUS.STATE: 0 NONE, 1 WRITING, 2 COMPLETE, 3 FAILED. -/
def State.dumpState (s : State) : Nat := s.rfld Reg.ERC.DUMP_STATUS 1 0

/-- Steward firmware runs: sealed, and not asleep (R375). -/
def State.fwRuns (s : State) : Bool := s.isSealed && !s.stw.asleep

/-- DUMP_WRITE (R397 to R401): header WRITING, then the sections of Table 15.7; on the fallback medium when the DRAM
region does not serve, and from the beginning there when it stops serving. -/
def execDumpWrite (s : State) : Res :=
  onCore s fun s =>
    match s.erc.dump with
    | none => s
    | some d =>
      if s.dumpState ≠ 1 ∨ !s.fwRuns ∨ (d.written ∧ (d.fallback ∨ s.dumpToDram)) then s
      else
        let fb := !s.dumpToDram
        let secs := s.dumpSections fb
        let table := sectionTable 4096 secs
        let body := secs.flatMap fun e => pad4k e.2
        let run : DumpRun := { d with fallback := fb, tiles := s.fallbackTiles, written := true, table := table,
                                      total := 4096 + body.length }
        let bytes := pad4k (s.dumpHeader run 1) ++ body
        let s := match s.ple.plan with
          | some p => s.when (!fb) fun s => s.readBeats U.stw p.base p.imageSize
          | none => s
        let s := s.mediumWr run bytes
        let s := s.setFld Reg.ERC.DUMP_STATUS 2 2 (b2n fb)
        { s with erc := { s.erc with dump := some run } }

/-- The entry that R464 builds from the FATAL registers. -/
def State.builtEntry (s : State) (d : DumpRun) : Bytes :=
  let f := s.reg Reg.ERC.FATAL_STATUS
  numBytes [(s.reg Reg.ERC.FATAL_TIME_LO).toNat, (s.reg Reg.ERC.FATAL_TIME_HI).toNat, (s.reg Reg.ERC.FATAL_POS_LO).toNat,
    (s.reg Reg.ERC.FATAL_POS_HI).toNat,
    fld f 27 16 * 2 ^ 20 + fld f 15 8 * 2 ^ 12 + fld f 4 0 * 128 + (if d.now then 0 else 96), 0, 1,
    if d.now then 0xFFFFFFFF else (s.reg Reg.ERC.FATAL_SEQ).toNat]

/-- The DUMP_DONE entry (Table 15.3). -/
def State.dumpDone (s : State) (d : DumpRun) (hdr : Bytes) : Bytes :=
  (if s.rbit Reg.ERC.FATAL_STATUS 30 then s.logBytes ((s.reg Reg.ERC.FATAL_SEQ).toNat % 1024) else s.builtEntry d) ++
    [1, 0, 0, 0] ++ hdr.take 28

/-- DUMP_COMPLETE (R401): header COMPLETE with its CRC, DUMP_STATUS, ATTN_STATUS.FATAL, and a DUMP_DONE entry when a
CONTROL ring is spilling. -/
def execDumpComplete (s : State) : Res :=
  onCore s fun s =>
    match s.erc.dump with
    | none => s
    | some d =>
      if s.dumpState ≠ 1 ∨ !s.fwRuns ∨ !d.written ∨ (!d.fallback ∧ !s.dumpToDram) then s
      else
        let h := s.dumpHeader d 2
        let s := s.mediumWr d h
        let s := ((s.setFld Reg.ERC.DUMP_STATUS 1 0 2).clrBit Reg.STW.WAKE_STATUS 2).attn 5
        match s.spillRing with
        | some r => s.publish r (s.dumpDone d h) 1
        | none => s

/-- DUMP_TIMEOUT (R401): STATE still reads WRITING a second after the fatal error. -/
def execDumpTimeout (s : State) : Res :=
  onCore s fun s =>
    match s.erc.dump with
    | none => s
    | some d =>
      if s.dumpState ≠ 1 ∨ d.now then s
      else
        let t := d.began + 1000000000
        let s := s.passTime t
        s.when (decide (t ≤ s.clock.time.toNat)) fun s => (s.setFld Reg.ERC.DUMP_STATUS 1 0 3).attn 5

/-- REARM (R11, R403): from COMPLETE or FAILED the bit sets (W1S), STATE reads NONE and the FATAL registers clear; otherwise
the write is ignored and sets PG_ERR.PROTOCOL. No rule clears the bit again (log 170). -/
def State.dumpRearm (s : State) : State :=
  if s.dumpState < 2 then s.protocol U.erc
  else
    let s := ((s.setBit Reg.ERC.DUMP_CTRL 0).setFld Reg.ERC.DUMP_STATUS 1 0 0).setNum Reg.ERC.FATAL_STATUS 0
    let s := (s.setNum Reg.ERC.FATAL_SEQ 0).setReg64 Reg.ERC.FATAL_TIME_LO Reg.ERC.FATAL_TIME_HI 0
    let s := (s.setNum Reg.ERC.FATAL_POS_LO 0).setNum Reg.ERC.FATAL_POS_HI 0
    { s with erc := { s.erc with dump := none, fatalCount := 0 } }

/-- DUMP_CTRL_REARM (R403). -/
def execDumpCtrlRearm (s : State) : Res := onBus s State.dumpRearm

/-- DUMP_WINDOW_READ (R402): the word of the dump window at an offset, read through port 6; zero while nothing of a dump has
been written (log 37). -/
def execDumpWindowRead (off : BitVec 26) (s : State) : Res :=
  onCore s fun s =>
    if s.power.warm then s.answer 0
    else
      let o := off.toNat / 4 * 4
      match s.erc.dump with
      | none => s.answer 0
      | some d =>
        let o := if d.fallback then o else s.rfld Reg.ERC.DUMP_WIN 1 0 * 2 ^ 26 + o
        if d.total = 0 then s.answer 0
        else (s.mediumBeats U.pep d o 4).answer (BitVec.ofNat 32 (leNat (s.mediumRd d o 4)))

/-! ### Steward commands (Table 15.8) -/

/-- DUMP_INFO: DUMP_STATUS and the header bytes 0x00 to 0x3F as they stand on the medium. -/
def execDumpInfo (n : BitVec 5) (s : State) : Res :=
  onCore s fun s => s.serve n.toNat 0x30 false fun s =>
    (0, leBytes 4 (s.reg Reg.ERC.DUMP_STATUS).toNat ++
      (match s.erc.dump with | some d => s.mediumRd d 0 64 | none => List.replicate 64 0),
     match s.erc.dump with | some d => s.mediumBeats U.stw d 0 64 | none => s)

/-- DUMP_REARM: as DUMP_CTRL.REARM; FAILED where that is ignored (log 37). -/
def execDumpRearm (n : BitVec 5) (s : State) : Res :=
  onCore s fun s => s.serve n.toNat 0x31 false fun s => (if s.dumpState < 2 then 4 else 0, [], s.dumpRearm)

/-- DUMP_NOW: with STATE NONE a dump begins with no fatal error; otherwise FAILED. -/
def execDumpNow (n : BitVec 5) (s : State) : Res :=
  onCore s fun s => s.serve n.toNat 0x32 false fun s =>
    if s.dumpState ≠ 0 then (4, [], s)
    else
      let d : DumpRun := { fallback := false, tiles := [], written := false, table := [], total := 0,
                           began := s.clock.time.toNat, now := true }
      let s := s.setFld Reg.ERC.DUMP_STATUS 2 0 1
      (0, [], { s with erc := { s.erc with dump := some d } })

end Sys2Proof.Machine
end

