-- ==== Sys2Proof/Machine/Egr.lean ====
section
/-!
DEFINITION. Delivery of records (11_results): RING_DELIVERY, SINK_SEND, SINK_CFG_WRITE (R298 to R305).
-/
namespace Sys2Proof.Machine

/-- A destination has taken a record or discarded it: the store frees the record once none is owed (R296). -/
def State.storeTake (s : State) (f : Rec → Bool) (g : Rec → Rec) : State :=
  match s.egr.store.findIdx? f with
  | none => s
  | some i => s.setStore ((modAt s.egr.store i g).filter fun r => r.ring.isSome || !r.sinks.isEmpty)

/-! ### RESULT rings (R298 to R300) -/

/-- A record as it goes to its ring: DROP_BEFORE where a record was discarded since the last delivery (R299), which
changes the trailer with it. -/
def ringCopy (d : Bytes) (dropped : Bool) : Bytes :=
  let body := d.take (d.length - 4)
  if dropped then sealRecord (body.take 34 ++ [body.getD 34 0 ||| 0x20] ++ body.drop 35) else d

/-- A filler of some entries (R298). -/
def filler (entries : Nat) : Bytes :=
  leBytes 2 0x5952 ++ [0x11] ++ List.replicate 35 0 ++ leBytes 2 (64 * entries) ++ List.replicate (64 * entries - 40) 0

/-- Entries before the ring's end that a record of `n` entries does not fit in. -/
def State.fillEntries (s : State) (r n : Nat) : Nat :=
  let left := s.ringSize r - (s.devIdx r).toNat % s.ringSize r
  if left < n then left else 0

/-- A filler is written ahead of its record: it shares the record's publication. -/
def State.writeFiller (s : State) (r n : Nat) : State × Bool :=
  if n = 0 then (s, true)
  else
    let a := s.entryAddr r (s.devIdx r)
    if s.winOk (s.ringClass r) true a (64 * n) then
      ((s.hostWrite a (filler n)).setReg (Reg.RING.DEV_IDX r) (s.devIdx r + BitVec.ofNat 32 n), true)
    else ((s.winFail (s.ringClass r) true false r).ringFault r 3, false)

/-- A record is discarded for its ring and counted (R299). -/
def State.ringDrop (s : State) (n r : Nat) (hostLoss : Bool) : State :=
  let s := if hostLoss then s.incS Reg.EGR.HOSTLOSS_DROP_CNT else (s.incS Reg.EGR.RING_DROP_CNT).raise U.egr 9
  s.setDropBefore n r true

/-- A record is written to its ring, or discarded (R298 to R300). A ring that the requester windows refuse goes FAULTED
and takes the record no more (R371). -/
def State.deliver (s : State) (r : Nat) (x : Rec) : State :=
  let n := x.stream.toNat
  if s.hostState ≠ 0 ∨ !s.hostLinkUp then s.ringDrop n r true
  else if s.ringState r ≠ 1 ∨ s.ringKind r ≠ 0 then s.ringDrop n r false
  else
    let d := ringCopy x.data (s.egr.dropBefore.get (fun _ => false) (8192 * n + r))
    let entries := ceilDiv d.length 64
    let fill := s.fillEntries r entries
    if !s.ringSpace r (fill + entries) then s.ringDrop n r false
    else
      match s.writeFiller r fill with
      | (s, false) => s.ringDrop n r false
      | (s, true) =>
        let before := s.devIdx r
        let s := s.publish r (d ++ List.replicate (64 * entries - d.length) 0) 1
        if s.devIdx r = before then s.ringDrop n r false
        else
          let s := s.setDropBefore n r false
          let delay := s.clock.time.toNat - x.time.toNat
          s.when (decide ((s.reg Reg.EGR.MAX_DELAY).toNat < delay)) fun s =>
            s.setNum Reg.EGR.MAX_DELAY (min delay (2 ^ 32 - 1))

/-- The oldest record that is owed to a ring. -/
def State.owedRing (s : State) (r : BitVec 13) : Option Rec := s.egr.store.find? fun x => x.ring == some r

/-- A STOPPED EGR discards accepted records at every destination, counted nowhere (R306; log 167 for those in its store). -/
def State.egrStopped (s : State) : Bool := s.runState U.egr == 0

/-- RING_DELIVERY (R298, R299): the oldest record owed to the ring, with its filler, or its discard. While PEP can make no
request although the link is up, the record waits. A STOPPED EGR discards it (R306). -/
def execRingDelivery (r : BitVec 13) (s : State) : Res :=
  onCore s fun s =>
    match s.owedRing r with
    | none => s
    | some x =>
      s.when (s.egrStopped || s.canIssue || s.hostState != 0 || !s.hostLinkUp) fun s =>
        (if s.egrStopped then s.setDropBefore x.stream.toNat r.toNat true else s.deliver r.toNat x).storeTake (fun y => y.ring == some r) fun y => { y with ring := none }

/-! ### UDP sinks (R301 to R303) -/

/-- The largest IP packet of a sink, within its range (R302). -/
def SinkSet.mtu (x : SinkSet) : Nat := Nat.max 1280 (Nat.min 9600 (fld x.cfg 13 0))

/-- Record bytes in each segment: D = MTU − h − 16 (R302). -/
def SinkSet.segBytes (x : SinkSet) : Nat := x.mtu - (if tst x.cfg 30 then 40 else 20) - 16

/-- An address of a sink: IPv4 in word 0 (Table 11.6). -/
def SinkSet.addr (x : SinkSet) (l : List Word) : Bytes :=
  if tst x.cfg 30 then l.flatMap fun w => beBytes 4 w.toNat else beBytes 4 (l.headD 0).toNat

/-- Segment k of `count` of a record (Table 11.5). -/
def segment (seq stream k count : Nat) (part : Bytes) : Bytes :=
  leBytes 4 seq ++ [BitVec.ofNat 8 stream, BitVec.ofNat 8 k, BitVec.ofNat 8 (count - 1), 0x10] ++ part

/-- A segment's frame. -/
def SinkSet.frame (x : SinkSet) (smac : Bytes) (data : Bytes) : Bytes :=
  let ip6 := tst x.cfg 30
  let src := x.addr x.sip
  let dst := x.addr x.dip
  let udp := buildUdp ip6 src dst (fld x.l4 31 16) (fld x.l4 15 0) data
  let tag := if tst x.cfg 29 then some (fld x.cfg 28 26, fld x.cfg 25 14) else none
  buildEth (beBytes 2 (fld x.phy 15 0) ++ beBytes 4 x.dmacLo.toNat) smac tag (ipType ip6)
    (buildIp ip6 src dst (fld x.ip 5 0) 0 true (fld x.ip 15 8) udp)

/-- The frames of a record for a sink, in increasing SEG_INDEX (R302). -/
def SinkSet.frames (x : SinkSet) (smac : Bytes) (r : Rec) : List Bytes :=
  let d := x.segBytes
  let count := ceilDiv r.data.length d
  (List.range count).map fun k =>
    x.frame smac (segment (leAt r.data 8 4) r.stream.toNat k count ((r.data.drop (k * d)).take d))

/-- The oldest record that is owed to a sink. -/
def State.owedSink (s : State) (k : Nat) : Option Rec := s.egr.store.find? fun x => x.sinks.contains k

/-- SINK_SEND (R301 to R303): the oldest record owed to the sink leaves as segments, or is discarded when the port is not
UP; a sink taken out of use since acceptance takes nothing, and a STOPPED EGR discards it (R306). -/
def execSinkSend (k : BitVec 6) (s : State) : Res :=
  onCore s fun s =>
    let n := k.toNat
    match s.owedSink n with
    | none => s
    | some r =>
      let x := s.sinkOf n
      let port := fld x.phy 19 16
      let s := if !tst x.cfg 31 ∨ s.egrStopped then s
        else if s.running (U.nix port) && s.linkUp port then
          ((x.frames (s.portMac port) r).foldl (fun s f => s.transmit port f) s).incW (Reg.EGR.SINK_TX n)
        else (s.incS (Reg.EGR.SINK_DROP n)).raise U.egr 10
      s.storeTake (fun y => y.sinks.contains n) fun y => { y with sinks := y.sinks.filter fun i => i != n }

/-- The settings of a sink as its registers hold them. -/
def State.sinkRegs (s : State) (k : Nat) (cfg : Word) : SinkSet :=
  { cfg := cfg, l4 := s.reg (Reg.EGR.SINK_L4 k), phy := s.reg (Reg.EGR.SINK_PHY k),
    dmacLo := s.reg (Reg.EGR.SINK_DMAC_LO k), dip := (List.range 4).map fun i => s.reg (Reg.EGR.SINK_DIP k i),
    sip := (List.range 4).map fun i => s.reg (Reg.EGR.SINK_SIP k i),
    streams := (List.range 8).map fun w => s.reg (Reg.EGR.SINK_STREAMS k w), ip := s.reg (Reg.EGR.SINK_IP k) }

/-- SINK_CFG_WRITE (R305): the sink's settings are taken up; a record under way is whole in one step, so the write always
falls between records. -/
def execSinkCfgWrite (k : BitVec 6) (value : Word) (s : State) : Res :=
  onReg s U.egr (Reg.EGR.SINK_CFG k.toNat) fun s =>
    let n := k.toNat
    let s := s.setReg (Reg.EGR.SINK_CFG n) value
    { s with egr := { s.egr with sinks := s.egr.sinks.set (fun _ => SinkSet.reset) n (s.sinkRegs n value) } }

end Sys2Proof.Machine
end

