-- ==== Sys2Proof/Machine/Ingress.lean ====
section
/-!
DEFINITION. The commands of the stream contexts and of ingress: FRAME_RX, POLICE_REFILL, REORDER_TIMEOUT, AU_TIMEOUT,
NACK_SEND, RR_SEND, SSRC_CHANGE, ADMIT, RELEASE, CANCEL (R88 to R112).
-/
namespace Sys2Proof.Machine

/-- FRAME_RX (R88, R89, R97, R430): an UP port receives a frame, counts it, and hands it to TMU, to the pair logic or
to ING. The port's timestamp is the device time at the step. -/
def execFrameRx (port : BitVec 4) (frame : Bytes) (s : State) : Res :=
  onUnit s (U.nix port.toNat) fun s =>
    let n := port.toNat
    s.when (s.running (U.nix n) && s.linkUp n) fun s =>
      if !fcsOk frame then s.incW (Reg.NIX.RX_FCS_ERR n)
      else if s.rfld (Reg.NIX.MAX_FRAME n) 13 0 < frame.length ∨ twoTags frame then s.incW (Reg.NIX.RX_REJECT n)
      else
        let s := s.incW (Reg.NIX.RX_FRAMES n)
        let f := parseEth frame
        let sc := s.reg Reg.TMU.SYNC_CFG
        let pc := s.reg Reg.DEVCTL.PAIR_CFG
        if f.etype = 0x88F7 then
          s.when (n == fld sc 19 16 || (tst sc 31 && n == fld sc 27 24)) fun s =>
            { s with sync := { s.sync with inbox := s.sync.inbox ++ [(port, f.body, s.clock.time)] } }
        else if f.etype = 0x88B5 then
          s.when (tst pc 31 && n == fld pc 27 24) fun s =>
            { s with pair := { s.pair with inbox := s.pair.inbox ++ [f.body] } }
        else s.when (s.running U.ing) fun s => s.ingest n f

/-- The bytes that refill step j adds (R100). -/
def refillStep (rate j : Nat) : Nat := (j + 1) * rate / 256 - j * rate / 256

/-- POLICE_REFILL (R100): refill step j of the epoch, at phase j × 2^16; the steps of an epoch come in order. -/
def execPoliceRefill (j : BitVec 8) (s : State) : Res :=
  onCore s fun s =>
    s.when (s.ticking && j.toNat == s.clock.refilled) fun s =>
      let s := s.passPhase (j.toNat * 65536)
      let s : State := { s with clock := { s.clock with refilled := j.toNat + 1 } }
      (List.range 256).foldl (fun s n =>
        if s.streamState n = 0 then s
        else
          let x := s.scxOf n
          let add := refillStep (s.reg (Reg.SCX.POLICE_RATE n)).toNat j.toNat
          s.setScx n { x with bucket := min (s.reg (Reg.SCX.POLICE_BURST n)).toNat (x.bucket + add) }) s

/-- The packet held by the reorder stage that arrived first. -/
def firstHeld (l : List Packet) : Option Packet :=
  l.foldl (fun o p => match o with | none => some p | some q => if p.time < q.time then some p else o) none

/-- Declare the missing numbers before the first held packet lost, then deliver what is due. -/
def State.loseMissing (n : Nat) : Nat → State → State
  | 0, s => s
  | fuel + 1, s =>
    let x := s.scxOf n
    match x.next with
    | none => s
    | some nx =>
      if x.held.isEmpty ∨ x.held.any (fun p => p.seq = nx) then State.drainReorder n 131072 s
      else
        let s := s.setScx n { x with next := some (nx + 1), gaps := x.gaps.filter (· ≠ nx) }
        State.loseMissing n fuel (s.declareLost n)

/-- REORDER_TIMEOUT (R101): REORDER_TIMEOUT pu after a later packet arrived, the numbers missing before it are lost. -/
def execReorderTimeout (n : BitVec 8) (s : State) : Res :=
  onCore s fun s =>
    let n := n.toNat
    match firstHeld (s.scxOf n).held with
    | none => s
    | some p =>
      match s.passPu p.epoch p.phase (s.rfld Reg.ING.REORDER_TIMEOUT 23 0) with
      | some s => State.loseMissing n 65536 s
      | none => s

/-- AU_TIMEOUT (R103): REORDER_TIMEOUT pu after its last packet, with no number outstanding, the unit ends without
a marker. -/
def execAuTimeout (n : BitVec 8) (s : State) : Res :=
  onCore s fun s =>
    let n := n.toNat
    let x := s.scxOf n
    match x.asm with
    | none => s
    | some a =>
      if !x.held.isEmpty then s
      else match s.passPu a.lastEpoch a.lastPhase (s.rfld Reg.ING.REORDER_TIMEOUT 23 0) with
        | some s => s.endAu n true
        | none => s

/-- NACK_SEND (R110): one Generic NACK for the missing numbers; one that cannot leave is discarded (R112). -/
def execNackSend (n : BitVec 8) (s : State) : Res :=
  onCore s fun s =>
    let n := n.toNat
    let x := s.scxOf n
    s.when (tst (s.streamCfg n) 7 && !x.gaps.isEmpty) fun s =>
      let s := s.setScx n { x with gaps := [] }
      match s.rtcpPort n with
      | none => s
      | some d => (s.sendRtcp n d (fun a b => rtcpNack a b x.gaps)).incW (Reg.SCX.NACK_SENT n)

/-- RR_SEND (R112): every RR_INTERVAL epochs a receiver report alone; one that cannot leave is discarded. -/
def execRrSend (n : BitVec 8) (s : State) : Res :=
  onCore s fun s =>
    let n := n.toNat
    let every := s.rfld Reg.ING.RTCP_CFG 23 16
    let x := s.scxOf n
    s.when (decide (s.streamState n ≠ 0) && decide (0 < every) &&
        decide (every ≤ s.clock.epoch.toNat - x.lastRr.toNat)) fun s =>
      let s := s.setScx n { x with lastRr := s.clock.epoch }
      match s.rtcpPort n with
      | none => s
      | some d => s.sendRtcp n d (fun _ _ => [])

/-- The other source of the SSRC-change condition (R96): in each of the last SSRC_TIMEOUT whole epochs it matched and
the latched one did not; of several, the one whose last packet arrived latest. -/
def State.ssrcHeard (s : State) (n : Nat) : Option HeardSsrc :=
  let x := s.scxOf n
  let k := fld (s.streamCfg n) 19 16
  let mine := s.reg (Reg.SCX.SSRC_LATCHED n)
  let past := x.history.take k
  if !x.latched ∨ k = 0 ∨ past.length < k ∨ past.any (fun e => e.any fun q => q.ssrc = mine) then none
  else
    let cands := (past.headD []).filter fun q => past.all fun e => e.any fun r => r.ssrc = q.ssrc
    cands.foldl (fun o q => match o with | none => some q | some b => if b.time < q.time then some q else o) none

/-- Its SSRC. -/
def State.ssrcCandidate (s : State) (n : Nat) : Option Word := (s.ssrcHeard n).map (·.ssrc)

/-- A change of source at a boundary at which the condition holds (R95, R96), in any state but FREE: the new SSRC is
latched, sequence, reorder and slot history reset, the chains go back, a PLI goes to the new source, and an ACTIVE or HELD
stream is HELD for SSRC. -/
def State.ssrcChange (s : State) (n : Nat) : State :=
  match s.ssrcHeard n with
  | none => s
  | some h =>
    s.when (decide (s.streamState n ≠ 0)) fun s =>
      let s := s.returnAll n
      let x := s.scxOf n
      let s := (s.setReg (Reg.SCX.SSRC_LATCHED n) h.ssrc).setNum (Reg.SCX.SEQ n) 0
      let s := s.setScx n { x with next := none, held := [], gaps := [], asm := none, aus := [], lossNext := false,
                                   prev := none, history := [], stats := RtpStats.none, rtcp := some h.dest,
                                   anchored := x.anchored && !tst (s.streamCfg n) 5 }
      if s.streamState n = 2 ∨ s.streamState n = 3 then s.enterHeld n 2 else s.pli n

/-- Every context's that another source is heard for. -/
def State.ssrcChanges (s : State) : State :=
  ((List.range 256).filter fun n => (s.ssrcHeard n).isSome).foldl State.ssrcChange s

/-- SSRC_CHANGE (R96): the boundary's own work; EPOCH_BOUNDARY has done it for the epoch it starts (log 85). -/
def execSsrcChange (n : BitVec 8) (s : State) : Res :=
  onCore s fun s => s.when (s.clock.phase == 0) fun s => s.ssrcChange n.toNat

/-- ADMIT (R92, R93, R100, R105, R291, R369): a FREE, RUNNING context with sound RTP_TPE and MAX_AU becomes ADMITTED
after SEAL; otherwise the write is ignored with PG_ERR.PROTOCOL. -/
def execAdmitStream (n : BitVec 8) (s : State) : Res :=
  onReg s (U.scx n.toNat) (Reg.SCX.CMD n.toNat) fun s =>
    let n := n.toNat
    if s.streamState n = 0 ∧ s.running (U.scx n) ∧ s.isSealed ∧ s.tpe n % s.phi n = 0 ∧ s.rfld (Reg.SCX.MAX_AU n) 23 0 ≠ 0 then
      let s := s.setStream n 1 0
      let s := s.setScx n { s.scxOf n with bucket := (s.reg (Reg.SCX.POLICE_BURST n)).toNat, lastRr := s.clock.epoch }
      s.egrStreamStart n
    else s.protocol (U.scx n)

/-- RELEASE (R92, R93): an ACTIVE or HELD context becomes DRAINING. -/
def execRelease (n : BitVec 8) (s : State) : Res :=
  onReg s (U.scx n.toNat) (Reg.SCX.CMD n.toNat) fun s =>
    let n := n.toNat
    if s.streamState n = 2 ∨ s.streamState n = 3 then s.setStream n 4 0 else s.protocol (U.scx n)

/-- CANCEL (R92, R93, R94): an ADMITTED context that no plan serves becomes FREE. -/
def execCancel (n : BitVec 8) (s : State) : Res :=
  onReg s (U.scx n.toNat) (Reg.SCX.CMD n.toNat) fun s =>
    let n := n.toNat
    if s.streamState n = 1 ∧ !s.served n then s.enterFree n else s.protocol (U.scx n)

end Sys2Proof.Machine
end

