-- ==== Sys2Proof/Machine/Lens.lean ====
section
/-!
DEFINITION. The commands of the lens engines: AUG_READ_DONE, AUG_READ_TIMEOUT, LENS_PROGRAM_COMPLETE (R166 to R182).
-/
namespace Sys2Proof.Machine

/-- The job of an engine that is able to work on a fired window, with its plan, entry, program and descriptor. -/
def State.lensAt (s : State) (n : Nat) : Option (LnsJob × Plan × PlanWindow × PlanProgram × LnsDesc) :=
  if 3 ≤ s.runState (U.lns n) then none
  else match s.lnsOf n, s.ple.plan with
    | some j, some p =>
      if !j.fired ∨ (s.win j.win.toNat).st ≠ .fired then none
      else match p.windows[j.win.toNat]? with
        | some e => match p.lensProgram e n with
          | some q => some (j, p, e, q, s.lnsDesc (p.base + q.codeOff))
          | none => none
        | none => none
    | _, _ => none

/-- The read of a job is still outstanding. -/
def State.augPending (s : State) (j : LnsJob) : Bool :=
  match j.tag with | some t => s.pep.reads.any fun r => r.tag == t && !r.dropped | none => false

/-- AUG_READ_DONE (R172, R173): the read has completed, or will bring nothing; the engine acts on it. -/
def execAugReadDone (e : BitVec 3) (s : State) : Res :=
  onUnit s (U.lns e.toNat) fun s =>
    match s.lensAt e.toNat with
    | some (j, _, w, _, d) => if j.settled ∨ s.augPending j then s else s.augAct e.toNat j w d.ring
    | none => s

/-- AUG_READ_TIMEOUT (R172): 2,000 cycles after firing the read has not completed; identity parameters, nothing consumed. -/
def execAugReadTimeout (e : BitVec 3) (s : State) : Res :=
  onUnit s (U.lns e.toNat) fun s =>
    match s.lensAt e.toNat with
    | some (j, _, w, _, _) => if j.settled ∨ !s.augPending j then s else s.augDefault e.toNat 1 j w
    | none => s

/-- The blocks of DRAM that a program reads: the clamp regions of its picture, or the tensor it regroups (R166, R169, R178). -/
def LnsDesc.inputBlocks (d : LnsDesc) (p : Plan) (q : PlanProgram) (src : Option LnsSrc) : List Nat :=
  if d.mode = 0 then (match src with | some x => d.pictureBlocks x | none => [])
  else blocksOf (p.refAddr ((p.refsOf q).getD 0 default)) ((d.outs.getD 0 default).size 2)

/-- Engine n has read its input: poisoned blocks are counted, and the frame's record is flagged (R166); those of a REGROUP
input count as those of a picture do (log 49). -/
def State.lensInput (s : State) (n w : Nat) (blocks : List Nat) : State :=
  let bad := (blocks.filter fun b => (s.readBlock b).2).length
  let s := blocks.foldl (fun s b => s.readEffect (portOf (U.lns n)) b) s
  s.when (bad != 0) fun s => (s.incS (Reg.LNS.POISON_CNT n) bad).flagWin w (bit1 9)

/-- Engine n writes output k of a program to its destination (R164, R177); its clipped elements. -/
def State.lensOutput (s : State) (n : Nat) (p : Plan) (q : PlanProgram) (d : LnsDesc) (j : LnsJob) (src : Option LnsSrc) (k : Nat)
    (o : LnsOut) : Nat × State :=
  let refs := p.refsOf q
  let r := if d.mode = 0 then s.pictureTensor (p.base + q.codeOff) d src o ((j.aug.getD k none))
    else (s.regroupTensor o (p.refAddr (refs.getD 0 default)), 0)
  let s := s.drawn
  let s := if o.tile1 then s.tileWr (s.physTile o.tile) (64 * o.tsOff) r.1
    else s.writeMem (U.lns n) (p.refAddr (refs.getD (2 + k) default)) r.1
  (r.2, s)

/-- LENS_PROGRAM_COMPLETE (R166 to R180, R182): every output is written, once the parameters are settled; counters,
poisoned blocks of the input, charge, elapsed cycles, clipped elements. -/
def execLensProgramComplete (e : BitVec 3) (elapsed : Word) (s : State) : Res :=
  onUnit s (U.lns e.toNat) fun s =>
    let n := e.toNat
    match s.lensAt n with
    | none => s
    | some (j, p, w, q, d) =>
      if !j.settled ∨ j.done then s
      else
        let src := match j.src, s.storeGeometry p w.stream with
          | some x, some g =>
            some { addr := p.refAddr ((p.refsOf q).getD 1 default) + x.buffer * g.bufBytes, geo := g, ent := x : LnsSrc }
          | _, _ => none
        let r := d.outs.zipIdx.foldl (fun (a : Nat × State) x =>
          let b := a.2.lensOutput n p q d j src x.2 x.1
          (a.1 + b.1, b.2)) (0, s)
        let s := ((r.2.lensInput n j.win.toNat (d.inputBlocks p q src)).setNum (Reg.LNS.LAST_SAT n) r.1).incS (Reg.LNS.SAT_CNT n) r.1
        let s := s.when (decide ((s.reg (Reg.LNS.SAT_THRESH n)).toNat < r.1)) fun s =>
          s.raise (U.lns n) 11 (s.evWin j.win.toNat)
        let s := ((s.incW (Reg.LNS.FRAMES n)).setNum (Reg.LNS.LAST_CHARGE n) d.charge).setReg (Reg.LNS.LAST_ELAPSED n) elapsed
        let ratio := min 2047 (1000 * elapsed.toNat / d.charge)
        let s := s.when (decide (s.rfld (Reg.LNS.MAX_RATIO n) 10 0 < ratio)) fun s => s.setNum (Reg.LNS.MAX_RATIO n) ratio
        s.setLns n (some { j with done := true })

end Sys2Proof.Machine
end

