-- ==== Sys2Proof/Machine/Met.lean ====
section
/-!
DEFINITION. The commands of the meter die and of the bridge (16_meter_die). The meter die's own commands act whatever
the core die does (R8, R406, R445); those of MET act while the core die runs.
-/
namespace Sys2Proof.Machine

/-- A command of the meter die: with both supplies lost nothing of it happens (R418). -/
def onMeter (s : State) (f : Meter → Meter) : Res :=
  .next (if s.meter.stopped then s else { s with meter := f s.meter })

/-- QUADRATURE_COUNT (R408, R409, R411): the levels of A and B after an edge. -/
def execQuadratureCount (ch1 a b : Bool) (s : State) : Res :=
  onMeter s fun m =>
    let q := if ch1 then m.ch1 else m.ch0
    let new : BitVec 2 := BitVec.ofNat 2 (2 * b2n a + b2n b)
    let put (m : Meter) (q : QuadChan) : Meter := if ch1 then { m with ch1 := q } else { m with ch0 := q }
    match quadStep q.ab new with
    | none => put m { q with ab := new, seqErr := q.seqErr + 1 }
    | some d =>
      let m := put m { q with ab := new }
      if d = 0 then m else (m.count ch1 d).judge

/-- Z_PERIOD (R411): a Z edge ends a period; the first edge only begins one. -/
def execZPeriod (ch1 : Bool) (s : State) : Res :=
  onMeter s fun m =>
    let q := if ch1 then m.ch1 else m.ch0
    let ppr := if ch1 then m.params.ppr1 else m.params.ppr0
    let n := q.zCount.natAbs
    let good := decide (4 * ppr ≤ n + 2 ∧ n ≤ 4 * ppr + 2)
    let q := { q with zCount := 0, zSeen := true, zBad := if !q.zSeen then q.zBad else if good then 0 else q.zBad + 1 }
    (if ch1 then { m with ch1 := q } else { m with ch0 := q }).judge

/-- SPEED_UPDATE (R410): each millisecond SPEED and MOTION from the last 250 ms; meter time counts it (log 36). -/
def execSpeedUpdate (s : State) : Res :=
  onMeter s fun m =>
    let m := { m with recent := (m.slice :: m.recent).take 250, slice := 0, time := m.time + 1 }
    let n := m.n250
    let v := if m.params.k0 = 0 then 65535 else min 65535 (400000 * n.natAbs / m.params.k0)
    { m with speed := BitVec.ofNat 16 v, motion := if m.fault then 3 else if n = 0 then 0 else if 0 < n then 1 else 2 }

/-- SEAL_OPEN (R412): SEAL_CNT counts the opening, on battery as well. -/
def execSealOpen (s : State) : Res :=
  onMeter s fun m => if m.sealOpen then m else { m with sealOpen := true, sealCnt := m.sealCnt + 1 }

/-- SEAL_CLOSE (R413, R414): what was loaded takes effect, PARAM_VER counts once; an image that fails is discarded. -/
def execSealClose (s : State) : Res :=
  onMeter s fun m =>
    if !m.sealOpen then m
    else
      let img := match m.newImage with | some i => if s.fuses.meterImageOk i then some i else none | none => none
      let changed := m.newParams.isSome || m.newKey.isSome || img.isSome
      let m := { m with sealOpen := false, params := m.newParams.getD m.params, newParams := none, newKey := none,
                        newImage := none, paramVer := if changed then m.paramVer + 1 else m.paramVer,
                        key := match m.newKey with | some k => some k | none => m.key }
      match img with
      | some i => { m with prevImage := m.image, image := some i, running := true, fwVer := i.ver }
      | none => m

/-- PARAM_SET (R413, Table 16.2): parameters in range wait for the sealing; the service UART hears nothing else. -/
def execParamSet (p : MeterParams) (s : State) : Res :=
  onMeter s fun m => if m.uart && paramsOk p then { m with newParams := some p } else m

/-- TIME_SET (R413). -/
def execTimeSet (ms : BitVec 48) (s : State) : Res :=
  onMeter s fun m => if m.uart then { m with time := ms, timeValid := true } else m

/-- KEY_LOAD (R413, R415). -/
def execKeyLoad (key : BitVec 128) (s : State) : Res :=
  onMeter s fun m => if m.uart then { m with newKey := some key } else m

/-- FIRMWARE_LOAD (R413). -/
def execFirmwareLoad (image : MeterImage) (s : State) : Res :=
  onMeter s fun m => if m.uart then { m with newImage := some image } else m

/-- The image of an option verifies. -/
def Fuses.meterRuns (f : Fuses) (i : Option MeterImage) : Bool := match i with | some i => f.meterImageOk i | none => false

/-- METER_BOOT (R414): the firmware that verifies runs; the previous image when it fails; none, and no link sends. -/
def execMeterBoot (s : State) : Res :=
  onMeter s fun m =>
    let i := if s.fuses.meterRuns m.image then m.image else m.prevImage
    if s.fuses.meterRuns i then
      { m with image := i, running := true, fwVer := match i with | some i => i.ver | none => m.fwVer }
    else { m with running := false }

/-- INDICATOR_FRAME (R416): the frame counter counts each frame, and the frame carries it (log 35). -/
def execIndicatorFrame (s : State) : Res :=
  if !s.meter.linked then .next s
  else
    let m := { s.meter with frameCtr := s.meter.frameCtr + 1 }
    .next (({ s with meter := m } : State).emit (.indicator m.indFrame))

/-- TIME_ADJ (R417). -/
def execTimeAdj (adj : Int) (ctr mac : Word) (s : State) : Res :=
  onMeter s fun m =>
    if m.linked && m.key.isSome && decide (-1000 ≤ adj ∧ adj ≤ 1000) && leNat (m.adjCode adj ctr) == mac.toNat &&
        ctr == m.frameCtr && !m.sealOpen && m.adjDue then
      let t := BitVec.ofInt 48 (m.time.toNat + adj)
      { m with time := t, lastAdj := some t }
    else m

/-- METER_BATTERY_SWITCH (R418): counting, time and the seal go on; bridge, indicator link and UART are off. -/
def execMeterBatterySwitch (s : State) : Res := onMeter s fun m => { m with battery := true, latched := none }

/-- METER_POWER_FAIL (R418): the state is committed, and the die stops; TIME_VALID is 0 from then on. -/
def execMeterPowerFail (s : State) : Res :=
  onMeter s fun m => { m with stopped := true, timeValid := false, latched := none, recent := [], slice := 0 }

/-- VDD_MET_RETURN (R418): the die leaves battery operation, or restarts with its state kept. -/
def execVddMetReturn (s : State) : Res := .next { s with meter := { s.meter with stopped := false, battery := false } }

/-- METER_RESET (R419): no quantity of Table 16.1 changes; counts in flight are lost, the speed window restarts. -/
def execMeterReset (s : State) : Res :=
  onMeter s fun m =>
    { m with recent := [], slice := 0, latched := none, ch0 := { m.ch0 with zCount := 0, zSeen := false },
             ch1 := { m.ch1 with zCount := 0, zSeen := false } }

/-! ### The bridge -/

/-- SNAPSHOT_REQUEST (R8, R420): on a rising edge of the strobe the meter die latches its state. -/
def execSnapshotRequest (s : State) : Res :=
  if !s.power.strobe then .next s
  else
    let m := s.meter
    let m := if m.linked then { m with latched := some (m.bridgeFrame 1) } else m
    .next { s with power := { s.power with strobe := false }, meter := m }

/-- A frame goes out on the bridge; only a running core die receives it. -/
def State.sendBridge (s : State) (f : Bytes) : State :=
  if s.power.core = .running then { s with met := { s.met with line := s.met.line ++ [f] } } else s

/-- STROBE_FRAME_SEND (R420). -/
def execStrobeFrameSend (s : State) : Res :=
  match s.meter.latched with
  | none => .next s
  | some f =>
    if s.meter.linked then .next (({ s with meter := { s.meter with latched := none } } : State).sendBridge f)
    else .next s

/-- PERIODIC_FRAME_SEND (R420): a strobe frame that waits goes first. -/
def execPeriodicFrameSend (s : State) : Res :=
  if s.meter.linked && s.meter.latched.isNone then .next (s.sendBridge (s.meter.bridgeFrame 0)) else .next s

/-- BRIDGE_FRAME_RX (R420 to R422): the oldest frame on the line reaches MET, with the line's noise on it. -/
def execBridgeFrameRx (noise : Bytes) (s : State) : Res :=
  onCore s fun s =>
    match s.met.line with
    | [] => s
    | f0 :: rest =>
      let f := (List.range f0.length).map fun i => f0.getD i 0 ^^^ noise.getD i 0
      let s := { s with met := { s.met with line := rest } }
      if !bridgeOk f then (s.incS Reg.MET.LINK_ERR_CNT).raise U.met 11
      else
        let s := s.incW Reg.MET.SNAP_CNT
        if leAt f 23 1 = 1 then s.strobeFrame f else if leAt f 23 1 = 0 then s.periodicFrame f else s

/-- STROBE_MISS (R421): 1 ms after a strobe with no strobe frame. -/
def execStrobeMiss (s : State) : Res :=
  onCore s fun s =>
    match s.met.awaiting with
    | none => s
    | some (_, t) =>
      let s := s.passTime (t + 1000000)
      s.when (decide (t + 1000000 ≤ s.clock.time.toNat)) State.missStrobe

/-- Device time of the newest valid periodic frame, or of power-up while none has arrived. -/
def State.metSince (s : State) : Nat := match s.met.newest with | some (_, t) => t | none => 0

/-- METER_ABSENT (R422): 10 ms without a valid periodic frame, once until the next such frame. -/
def execMeterAbsent (s : State) : Res :=
  onCore s fun s =>
    let t := s.metSince + 10000000
    if s.met.absent then s
    else
      let s := s.passTime t
      s.when (decide (t ≤ s.clock.time.toNat)) fun s =>
        (({ s with met := { s.met with absent := true } } : State).clrBit Reg.MET.STATUS 31).raise U.met 10

/-- METER_TIME_COMPARE (R423): at the next whole second that has not been compared. -/
def execMeterTimeCompare (s : State) : Res :=
  onCore s fun s =>
    match s.met.newest with
    | none => s
    | some (f, t) =>
      let k0 := ceilDiv s.clock.time.toNat 1000000000
      let k := if k0 = s.met.cmpSec then k0 + 1 else k0
      if !s.rbit Reg.MET.STATUS 31 then s
      else
        let s := s.passTime (k * 1000000000)
        if s.clock.time.toNat < k * 1000000000 then s
        else
          let now := s.clock.time.toNat
          let mt := leAt f 8 4 + 2 ^ 32 * leAt f 20 2
          let d : Int := (now / 1000000 : Nat) - (mt + (now - t) / 1000000 : Nat)
          let sat : Int := max (-2147483648) (min 2147483647 d)
          let s := s.setNum Reg.MET.TIME_DIFF (wrapN 32 sat)
          let bad := decide ((s.reg Reg.MET.TIME_BOUND).toNat < d.natAbs) || !bitOf (leAt f 22 1) 2
          let s := { s with met := { s.met with diffFail := bad, cmpSec := k } }
          s.when bad fun s => ((s.raise U.met 12).incS Reg.MET.TIME_DIFF_CNT).wake 3

/-- MET_STATUS_READ (R424): STATUS, with the registers 0x044 to 0x05C latched from the newest periodic frame. -/
def execMetStatusRead (s : State) : Res :=
  onCore s fun s =>
    if s.power.warm then s.answer 0
    else
      let s := match s.met.newest with
        | none => s
        | some (f, _) =>
          let s := (s.setNum Reg.MET.DISTANCE_LO (leAt f 0 4)).setNum Reg.MET.DISTANCE_HI (leAt f 4 2)
          let s := (s.setNum Reg.MET.SPEED (leAt f 6 2)).setNum Reg.MET.METER_TIME_LO (leAt f 8 4)
          let s := (s.setNum Reg.MET.METER_TIME_HI (leAt f 20 2)).setNum Reg.MET.VERSIONS (leAt f 26 2 + leAt f 24 2 * 2 ^ 16)
          s.setNum Reg.MET.SEAL_CNT (leAt f 28 4)
      let s := s.setFld Reg.MET.STATUS 15 0 s.metAge
      s.answer (s.reg Reg.MET.STATUS)

/-- SNAPSHOT_WORD0_READ (R424): word 0 of a slot, PERIODIC_SNAP being slot 4, with its words 1 to 7 latched. -/
def execSnapshotWord0Read (i : Fin 5) (s : State) : Res :=
  onCore s fun s =>
    if s.power.warm then s.answer 0
    else
      let n := i.val
      let s := (List.range 8).foldl (fun s w => s.setReg (Reg.MET.STROBE_SNAP n w) (s.snapWord n w)) s
      s.answer (s.snapWord n 0)

end Sys2Proof.Machine
end

