-- ==== Sys2Proof/Machine/Nix.lean ====
section
/-!
DEFINITION. The commands of an Ethernet port's link (R90, R91): TRAINING_ATTEMPT, TRAINING_FAIL, AN_COMPLETE, LINK_UP,
LINK_DOWN. When an attempt is due and how long its parts take is the line's timing, which the commands bring (log 10).
-/
namespace Sys2Proof.Machine

/-- LINK_STATUS.STATE: 0 DOWN, 1 AN, 2 TRAINING, 3 UP, 4 BACKOFF. -/
def State.linkState (s : State) (n : Nat) : Nat := s.rfld (Reg.NIX.LINK_STATUS n) 2 0

/-- Write it. -/
def State.setLink (s : State) (n st : Nat) : State := s.setFld (Reg.NIX.LINK_STATUS n) 2 0 st

/-- The mode runs Clause 73 auto-negotiation: AN_EN in a KR or CR mode (R87, Table 3.1). -/
def State.autoNeg (s : State) (n : Nat) : Bool :=
  let c := s.reg (Reg.NIX.PORT_CFG n)
  tst c 7 && decide (1 ≤ fld c 3 0 ∧ fld c 3 0 ≤ 4)

/-- The reference clock that feeds a port is lost (R447): SD_REFCLK0 for ports 0 to 7, SD_REFCLK1 for 8 to 11. -/
def State.portClockLost (s : State) (n : Nat) : Bool := s.rbit Reg.DEVCTL.CLK_STATUS (if n < 8 then 0 else 1)

/-- TRAIN_LOG.CAUSE codes (Table 3.7). -/
def trainCode : TrainCause → Nat
  | .noSignal => 1 | .anTimeout => 2 | .trainTimeout => 3 | .blockLock => 4 | .fecLock => 5 | .partnerMismatch => 6

/-- An attempt fails (R90): cause and last state in TRAIN_LOG, TRAIN_FAIL, and the port backs off. -/
def State.trainFails (s : State) (n code : Nat) : State :=
  let s := s.setFld (Reg.NIX.TRAIN_LOG n) 7 0 (s.linkState n * 16 + code)
  (s.setLink n 4).raise (U.nix n) 9

/-- TRAINING_ATTEMPT (R90): a running port whose link is not UP and that is making no attempt starts one. -/
def execTrainingAttempt (port : BitVec 4) (s : State) : Res :=
  onUnit s (U.nix port.toNat) fun s =>
    let n := port.toNat
    s.when (s.running (U.nix n) && (s.linkState n == 0 || s.linkState n == 4)) fun s =>
      (s.incHi (Reg.NIX.TRAIN_LOG n)).setLink n (if s.autoNeg n then 1 else 2)

/-- TRAINING_FAIL (R90, R447): the attempt in progress fails; AN_TIMEOUT in auto-negotiation only, the later causes in
training only, PARTNER_MISMATCH at the end of auto-negotiation only; only NO_SIGNAL while the port's clock is lost. -/
def execTrainingFail (port : BitVec 4) (cause : TrainCause) (s : State) : Res :=
  onUnit s (U.nix port.toNat) fun s =>
    let n := port.toNat
    let st := s.linkState n
    let fits := match cause with
      | .noSignal => st == 1 || st == 2
      | .anTimeout | .partnerMismatch => st == 1
      | .trainTimeout | .blockLock | .fecLock => st == 2
    s.when (fits && (cause == .noSignal || !s.portClockLost n)) fun s => s.trainFails n (trainCode cause)

/-- AN_COMPLETE (R90): auto-negotiation ends in training, or in PARTNER_MISMATCH when it did not resolve to the mode
and FEC of PORT_CFG. -/
def execAnComplete (port : BitVec 4) (resolved : Bool) (s : State) : Res :=
  onUnit s (U.nix port.toNat) fun s =>
    let n := port.toNat
    s.when (s.linkState n == 1 && !s.portClockLost n) fun s => if resolved then s.setLink n 2 else s.trainFails n 6

/-- LINK_UP (R90): training, block lock and FEC lock complete. -/
def execLinkUp (port : BitVec 4) (s : State) : Res :=
  onUnit s (U.nix port.toNat) fun s =>
    let n := port.toNat
    s.when (s.linkState n == 2 && !s.portClockLost n) fun s => s.setLink n 3

/-- An UP link goes down (R91): LINK_DOWN, FLAPS, and the ladder restarts at attempt 1. -/
def State.portLinkDown (s : State) (n : Nat) : State :=
  let s := (s.incHi (Reg.NIX.LINK_STATUS n)).setLink n 0
  (s.setFld (Reg.NIX.TRAIN_LOG n) 31 16 0).raise (U.nix n) 8

/-- LINK_DOWN (R91): an UP link loses signal or block lock. -/
def execLinkDown (port : BitVec 4) (s : State) : Res :=
  onUnit s (U.nix port.toNat) fun s =>
    let n := port.toNat
    s.when (s.linkState n == 3) fun s => s.portLinkDown n

end Sys2Proof.Machine
end

