-- ==== Sys2Proof/Machine/Pair.lean ====
section
/-!
DEFINITION. Redundant pairs (17_scale_out): HEARTBEAT_SEND, HEARTBEAT_RX, PEER_LOST, PRIMACY_REQ, PRIMACY_UPDATE (R429 to
R434).
-/
namespace Sys2Proof.Machine

/-! ### Heartbeats (R429 to R431) -/

/-- DEVCTL.NODE.NUM. -/
def State.node (s : State) : Nat := s.rfld Reg.DEVCTL.NODE 15 0

/-- PRIMACY.CLAIM. -/
def State.claim (s : State) : Bool := s.rbit Reg.DEVCTL.PRIMACY 31

/-- The payload of Table 17.2. -/
def State.heartbeat (s : State) : Bytes :=
  let b := leBytes 2 0x4842 ++ [1, BitVec.ofNat 8 (b2n (s.rbit Reg.DEVCTL.PEER_STATUS 31) * 2 + b2n s.claim)] ++
    leBytes 2 s.node ++ [0, 0] ++ leBytes 4 (s.reg Reg.DEVCTL.PRIMACY_TERM).toNat ++ leBytes 5 s.clock.epoch.toNat ++
    [0, 0, 0] ++ leBytes 4 (s.reg Reg.PLE.ACTIVE_PLAN_ID).toNat ++ [0, 0, 0, 0]
  b ++ leBytes 4 (crc32c b)

/-- HEARTBEAT_SEND (R429): one per epoch, when the phase reaches HB_PHASE; a port that cannot send loses it. -/
def execHeartbeatSend (s : State) : Res :=
  onCore s fun s =>
    let cfg := s.reg Reg.DEVCTL.PAIR_CFG
    s.when (tst cfg 31 && s.ticking && s.pair.sentEpoch != some s.clock.epoch) fun s =>
      let p := s.rfld Reg.DEVCTL.HB_PHASE 23 0
      let s := s.passPhase p
      s.when (s.reached p) fun s =>
        let n := fld cfg 27 24
        let v := s.reg Reg.DEVCTL.HB_VLAN
        let s : State := { s with pair := { s.pair with sentEpoch := some s.clock.epoch } }
        s.when (s.running (U.nix n) && s.linkUp n) fun s =>
          s.transmit n (buildEth
            (beBytes 2 (s.rfld Reg.DEVCTL.HB_MAC_HI 15 0) ++ beBytes 4 (s.reg Reg.DEVCTL.HB_MAC_LO).toNat) (s.portMac n)
            (if tst v 31 then some (fld v 30 28, fld v 11 0) else none) 0x88B5 s.heartbeat)

/-- A heartbeat is valid (R430). -/
def State.hbValid (s : State) (b : Bytes) : Bool :=
  let h := sliceB b 0 32
  leAt h 0 2 == 0x4842 && leAt h 2 1 == 1 && leAt h 28 4 == crc32c (h.take 28) &&
  leAt h 3 1 / 4 == 0 && leAt h 6 2 == 0 && leAt h 17 3 == 0 && leAt h 24 4 == 0 &&
  leAt h 4 2 == s.rfld Reg.DEVCTL.PAIR_CFG 15 0

/-- A valid heartbeat (R431): PEER_STATUS, PEER_TERM, HB_RX_CNT, and what the boundary compares. -/
def State.hbTake (s : State) (b : Bytes) : State :=
  let claim := bitOf (leAt b 3 1) 0
  let term := BitVec.ofNat 32 (leAt b 8 4)
  let skew := leAt b 12 5 != s.clock.epoch.toNat
  let diff := leAt b 20 4 != (s.reg Reg.PLE.ACTIVE_PLAN_ID).toNat
  let st := s.reg Reg.DEVCTL.PEER_STATUS
  let alive := tst st 31 || decide (fld st 7 0 < s.rfld Reg.DEVCTL.PAIR_CFG 23 16)
  let s := s.setReg Reg.DEVCTL.PEER_STATUS
    (putBits st 31 28 (b2n alive * 8 + b2n claim * 4 + b2n skew * 2 + b2n diff))
  let s := (s.setReg Reg.DEVCTL.PEER_TERM term).incW Reg.DEVCTL.HB_RX_CNT
  let s : State := { s with pair := { s.pair with got := some (claim, term, BitVec.ofNat 16 (leAt b 4 2)) } }
  s.when skew fun s => s.raise U.devctl 9

/-- HEARTBEAT_RX (R430, R431): the pair logic takes the oldest frame handed over. -/
def execHeartbeatRx (s : State) : Res :=
  onCore s fun s =>
    match s.pair.inbox with
    | [] => s
    | b :: rest =>
      let s : State := { s with pair := { s.pair with inbox := rest } }
      if s.hbValid b then s.hbTake b else (s.incS Reg.DEVCTL.HB_BAD_CNT).raise U.devctl 8

/-- MISSED has reached HB_MISS at a boundary (R431). -/
def State.peerLost (s : State) : State :=
  s.when s.pair.lostOwed fun s =>
    let s : State := { s with pair := { s.pair with lostOwed := false } }
    (s.clrBit Reg.DEVCTL.PEER_STATUS 31).raise U.devctl 10

/-- PEER_LOST (R431): what a boundary owes; EPOCH_BOUNDARY itself leaves nothing owed (log 85). -/
def execPeerLost (s : State) : Res := onCore s State.peerLost

/-! ### Primacy (R432 to R434) -/

/-- PRIMACY_REQ (R432): a claim whose term is below PRIMACY_TERM or PEER_TERM is refused. -/
def execPrimacyReq (value : Word) (s : State) : Res :=
  onReg s U.devctl Reg.DEVCTL.PRIMACY_REQ fun s =>
    let term := s.reg Reg.DEVCTL.PRIMACY_TERM_REQ
    if tst value 31 ∧ (term < s.reg Reg.DEVCTL.PRIMACY_TERM ∨ term < s.reg Reg.DEVCTL.PEER_TERM) then s.protocol U.devctl
    else
      let e := dueAt s.clock.epoch.toNat s.clock.phase.toNat
      let d : PairDue := { claim := tst value 31, term := term, epoch := BitVec.ofNat 40 e }
      { s.setBit Reg.DEVCTL.PRIMACY 30 with pair := { s.pair with due := some d } }

/-- A peer claim outranks the device's own (R433). -/
def State.outranked (s : State) (term : Word) (node : Nat) : Bool :=
  let own := s.reg Reg.DEVCTL.PRIMACY_TERM
  decide (own < term) || (own == term && decide (node < s.node))

/-- The due request is taken. -/
def State.takePrimacy (s : State) (d : PairDue) : State :=
  let s := s.setReg Reg.DEVCTL.PRIMACY (if d.claim then bit1 31 else 0)
  let s := s.setReg Reg.DEVCTL.PRIMACY_TERM d.term
  { s with pair := { s.pair with due := none } }

/-- The claim falls to a peer claim that outranks it. -/
def State.demote (s : State) : State :=
  match s.pair.ended with
  | some (c, t, n) => s.when (s.claim && c && s.outranked t n.toNat) fun s => (s.clrBit Reg.DEVCTL.PRIMACY 31).raise U.devctl 11
  | none => s

/-- Primacy at a boundary (R433, R434), once for each epoch: the due request and then the demotion. -/
def State.updatePrimacy (s : State) : State :=
  s.when (s.pair.updated != some s.clock.epoch) fun s =>
    let s : State := { s with pair := { s.pair with updated := some s.clock.epoch } }
    let s := match s.pair.due with
      | some d => if d.epoch.toNat ≤ s.clock.epoch.toNat then s.takePrimacy d else s
      | none => s
    s.demote

/-- PRIMACY_UPDATE (R433, R434, R456): the boundary's own work; EPOCH_BOUNDARY has done it for the epoch it starts
(log 85). -/
def execPrimacyUpdate (s : State) : Res := onCore s fun s => s.when s.atBoundary State.updatePrimacy

end Sys2Proof.Machine
end

