-- ==== Sys2Proof/Machine/Pep.lean ====
section
/-!
DEFINITION. The commands of the PCIe endpoint's link, power states, BAR2 window, errors and completions (R339 to R344,
R356 to R364, R461).
-/
namespace Sys2Proof.Machine

/-! ### Training (R343, R344) -/

/-- LINK_STATUS.STATE: 0 DOWN, 1 DETECT, 2 TRAINING, 3 UP, 4 BACKOFF. -/
def State.pcieState (s : State) : Nat := s.rfld Reg.PEP.LINK_STATUS 3 0

/-- The RATE offered in attempt n, counted from 1 (Table 13.2). -/
def ladderRate (n : Nat) : Nat :=
  let k := (n - 1) % 8
  if k < 2 then 6 else if k < 4 then 5 else 4

/-- PCIE_REFCLK is lost (R447). -/
def State.pcieClkLost (s : State) : Bool := s.rbit Reg.DEVCTL.CLK_STATUS 2

/-- PCIE_TRAINING_ATTEMPT (R343): a link that is not up and makes no attempt starts one. -/
def execPcieTrainingAttempt (s : State) : Res :=
  onCore s fun s =>
    s.when (s.running U.pep && (s.pcieState == 0 || s.pcieState == 4)) fun s =>
      let s := { s with pep := { s.pep with attempt := s.pep.attempt + 1 } }
      (s.incHi Reg.PEP.TRAIN_LOG).setFld Reg.PEP.LINK_STATUS 3 0 2

/-- PCIE_TRAINING_FAIL (R343): the LTSSM returns to Detect; cause and furthest state are recorded. -/
def execPcieTrainingFail (cause last : BitVec 4) (s : State) : Res :=
  onCore s fun s =>
    s.when (s.pcieState == 2) fun s =>
      let s := s.setFld Reg.PEP.TRAIN_LOG 15 0 (last.toNat * 256 + ladderRate s.pep.attempt * 16 + cause.toNat)
      (s.setFld Reg.PEP.LINK_STATUS 3 0 4).raise U.pep 11

/-- PCIE_LINK_UP (R339, R343): the link reaches L0 at a rate that the attempt offered, of 16, 32 and 64 GT/s. It is in Flit
mode when the partner supports that; without it 64 GT/s is not reached. -/
def execPcieLinkUp (rate width : BitVec 4) (flit : Bool) (s : State) : Res :=
  onCore s fun s =>
    s.when (s.pcieState == 2 && !s.pcieClkLost && decide (4 ≤ rate.toNat ∧ rate.toNat ≤ ladderRate s.pep.attempt) && decide (width.toNat ≤ 4) &&
        (flit || decide (rate.toNat ≤ 5))) fun s =>
      s.setFld Reg.PEP.LINK_STATUS 15 0 (b2n flit * 2 ^ 15 + width.toNat * 256 + rate.toNat * 16 + 3)

/-- PCIE_LINK_DOWN (R344): a link in L0 goes down, which is host loss. -/
def execPcieLinkDown (s : State) : Res := onCore s State.pcieLost

/-! ### Resets from the host (R362) -/

/-- A warm reset begins: until it completes, BAR0 is not served (R39). -/
def State.warmBegin (s : State) (causeBit : Nat) : State :=
  ({ s with power := { s.power with warm := true } } : State).setBit Reg.DEVCTL.RESET_CAUSE causeBit

/-- HOT_RESET (R344, R362): the link restarts; host loss with cause HOT_RESET. -/
def execHotReset (s : State) : Res := onCore s fun s => s.pcieDrop.hostLoss 2

/-- LINK_DISABLE (R344, R362): the link goes down; host loss with cause LINK_DISABLE. -/
def execLinkDisable (s : State) : Res := onCore s fun s => s.pcieDrop.hostLoss 5

/-- PERST# or FLR (R362): host loss while a stream is not FREE; otherwise a warm reset with RESET_CAUSE.PCIE. -/
def State.funcReset (s : State) (cause : Nat) : State :=
  if s.streamsInUse then s.hostLoss cause else (s.cfgReset false).warmBegin 3

/-- PERST (R362): the link goes down with it. -/
def execPerst (s : State) : Res := onCore s fun s => s.pcieDrop.funcReset 3

/-- FLR (R362). -/
def execFlr (s : State) : Res := onCore s fun s => s.funcReset 4

/-- D3HOT_ENTRY (R361): the function enters D3hot; host loss with cause D3HOT while a stream is not FREE. -/
def execD3hotEntry (s : State) : Res :=
  onCore s fun s =>
    let s := { s with pep := { s.pep with cfg := { s.pep.cfg with d3hot := true } } }
    let s := s.setFld Reg.PEP.LINK_STATUS 14 12 5
    s.when s.streamsInUse fun s => s.hostLoss 6

/-- D3HOT_EXIT (R361): back in D0, the device may make requests and send INTA again. -/
def execD3hotExit (s : State) : Res :=
  onCore s fun s =>
    s.when s.pep.cfg.d3hot fun s =>
      let s := { s with pep := { s.pep with cfg := { s.pep.cfg with d3hot := false } } }
      (s.setFld Reg.PEP.LINK_STATUS 14 12 0).updInta

/-- BUS_MASTER_ENABLE (R364): a GONE device returns to NORMAL. With it takes effect what the host has programmed in
configuration space since (R340, R341, R357, R359, R360; log 8). -/
def execBusMasterEnable (c : HostCfg) (s : State) : Res :=
  onCore s fun s =>
    let s := s.program c
    let s := { s with pep := { s.pep with cfg := { s.pep.cfg with busMaster := true } } }
    (s.when (s.hostState == 2) fun s => s.setFld Reg.PEP.HOSTLOSS_STATUS 1 0 0).updInta

/-- The owed mirror writes that may leave now do. -/
def State.flushMirrors (s : State) : State :=
  if !s.canIssue then s
  else
    let s := (s.liveRings.filter s.idxOwed).foldl State.mirrorIdx s
    (s.liveFences.filter s.fenceOwed).foldl State.mirrorFence s

/-- HOSTLOSS_RELEASE (R363): a FROZEN device becomes NORMAL, writes the mirror of every enabled ring and fence, and
sets ATTN_STATUS.LINK; any other write is ignored with PG_ERR.PROTOCOL. -/
def execHostlossRelease (value : Word) (s : State) : Res :=
  onBus s fun s =>
    if s.hostState = 1 ∧ fld value 15 0 = 0x6F3A then
      let s := s.setFld Reg.PEP.HOSTLOSS_STATUS 1 0 0
      let s := (s.liveRings.filter fun r => s.ringState r == 1 && s.rbit (Reg.RING.CFG r) 22).foldl
        (fun s r => s.setIdxOwed r true) s
      let s := (s.liveFences.filter fun f => s.rbit (Reg.FENCE.CFG f) 30).foldl (fun s f => s.setFenceOwed f true) s
      s.flushMirrors.attn 3
    else s.protocol U.pep

/-- INTERRUPT_DISABLE_WRITE (R356): the Interrupt Disable bit of the Command register. -/
def execInterruptDisableWrite (on : Bool) (s : State) : Res :=
  onCore s fun s =>
    ({ s with pep := { s.pep with cfg := { s.pep.cfg with intDisable := on } } } : State).updInta

/-! ### Link power states (R360) -/

/-- L1_ENTRY (R360, Table 13.10): only with the host's enable bit and PM_CTRL both set, and no non-posted request
outstanding; L1.1 follows L1, and L1.2 follows L1.1 where the host's LTR threshold is met by the LTR reported. -/
def execL1Entry (sub : L1Sub) (s : State) : Res :=
  onCore s fun s =>
    let c := s.pep.cfg.prog
    let pm := s.reg Reg.PEP.PM_CTRL
    let idle := s.pcieState == 3 && s.pep.reads.isEmpty
    match sub with
    | .l1 => s.when (idle && c.l1En && tst pm 0 && decide (s.linkPm < 2)) fun s => s.setFld Reg.PEP.LINK_STATUS 14 12 2
    | .l11 => s.when (idle && c.l11En && tst pm 1 && s.linkPm == 2) fun s => s.setFld Reg.PEP.LINK_STATUS 14 12 3
    | .l12 => s.when (idle && c.l12En && tst pm 1 && decide (c.l12Threshold ≤ ltrNs) && s.linkPm == 3) fun s => s.setFld Reg.PEP.LINK_STATUS 14 12 4

/-- L1_EXIT (R360). -/
def execL1Exit (s : State) : Res :=
  onCore s fun s =>
    s.when (decide (2 ≤ s.linkPm ∧ s.linkPm ≤ 4)) fun s => s.setFld Reg.PEP.LINK_STATUS 14 12 0

/-- L0P_ENTRY (R360, Table 13.10): in Flit mode, from L0, with the host's enable bit and PM_CTRL. -/
def execL0pEntry (s : State) : Res :=
  onCore s fun s =>
    s.when (s.pcieState == 3 && s.rbit Reg.PEP.LINK_STATUS 15 && s.linkPm == 0 && s.pep.cfg.prog.l0pEn && s.rbit Reg.PEP.PM_CTRL 2)
      fun s => s.setFld Reg.PEP.LINK_STATUS 14 12 1

/-- L0P_EXIT (R360): the link regains its full width. -/
def execL0pExit (s : State) : Res :=
  onCore s fun s => s.when (s.linkPm == 1) fun s => s.setFld Reg.PEP.LINK_STATUS 14 12 0

/-! ### BAR2 (R342) -/

/-- BAR2_ACCESS (R36, R317, R341, R342, R459): an access inside BAR2 goes to device DRAM through port 6. -/
def execBar2Access (off : BitVec 37) (acc : Bar2Acc) (s : State) : Res :=
  onCore s fun s => s.bar2Request off acc

/-! ### Completions (R357, R358, R461) -/

/-- The upload that waits for a read: one that its ring has dropped since gives none. -/
def State.uploadOf (s : State) (ring : BitVec 13) (r : HostRead) : Option Upload :=
  (s.pep.uploads.get (fun _ => none) ring.toNat).filter fun u => u.tag == some r.tag

/-- The bytes a COPY_IN stores when its read did not bring all of them: those it brought, then free values, for what
stands under the poison marker of a block that was not received is not stated (R358; log 135). -/
def State.lostBytes (s : State) (data : Bytes) (n : Nat) : Bytes :=
  (List.range n).map fun i =>
    if i < data.length then data.getD i 0 else Config.freeBits 8 (2 ^ 64 + s.fresh * 2 ^ 40 + i)

/-- What a read of host memory does not bring is treated as poisoned (R358): COPY_IN stores its blocks with the
marker; a ring read yields no entry. -/
def State.readLost (s : State) (r : HostRead) (st : CplStatus) (data : Bytes) : State :=
  match r.by' with
  | .copyIn ring =>
    match s.uploadOf ring r with
    | some u => (s.writeMem U.pep u.devAddr (s.lostBytes data r.len) true).drawn
    | none => s
  | .descriptor _ => s
  | .augment _ e =>
    match s.lnsOf e with
    | some j => s.when (j.tag == some r.tag) fun s => s.setLns e (some { j with tag := none, raw := some (st, []) })
    | none => s

/-- Take a read off the list of those outstanding. -/
def State.endRead (s : State) (tag : Nat) : State :=
  { s with pep := { s.pep with reads := s.pep.reads.filter fun r => r.tag != tag } }

/-- Data for a read arrives whole. -/
def State.readDone (s : State) (r : HostRead) (data : Bytes) : State :=
  match r.by' with
  | .copyIn ring =>
    match s.uploadOf ring r with
    | some u =>
      let s := s.writeMem U.pep u.devAddr (sliceB data 0 r.len)
      { s with pep := { s.pep with uploads := s.pep.uploads.set (fun _ => none) ring.toNat (some { u with finished := true }) } }
    | none => s
  | .descriptor ring =>
    match s.uploadOf ring r with
    | some u =>
      { s with pep := { s.pep with uploads := s.pep.uploads.set (fun _ => none) ring.toNat (some { u with raw := some (sliceB data 0 64) }) } }
    | none => s
  | .augment _ e =>
    match s.lnsOf e with
    | some j => s.when (j.tag == some r.tag) fun s =>
        s.setLns e (some { j with tag := none, raw := some (.success, sliceB data 0 r.len) })
    | none => s

/-- The requester of a read has given it up: under R172, or with a reset or the end of its ring. -/
def State.gaveUp (s : State) (r : HostRead) : Bool :=
  r.dropped || (match r.by' with
    | .augment _ e => (match s.lnsOf e with | some j => j.tag != some r.tag | none => true)
    | .descriptor _ => false
    | .copyIn _ => false)

/-- A completion for a device read: one that its requester has given up is discarded without error, and one that nothing
waits for is an Unexpected Completion (R357). -/
def State.complete (s : State) (tag : Nat) (status : CplStatus) (data : Bytes) : State :=
  match s.pep.reads.find? (fun r => r.tag = tag) with
  | none => s.aerUnc 16
  | some r =>
    if s.gaveUp r then s.endRead tag else
    let s := s.endRead tag
    match status with
    | .success => s.readDone r data
    | .poisoned => ((s.aerUnc 12).readLost r .poisoned data).ringFault r.by'.ring 2
    | .unsupported => (s.readLost r .unsupported []).ringFault r.by'.ring 7
    | .completerAbort => (s.readLost r .completerAbort []).ringFault r.by'.ring 7

/-- HOST_COMPLETION (R357, R461): the data is used, or its ring goes FAULTED; a late one is discarded. -/
def execHostCompletion (tag : Nat) (status : CplStatus) (data : Bytes) (s : State) : Res :=
  onCore s fun s => s.complete tag status data

/-- Completion timeout in ns (Table 13.8). -/
def ctoNs (code : Nat) : Nat :=
  match code with
  | 1 => 80000 | 2 => 5000000 | 5 => 30000000 | 6 => 120000000 | 9 => 500000000 | 10 => 2000000000
  | 13 => 8000000000 | 14 => 30000000000 | _ => 10000000

/-- CPL_TO_LOG.SOURCE of a read. -/
def ReadBy.source : ReadBy → Nat
  | .augment _ _ => 0 | .copyIn _ => 1 | .descriptor _ => 2

/-- CPL_TIMEOUT (R357, R358): the clock is carried to the timeout of Table 13.8; the ring goes FAULTED. A read given up with a
reset or the end of its ring only leaves the list. -/
def execCplTimeout (tag : Nat) (s : State) : Res :=
  onCore s fun s =>
    match s.pep.reads.find? (fun r => r.tag = tag) with
    | none => s
    | some r =>
      let s := (s.endRead tag).passTime (r.time.toNat + ctoNs s.pep.cfg.prog.ctoCode.toNat)
      if r.dropped then s else
      let s := ((s.aerUnc 14).incS Reg.PEP.CPL_TO_CNT).setNum Reg.PEP.CPL_TO_LOG (2 ^ 31 + r.by'.source * 2 ^ 29 + r.by'.ring)
      let s := ((s.raise U.pep 8).attn 4).readLost r .poisoned []
      s.ringFault r.by'.ring 1

/-- TLP_ERROR (R341, R357, R359, Table 13.9; log 168). -/
def execTlpError (e : AerError) (s : State) : Res :=
  onCore s fun s =>
    match e with
    | .receiverError => s.aerCor 0
    | .badTlp => s.aerCor 6
    | .badDllp => s.aerCor 7
    | .replayRollover => s.aerCor 8
    | .replayTimeout => s.aerCor 12
    | .advisoryNonFatal req => (s.aerCor 13).emit (.unsupported req)
    | .correctedInternal => (s.aerCor 14).raise U.pep 2
    | .unexpectedCompletion => s.aerUnc 16
    | .poisonedWrite off data =>
      s.bar2Request off (.write data [] true)
    | .poisonedCompletion tag => s.complete tag .poisoned []
    | .malformed => s.aerUnc 18
    | .receiverOverflow => s.aerUnc 17
    | .flowControl => s.aerUnc 13
    | .dlProtocol recovered => (s.aerUnc 4).when (!recovered) State.pcieLost
    | .uncorrectableInternal => (s.aerUnc 22).raise U.pep 3

end Sys2Proof.Machine
end

