-- ==== Sys2Proof/Machine/Ple.lean ====
section
/-!
DEFINITION. The commands of the plan engine (02_epoch_and_plans): slots, loading, commits, and the events of a window.
-/
namespace Sys2Proof.Machine

/-! ### Slots, loads, commits -/

/-- PLAN_LOAD (R58 to R60): refused with PROTOCOL while any slot is LOADING, or for an IN_USE slot. -/
def execPlanLoad (value : Word) (s : State) : Res :=
  onBus s fun s =>
    let n := fld value 3 0
    if (List.range 16).any (fun i => s.slotState i == 1) ∨ s.slotState n = 4 then s.protocol U.ple
    else
      let s := s.setSlot n 1 0
      { s with ple := { s.ple with loading := some n } }

/-- PLAN_LOAD_DONE (R58): LOADED, or BAD with a reason and PG_ERR.REJECT. -/
def execPlanLoadDone (s : State) : Res :=
  onCore s fun s =>
    match s.ple.loading with
    | none => s
    | some n =>
      let c := s.loadCheck n
      let s := s.readBeats U.ple (s.slotBase n) (s.loadBytes n)
      let s := { s with ple := { s.ple with loading := none } }
      if c = 0 then s.setSlot n 2 0 else (s.setSlot n 3 c).raise U.ple 11

/-- COMMIT (R60, R72, R75). -/
def execCommit (value : Word) (s : State) : Res := onBus s fun s => s.commitWrite value

/-- COMMIT_CANCEL (R76). -/
def execCommitCancel (value : Word) (s : State) : Res := onBus s fun s => s.commitWrite (value ||| bit1 8)

/-- PLAN_CHECK_DONE (R60, R71, R72, Table 2.7). -/
def execPlanCheckDone (s : State) : Res :=
  onCore s fun s =>
    match s.ple.checking with
    | none => s
    | some (n, ph, ep, ok) =>
      let p := s.parsePlan n
      let c := if ok then s.planCheck p else (0x10, none)
      let s := s.when ok fun s => s.readBeats U.ple p.base p.imageSize
      let s := { s with ple := { s.ple with checking := none } }
      let s := s.setFld Reg.PLE.COMMIT_STATUS 15 8 c.1
      let s := match c.2 with
        | some w => (s.setBit Reg.PLE.COMMIT_STATUS 29).setFld Reg.PLE.COMMIT_STATUS 27 16 w
        | none => (s.clrBit Reg.PLE.COMMIT_STATUS 29).setFld Reg.PLE.COMMIT_STATUS 27 16 0
      if c.1 ≠ 0 then
        let s := (s.setCommit 4).raise U.ple 11
        s.when ok fun s => s.setSlot n 2 0
      else
        let late := decide (0xFC0000 < ph.toNat)
        let e := ep + (if late then 2 else 1)
        let s := (s.setCommit (if late then 3 else 2)).setReg64 Reg.PLE.COMMIT_EPOCH_LO Reg.PLE.COMMIT_EPOCH_HI e.toNat
        { s with ple := { s.ple with next := some (p, e) } }

/-- The registers of a slot and their field masks. -/
def slotReg (n : Nat) (r : SlotReg) : Nat × Word :=
  match r with
  | .baseLo => (Reg.PLE.SLOT_BASE_LO n, 0xFFFFF000)
  | .baseHi => (Reg.PLE.SLOT_BASE_HI n, 0x1F)
  | .size => (Reg.PLE.SLOT_SIZE n, 0xFFFFFFFF)

/-- SLOT_CONFIG_WRITE (R85). -/
def execSlotConfigWrite (slot : BitVec 4) (reg : SlotReg) (value : Word) (s : State) : Res :=
  onBus s fun s =>
    let n := slot.toNat
    if s.slotState n = 1 ∨ s.slotState n = 4 then s.protocol U.ple
    else
      let r := slotReg n reg
      (s.setReg r.1 (value &&& r.2)).setSlot n 0 0

/-- STREAM_DL_WRITE (R86). -/
def execStreamDlWrite (n : BitVec 8) (value : Word) (s : State) : Res :=
  onBus s fun s =>
    if s.served n.toNat then s.protocol U.ple else s.setReg (Reg.PLE.STREAM_DL n.toNat) (value &&& 0x03FFFFFF)

/-! ### Windows -/

/-- An event of window w of the plan in effect, while PLE is RUNNING and epochs advance. -/
def onWin (s : State) (w : BitVec 12) (f : State → Plan → PlanWindow → State) : Res :=
  onCore s fun s =>
    match s.ple.plan with
    | none => s
    | some p =>
      match p.windows[w.toNat]? with
      | none => s
      | some e => s.when (s.running U.ple && s.ticking) fun s => f s p e

/-- The next event of window w, while it is one of a kind: every window event that comes before it in the order of R456
happens, then, if it is still of that kind and still to come then, the event itself. -/
def onEvent (s : State) (w : BitVec 12) (kind : State → Plan → PlanWindow → WinRun → Bool) : Res :=
  onWin s w fun s p e =>
    let n := w.toNat
    match (if kind s p e (s.win n) then s.winMoment p n e else none) with
    | none => s
    | some m =>
      let s := s.runBefore (eventKey m n)
      s.when (kind s p e (s.win n) && s.winMoment p n e == some m) fun s => s.winEvent p n e m

/-- WINDOW_OPEN (R61): the phase reaches START. -/
def execWindowOpen (w : BitVec 12) (s : State) : Res := onEvent s w fun _ _ _ r => r.st == .waiting

/-- WINDOW_FIRE (R63): an OPEN window is ready. -/
def execWindowFire (w : BitVec 12) (s : State) : Res := onEvent s w fun s p e _ => s.fires p w.toNat e

/-- WINDOW_SKIP_LATEST (R61, R64): the phase passes LATEST with the window still OPEN; one that is ready before does fire
(R63), and one that R27 blocks waits for its DEADLINE. -/
def execWindowSkipLatest (w : BitVec 12) (s : State) : Res :=
  onEvent s w fun s p e r => r.st == .open && !r.blocked && !s.fires p w.toNat e

/-- WINDOW_DONE (R61): before DEADLINE, with every program and the swap-out complete. -/
def execWindowDone (w : BitVec 12) (s : State) : Res :=
  onEvent s w fun s _ e r => r.st == .fired && s.workDone w.toNat e && !s.reached e.deadline

/-- DEADLINE_FORCE (R67): a FIRED window whose work is not complete before, or an OPEN one under R27, at its DEADLINE. -/
def execDeadlineForce (w : BitVec 12) (s : State) : Res :=
  onEvent s w fun s _ e r =>
    (r.st == .fired && !(s.workDone w.toNat e && !s.reached e.deadline)) || (r.st == .open && r.blocked)

/-- UNIT_ABORT_COMPLETE (R67): the named units have aborted. -/
def execUnitAbortComplete (w : BitVec 12) (s : State) : Res :=
  onWin s w fun s _ e =>
    let r := s.win w.toNat
    s.when (r.st == .forced && !r.left.isEmpty) fun s => (s.setWin w.toNat { r with left := [] }).tryClose w.toNat e

/-- PLE_LOCKSTEP_MISMATCH (R70, R84). -/
def execPleLockstepMismatch (s : State) : Res := onCore s fun s => s.raise U.ple 8

/-- RECORD_ACCEPT (R295). -/
def execRecordAccept (w : BitVec 12) (s : State) : Res := onWin s w fun s p e => s.acceptWin p w.toNat e

end Sys2Proof.Machine
end

