-- ==== Sys2Proof/Machine/Power.lean ====
section
/-!
DEFINITION. Power, reset, clocks and temperature (18_electrical): COLD_RESET, POWER_DOWN, RAIL_FAULT, CLOCK_LOSS,
CLOCK_RETURN, AVS_TARGET_WRITE, TJ_HIGH, THERMAL_TRIP.
-/
namespace Sys2Proof.Machine

/-- The core die after a rise of POR_N, before the boot ROM acts (R445): what lies outside it is kept. -/
def State.repower (s : State) (straps : BitVec 2) : State :=
  { State.cold s.fuses straps s.stw.flash s.stw.svn s.meter with
    pending := s.pending, out := s.out, rdata := s.rdata, fresh := s.fresh }

/-- COLD_RESET (R366, R442, R445, R449): the straps are sampled, the core die is reset, the boot ROM starts. Under
BOOT_SRC 1 to 3 it waits for the host, recording cause STRAP for 2 and 3; under 0 it reads QSPI slot A. -/
def execColdReset (straps : BitVec 2) (s : State) : Res :=
  let s := s.repower straps
  let s := s.when (decide (2 ≤ straps.toNat)) fun s => s.bootFail 7
  .next (s.when (straps != 0) fun s => s.setStage 1)

/-- POWER_DOWN (R441, R449): POR_N low puts the core die in reset, with the pins as R449 states; DRAM, the error log and
any dump are lost as the rails fall. -/
def execPowerDown (s : State) : Res :=
  let s := s.repower s.power.straps
  .next { s with power := { s.power with core := .unpowered } }

/-- R442: PWR_FAULT_N low, core-die clocks stopped, the core die held in reset. -/
def State.coreOff (s : State) : State :=
  { s with power := { s.power with core := .held, faulted := true, pwrFaultN := false } }

/-- RAIL_FAULT (R442): of any watched rail alike; no dump is written. -/
def execRailFault (_rail : Rail) (s : State) : Res := onCore s State.coreOff

/-- Thermal trip of the grade, in quarters of a degree (Table 18.6). -/
def State.tripAt (s : State) : Int := if s.gradeD then 460 else 540

/-- Maximum junction temperature of the grade, in quarters of a degree (Table 18.6). -/
def State.tjMax (s : State) : Int := if s.gradeD then 420 else 500

/-- TEMP.TJ_MAX. -/
def State.temp (s : State) : Int := signedN 12 (s.rfld Reg.DEVCTL.TEMP 11 0)

/-- THERMAL_TRIP (R453): TJ_MAX stayed at or above the trip for 1 ms; as for a rail fault. -/
def execThermalTrip (s : State) : Res := onCore s fun s => s.when (decide (s.tripAt ≤ s.temp)) State.coreOff

/-- TJ_HIGH (R453, R455): a reading of TJ_MAX. Above the grade's maximum THERM_N goes low with TJ_HIGH; at 5 °C below
it is released. -/
def execTjHigh (tj : BitVec 12) (s : State) : Res :=
  onCore s fun s =>
    let v := signedN 12 tj.toNat
    let s := s.setNum Reg.DEVCTL.TEMP tj.toNat
    let s := s.when (decide (signedN 12 (s.rfld Reg.DEVCTL.TJ_PEAK 11 0) < v)) fun s => s.setNum Reg.DEVCTL.TJ_PEAK tj.toNat
    if s.tjMax < v ∧ s.power.thermN then
      let s := { s with power := { s.power with thermN := false } }
      (s.setNum Reg.DEVCTL.THERM_STATUS 1).raise U.devctl 12
    else if v ≤ s.tjMax - 20 ∧ !s.power.thermN then
      let s := { s with power := { s.power with thermN := true } }
      s.setNum Reg.DEVCTL.THERM_STATUS 0
    else s

/-! ### Clocks (R447) -/

/-- The ports of an SD reference clock whose link is UP go down (R91). -/
def State.portsLose (s : State) (lo n : Nat) : State :=
  (List.range n).foldl (fun s i => s.when (s.linkState (lo + i) == 3) fun s => s.portLinkDown (lo + i)) s

/-- A CLK_STATUS bit is set, with PG_ERR.CLK_LOSS. -/
def State.clkLost (s : State) (bit : Nat) : State := (s.setBit Reg.DEVCTL.CLK_STATUS bit).raise U.devctl 13

/-- CLOCK_LOSS (R447): a clock that reads lost already is not lost again; PCIE_REFCLK stopped in L1.1 or L1.2 is not lost;
SYS_XI takes TMU to FAULTED. -/
def execClockLoss (clk : RefClk) (s : State) : Res :=
  onCore s fun s =>
    match clk with
    | .sd0 => s.when (!s.rbit Reg.DEVCTL.CLK_STATUS 0) fun s => (s.clkLost 0).portsLose 0 8
    | .sd1 => s.when (!s.rbit Reg.DEVCTL.CLK_STATUS 1) fun s => (s.clkLost 1).portsLose 8 4
    | .pcie =>
      s.when (!s.rbit Reg.DEVCTL.CLK_STATUS 2 && s.linkPm != 3 && s.linkPm != 4) fun s => (s.clkLost 2).pcieLost
    | .sys =>
      s.when (!s.rbit Reg.DEVCTL.CLK_STATUS 3) fun s =>
        (s.clkLost 3).when (decide (s.runState U.tmu < 3)) fun s => s.enterFaulted U.tmu false

/-- CLOCK_RETURN (R447): the clock's CLK_STATUS bit clears; SYS_XI returns only through a cold reset. -/
def execClockReturn (clk : RefClk) (s : State) : Res :=
  onCore s fun s =>
    match clk with
    | .sd0 => s.clrBit Reg.DEVCTL.CLK_STATUS 0
    | .sd1 => s.clrBit Reg.DEVCTL.CLK_STATUS 1
    | .pcie => s.clrBit Reg.DEVCTL.CLK_STATUS 2
    | .sys => s

/-! ### Adaptive voltage scaling (R443, R444) -/

/-- The target one step of at most 5 mV nearer to the one wanted, on the 5 mV grid within 700 to 850 mV (R443). -/
def avsStep (now want : Nat) : Nat :=
  let w := max 700 (min 850 (want / 5 * 5))
  if now + 5 ≤ w then now + 5 else if w + 5 ≤ now then now - 5 else w

/-- AVS_TARGET_WRITE (R443, R444): the target leaves; without acknowledgement, or with a regulator fault, AVS_FAULT is set
and the last acknowledged target is kept. -/
def execAvsTargetWrite (ack regFault : Bool) (sense : BitVec 10) (s : State) : Res :=
  onCore s fun s =>
    let t := avsStep (s.rfld Reg.DEVCTL.AVS_STATUS 25 16)
      (Config.avsWant s.fuses.avsVolt (BitVec.ofNat 12 (s.rfld Reg.DEVCTL.TEMP 11 0)))
    let s := (s.emit (.avs t)).setFld Reg.DEVCTL.AVS_STATUS 9 0 sense.toNat
    if ack && !regFault then s.setFld Reg.DEVCTL.AVS_STATUS 31 16 t
    else (s.setFld Reg.DEVCTL.AVS_STATUS 31 31 1).raise U.devctl 14

end Sys2Proof.Machine
end

