-- ==== Sys2Proof/Machine/Rings.lean ====
section
/-!
DEFINITION. The commands of rings, UPLOAD copies and fences (R345 to R355, R369, R371, R372).
-/
namespace Sys2Proof.Machine

/-! ### Ring configuration (R347, R348, R369, R372) -/

/-- A write was ignored: STATUS.CFG_IGNORED. -/
def State.cfgIgnored (s : State) (r : Nat) : State := s.setBit (Reg.RING.STATUS r) 8

/-- The bits of CFG that are fields. -/
def ringCfgMask : Word := 0x7FC00000

/-- A CFG write (R347, R348, R369): LOG2_SIZE outside 6 to 16 ignores all of it; the other fields change only while
DISABLED; EN acts by itself, and before SEAL EN 1 does not. -/
def State.ringCfgWrite (s : State) (r : Nat) (v : Word) : State :=
  let cfg := Reg.RING.CFG r
  let log2 := fld v 28 24
  if log2 < 6 ∨ 16 < log2 then s.cfgIgnored r
  else
    let st := s.ringState r
    let old := s.reg cfg
    let rest := v &&& ringCfgMask
    let s := if rest = old &&& ringCfgMask then s
      else if st = 0 then s.setReg cfg ((old &&& ~~~ringCfgMask) ||| rest) else s.cfgIgnored r
    if tst v 31 then
      if st = 0 then
        if !s.isSealed then s.cfgIgnored r
        else
          let s := s.setBit cfg 31
          let s := (s.setNum (Reg.RING.HOST_IDX r) 0).setNum (Reg.RING.DEV_IDX r) 0
          let s := (s.setNum (Reg.RING.FAULT_IDX r) 0).setFld (Reg.RING.STATUS r) 7 4 0
          s.setRing r 1
      else if st = 3 then s.cfgIgnored r
      else s
    else
      let s := s.clrBit cfg 31
      if st = 1 ∨ st = 2 then (s.setRing r 3).setIdxOwed r false else s

/-- RING_ENABLE (R348): CFG written with EN 1. -/
def execRingEnable (r : BitVec 13) (value : Word) (s : State) : Res :=
  onBus s fun s => s.ringCfgWrite r.toNat (value ||| bit1 31)

/-- RING_DISABLE (R348): CFG written with EN 0. -/
def execRingDisable (r : BitVec 13) (value : Word) (s : State) : Res :=
  onBus s fun s => s.ringCfgWrite r.toNat (value &&& ~~~ bit1 31)

/-- What the lens engines have read of a ring is of no use to them any more. -/
def State.forgetAug (s : State) (r : Nat) : State :=
  (List.range 8).foldl (fun s n => match s.lnsOf n with
    | some j => s.when (!j.settled && j.ring == some r) fun s => s.setLns n (some { j with tag := none, raw := none })
    | none => s) s

/-- RING_STOPPED (R348): the accesses begun have completed, or are given up; the ring reads DISABLED. -/
def execRingStopped (r : BitVec 13) (s : State) : Res :=
  onCore s fun s =>
    let n := r.toNat
    s.when (s.ringState n == 3) fun s =>
      let s := ((s.setRing n 0).dropReads fun x => x.by'.ring == n).forgetAug n
      { s with pep := { s.pep with uploads := s.pep.uploads.set (fun _ => none) n none } }

/-- A write to BASE, MIRROR or BIND (R347, R372): only while DISABLED. -/
def State.ringSetup (s : State) (r a mask : Nat) (v : Word) (allowed : Bool) : State :=
  if s.ringState r = 0 ∧ allowed then s.setReg a (v &&& BitVec.ofNat 32 mask) else s.cfgIgnored r

/-- RING_CONFIG_WRITE (R347, R372): BIND refuses a secure fence to a non-secure ring. -/
def execRingConfigWrite (r : BitVec 13) (reg : RingReg) (value : Word) (s : State) : Res :=
  onBus s fun s =>
    let n := r.toNat
    match reg with
    | .baseLo => s.ringSetup n (Reg.RING.BASE_LO n) 0xFFFFF000 value true
    | .baseHi => s.ringSetup n (Reg.RING.BASE_HI n) 0xFFFFFFFF value true
    | .mirrorLo => s.ringSetup n (Reg.RING.MIRROR_LO n) 0xFFFFFFFC value true
    | .mirrorHi => s.ringSetup n (Reg.RING.MIRROR_HI n) 0xFFFFFFFF value true
    | .bind => s.ringSetup n (Reg.RING.BIND n) 0xFF001FFF value (s.ringSecure n || !s.fenceSecure (fld value 12 0))
    | .cfg => s.ringCfgWrite n value

/-- The host produces the entries of the ring (Table 13.3). -/
def State.hostProduced (s : State) (r : Nat) : Bool := s.ringKind r == 1 || s.ringKind r == 2

/-- HOST_IDX_WRITE (R349): the doorbell of an ACTIVE ring; a write beyond the bound, or backwards, faults it. -/
def execHostIdxWrite (r : BitVec 13) (value : Word) (s : State) : Res :=
  onBus s fun s =>
    let n := r.toNat
    if s.ringState n ≠ 1 then s.cfgIgnored n
    else
      let extra := if s.hostProduced n then s.ringSize n else 0
      let room := (s.devIdx n + BitVec.ofNat 32 extra - s.hostIdx n).toNat
      if room < (value - s.hostIdx n).toNat then s.ringFault n 5 else s.setReg (Reg.RING.HOST_IDX n) value

/-- INDEX_MIRROR_WRITE (R350): the owed mirror write of a ring leaves; while FROZEN or GONE it is discarded. -/
def execIndexMirrorWrite (r : BitVec 13) (s : State) : Res :=
  onCore s fun s =>
    let n := r.toNat
    s.when (s.idxOwed n && s.ringState n == 1) fun s =>
      if s.hostState ≠ 0 then (s.setIdxOwed n false).dropOut
      else s.when s.canIssue fun s => s.mirrorIdx n

/-! ### UPLOAD rings (R352, R353) -/

/-- The upload that a ring is being served with. -/
def State.upload (s : State) (r : Nat) : Option Upload := s.pep.uploads.get (fun _ => none) r

/-- Write it. -/
def State.setUpload (s : State) (r : Nat) (u : Option Upload) : State :=
  { s with pep := { s.pep with uploads := s.pep.uploads.set (fun _ => none) r u } }

/-- A descriptor not read yet: its read has this tag. -/
def Upload.fetching (tag : Nat) : Upload :=
  { tag := some tag, raw := none, checked := false, op := 0, hostAddr := 0, devAddr := 0, length := 0, fence := none, finished := false }

/-- The fields of a descriptor (Table 13.6). -/
def Upload.ofBytes (d : Bytes) : Upload :=
  { tag := none, raw := some d, checked := true, op := bitsOf (wordAt d 0) 31 28, hostAddr := leAt d 8 8, devAddr := leAt d 16 8,
    length := wordAt d 6,
    fence := if bitOf (wordAt d 7) 31 then some (BitVec.ofNat 13 (wordAt d 7)) else none, finished := false }

/-- The checks of R353 and R372. -/
def State.uploadOk (s : State) (r : Nat) (d : Bytes) : Bool :=
  let u := Upload.ofBytes d
  decide (u.op ≤ 2) && bitsOf (wordAt d 0) 27 0 == 0 && bitsOf (wordAt d 7) 30 13 == 0 && (d.drop 32).all (· == 0) &&
  u.hostAddr % 64 == 0 && u.devAddr % 64 == 0 && u.length % 64 == 0 && decide (u.length ≤ 67108864) &&
  (u.length != 0 || u.op == 2) && decide (u.devAddr + u.length ≤ s.usable) &&
  (match u.fence with | some f => s.ringSecure r || !s.fenceSecure f.toNat | none => true)

/-- UPLOAD_DESCRIPTOR_FETCH (R352, R353, R371, R372): the next descriptor of an ACTIVE UPLOAD ring is read, at most
four rings being served; once it has arrived it is checked. -/
def execUploadDescriptorFetch (r : BitVec 13) (s : State) : Res :=
  onCore s fun s =>
    let n := r.toNat
    s.when (s.ringState n == 1 && s.ringKind n == 2) fun s =>
      match s.upload n with
      | none =>
        s.when (s.canRead && s.hostIdx n != s.devIdx n && decide (s.pep.uploads.length < 4)) fun s =>
          let a := s.entryAddr n (s.devIdx n)
          if s.winOk (s.ringClass n) false a 64 then (s.setUpload n (some (Upload.fetching s.pep.nextTag))).hostRead (.descriptor r) a 64
          else (s.winFail (s.ringClass n) false false n).ringFault n 3
      | some u =>
        match u.raw with
        | none => s
        | some d =>
          if u.checked then s
          else if s.uploadOk n d then s.setUpload n (some (Upload.ofBytes d)) else s.ringFault n 6

/-- A copy of this kind is due on the ring and its requests may leave. -/
def State.copyDue (s : State) (n op : Nat) : Bool :=
  s.canIssue && s.ringState n == 1 &&
    (match s.upload n with | some u => u.checked && !u.finished && u.op == op | none => false)

/-- COPY_IN (R352, R353, R371): the one read of the host range; its completion stores the data (R357). -/
def execCopyIn (r : BitVec 13) (s : State) : Res :=
  onCore s fun s =>
    let n := r.toNat
    s.when (s.copyDue n 0) fun s =>
      match s.upload n with
      | none => s
      | some u =>
        if u.tag.isSome ∨ !s.canRead then s
        else if s.winOk (s.copyClass n) false u.hostAddr u.length then
          (s.setUpload n (some { u with tag := some s.pep.nextTag })).hostRead (.copyIn r) u.hostAddr u.length
        else (s.winFail (s.copyClass n) false false n).ringFault n 3

/-- COPY_OUT (R352, R353, R371): device DRAM to host memory; a poisoned block poisons the write and faults the ring. -/
def execCopyOut (r : BitVec 13) (s : State) : Res :=
  onCore s fun s =>
    let n := r.toNat
    s.when (s.copyDue n 1) fun s =>
      match s.upload n with
      | none => s
      | some u =>
        if s.winOk (s.copyClass n) true u.hostAddr u.length then
          let bad := s.poisoned u.devAddr u.length
          let s := (s.readBeats U.pep u.devAddr u.length).hostWrite u.hostAddr (s.readMemZ u.devAddr u.length) bad
          if bad then s.ringFault n 2 else s.setUpload n (some { u with finished := true })
        else (s.winFail (s.copyClass n) true false n).ringFault n 3

/-- FENCE_ONLY (R353): nothing is copied. -/
def execFenceOnly (r : BitVec 13) (s : State) : Res :=
  onCore s fun s =>
    let n := r.toNat
    match s.upload n with
    | none => s
    | some u => s.when (u.checked && u.op == 2 && s.ringState n == 1) fun s => s.setUpload n (some { u with finished := true })

/-- UPLOAD_COMPLETE (R353): DEV_IDX advances, then the descriptor's fence, then the ring's fence. -/
def execUploadComplete (r : BitVec 13) (s : State) : Res :=
  onCore s fun s =>
    let n := r.toNat
    match s.upload n with
    | none => s
    | some u =>
      s.when (u.finished && s.ringState n == 1) fun s =>
        let s := s.setUpload n none
        let s := s.setReg (Reg.RING.DEV_IDX n) (s.devIdx n + 1)
        let s := s.when (s.rbit (Reg.RING.CFG n) 22) fun s => s.setIdxOwed n true
        let s := match u.fence with | some f => s.incFence f.toNat 1 | none => s
        s.ringFenceInc n 1

/-! ### Fences (R354, R355, R369) -/

/-- FENCE_INC (R355): adds while EN is 1. -/
def execFenceInc (f : BitVec 13) (value : Word) (s : State) : Res :=
  onBus s fun s => s.incFence f.toNat value.toNat

/-- FENCE_SET (R354, R355): SET_HI and SET_LO load the value together while EN is 0. -/
def execFenceSet (f : BitVec 13) (value : Word) (s : State) : Res :=
  onBus s fun s =>
    s.when (!s.fenceEn f.toNat) fun s =>
      s.setFence f.toNat (BitVec.ofNat 64 ((s.reg (Reg.FENCE.SET_HI f.toNat)).toNat * 2 ^ 32 + value.toNat))

/-- FENCE_MIRROR_WRITE (R354): the mirror write that a change owes leaves, whatever CFG holds by then; while FROZEN or GONE
it is discarded. -/
def execFenceMirrorWrite (f : BitVec 13) (s : State) : Res :=
  onCore s fun s =>
    let n := f.toNat
    s.when (s.fenceOwed n) fun s =>
      if s.hostState ≠ 0 then (s.setFenceOwed n false).dropOut
      else s.when s.canIssue fun s => s.mirrorFence n

/-- VALUE_LO_READ (R39, R354): the low bits; VALUE_HI latches the high ones. -/
def execValueLoRead (f : BitVec 13) (s : State) : Res :=
  onCore s fun s =>
    if s.power.warm then s.answer 0
    else
      let v := s.fenceVal f.toNat
      (s.setNum (Reg.FENCE.VALUE_HI f.toNat) (v.toNat / 2 ^ 32)).answer (BitVec.ofNat 32 v.toNat)

end Sys2Proof.Machine
end

