-- ==== Sys2Proof/Machine/Time.lean ====
section
/-!
DEFINITION. The time unit (02_epoch_and_plans): EPOCH_BOUNDARY, TRIG_IN_EDGE, TRIG_MISS, REPLAY_TARGET_LO, SYNC_MESSAGE,
PDELAY_REQ_RX, PDELAY_REQ_TX, SYNC_TIMEOUT, PPS_IN_EDGE, PPS_OUT_PULSE, PPS_OUT_END, TRIG_OUT_START, TRIG_OUT_END,
EPOCH_LO_READ, TIME_LO_READ (R40 to R52, R82, R83).
-/
namespace Sys2Proof.Machine

/-! ### The epoch boundary (R42, R52, R456) -/

/-- The clock at the start of an epoch: phase 0, device time no earlier than the boundary; TRIG_OUT's settings are taken
up (R52). -/
def State.clockAt (s : State) (start rate count : Nat) : Clock :=
  let c := s.clock
  { c.at (Nat.max c.time.toNat start) 0 with
    epoch := BitVec.ofNat 40 count, epochStart := start, rate := rate, waiting := false, refilled := 0,
    holdHist := (s.rbit Reg.TMU.SYNC_STATUS 1 :: c.holdHist).take 8, trigEnd := [none, none, none, none],
    trigCfg := (List.range 4).map fun n => (s.reg (Reg.TMU.TRIG_OUT_PHASE n), s.reg (Reg.TMU.TRIG_OUT_WIDTH n)) }

/-- MISSED at a boundary (R431), and PEER_LOST when it reaches HB_MISS: a partner lost at an earlier boundary and not yet reported stays owed. -/
def State.pairBoundary (s : State) : State :=
  let p := s.pair
  let s : State := { s with pair := { p with ended := p.got, got := none } }
  s.when (s.rbit Reg.DEVCTL.PAIR_CFG 31) fun s =>
    let old := s.rfld Reg.DEVCTL.PEER_STATUS 7 0
    let new := if p.got.isSome then 0 else min 255 (old + 1)
    let limit := s.rfld Reg.DEVCTL.PAIR_CFG 23 16
    let s := s.setFld Reg.DEVCTL.PEER_STATUS 7 0 new
    let s := s.when (p.got.isSome && decide (0 < limit)) fun s => s.setBit Reg.DEVCTL.PEER_STATUS 31
    s.when (decide (old < limit ∧ limit ≤ new)) fun s => { s with pair := { s.pair with lostOwed := true } }

/-- The streams' RTP arrivals of the epoch that ends move to the history that time stamps are read from (R105). -/
def State.rollSeen (s : State) : State :=
  ((List.range 256).filter fun n => s.streamState n != 0).foldl (fun s n =>
    let x := s.scxOf n
    s.setScx n { x with history := (x.seen :: x.history).take 15, seen := [] }) s

/-- The strobe to the meter die rises (R8, R420); one that is still unanswered has missed (R421). -/
def State.raiseStrobe (s : State) : State :=
  let s := s.missStrobe
  { s with power := { s.power with strobe := true },
           met := { s.met with awaiting := some (s.clock.epoch, s.clock.time.toNat) } }

/-- The epoch in progress ends at device time `start`: the last of its phases. -/
def State.lastPhase (s : State) (start : Nat) : Nat :=
  Nat.max s.clock.phase.toNat (phaseAt s.clock.epochStart s.clock.rate start)

/-- What a boundary does at once, before any write and any window event of the new epoch (R456): the trigger outputs (R52),
a plan change (R73, R74) together with row repair (R77, R276), TRANS_LEVEL's decay (R273), the partner's loss and primacy
(R431, R433, R434), and a change of source (R96). -/
def State.boundaryWork (s : State) : State :=
  let s := (s.planChange s.clock.epoch.toNat).repairRows
  let s := (s.decayAll.pairBoundary.peerLost).updatePrimacy
  s.rollSeen.ssrcChanges

/-- An epoch starts (R42, R456): what was due in the one that ends happens first; then the count and the phase, the
boundary's work, and the new epoch's windows (R61). -/
def State.boundary (s : State) (start rate count : Nat) : State :=
  let s := s.settleWindows (s.lastPhase start)
  let s : State := { s with clock := s.clockAt start rate count, power := { s.power with trigOut := 0 } }
  let s := s.boundaryWork
  ((s.startWins s.clock.epoch.toNat).raiseStrobe).flushLive

/-- The next epoch starts, one on from the count (R42). -/
def State.nextEpoch (s : State) (start rate : Nat) : State := s.boundary start rate (s.clock.epoch.toNat + 1)

/-- TMU counts epochs, or waits for ORIGIN to start epoch 0 (R42). -/
def State.tmuUp (s : State) : Bool := s.runState U.tmu == 1 || s.runState U.tmu == 2

/-- EPOCH_BOUNDARY (R40, R42, R51): device time reaches ORIGIN and epoch 0 starts; or the next boundary of NETWORK time; or
the next epoch that the host has released. -/
def execEpochBoundary (s : State) : Res :=
  onCore s fun s =>
    s.when s.tmuUp fun s =>
      let c := s.clock
      if c.waiting then s.boundary s.origin s.period 0
      else if s.epochSrc = 0 then s.nextEpoch (c.epochStart + c.rate) s.period
      else s.when (s.epochSrc == 2 && decide (c.epoch.toNat + 1 ≤ c.replayTarget.toNat)) fun s =>
        let start := s.origin + (c.epoch.toNat + 1) * s.period
        s.nextEpoch start s.period

/-! ### Trigger source (R47 to R49) -/

/-- The expected boundary: the moment at which the phase would reach 2^24. -/
def State.expected (s : State) : Nat := s.clock.epochStart + s.clock.rate

/-- TRIG_TOL. -/
def State.trigTol (s : State) : Nat := s.rfld Reg.TMU.TRIG_TOL 23 0

/-- Time minus the expected boundary in pu, to the nearest. -/
def State.skew (s : State) : Int :=
  let d : Int := (s.clock.time.toNat : Int) - s.expected
  if s.clock.rate = 0 then 0 else (2 * d * puMax + s.clock.rate) / (2 * s.clock.rate)

/-- The edge is within TRIG_TOL pu of the expected boundary. -/
def State.edgeInTime (s : State) : Bool :=
  decide (((s.clock.time.toNat : Int) - s.expected).natAbs * puMax ≤ s.trigTol * s.clock.rate)

/-- An accepted edge starts an epoch with a given rate, now (R47, R49). -/
def State.edgeEpoch (s : State) (rate : Nat) : State :=
  let now := s.clock.time.toNat
  let s := s.nextEpoch now rate
  { s with clock := { s.clock with lastEdge := some now, sinceEdge := 0 } }

/-- TRIG_IN_EDGE (R47 to R49): in acquisition any edge of the polarity is accepted; then one within TRIG_TOL. -/
def execTrigInEdge (falling : Bool) (s : State) : Res :=
  onCore s fun s =>
    s.when (s.tmuUp && s.epochSrc == 1 && falling == s.rbit Reg.TMU.EPOCH_CFG 2) fun s =>
      if s.rbit Reg.TMU.SYNC_STATUS 2 then (s.clrBit Reg.TMU.SYNC_STATUS 2).edgeEpoch s.period
      else if s.edgeInTime then
        let rate := match s.clock.lastEdge with
          | some t => (s.clock.time.toNat - t) / (s.clock.sinceEdge + 1)
          | none => s.period
        (s.setNum Reg.TMU.TRIG_SKEW (wrapN 24 s.skew)).edgeEpoch rate
      else s.raise U.tmu 10

/-- TRIG_MISS (R48): TRIG_TOL pu after the expected boundary TMU starts the epoch itself. -/
def execTrigMiss (s : State) : Res :=
  onCore s fun s =>
    s.when (s.tmuUp && s.epochSrc == 1 && !s.rbit Reg.TMU.SYNC_STATUS 2) fun s =>
      let at' := s.expected + ceilDiv (s.trigTol * s.clock.rate) puMax
      let s := (s.passTime at').raise U.tmu 9
      let s := s.nextEpoch (Nat.max at' s.clock.time.toNat) s.clock.rate
      { s with clock := { s.clock with sinceEdge := s.clock.sinceEdge + 1 } }

/-- REPLAY_TARGET_LO (R83): the write takes up the target that both registers hold. -/
def execReplayTargetLo (value : Word) (s : State) : Res :=
  onReg s U.tmu Reg.TMU.REPLAY_TARGET_LO fun s =>
    let s := s.setReg Reg.TMU.REPLAY_TARGET_LO value
    let k := BitVec.ofNat 40 (value.toNat + 2 ^ 32 * s.rfld Reg.TMU.REPLAY_TARGET_HI 7 0)
    { s with clock := { s.clock with replayTarget := k } }

/-! ### IEEE 802.1AS (R43 to R45; PRESUMED: the message layouts of the standard, log 62) -/

/-- messageType. -/
def ptpType (b : Bytes) : Nat := beAt b 0 1 % 16

/-- sequenceId. -/
def ptpSeq (b : Bytes) : Nat := beAt b 30 2

/-- The timestamp of a message, in nanoseconds, with its correction field. -/
def ptpTime (b : Bytes) : Int := (beAt b 34 6 * 10 ^ 9 + beAt b 40 4 : Nat) + signedN 64 (beAt b 8 8) / 65536

/-- The 16 bytes of an Announce message that master selection compares. -/
def ptpVector (b : Bytes) : Nat := beAt b 47 16

/-- The grandmaster's identity in such a vector. -/
def gmIdentity (v : Nat) : Nat := v / 2 ^ 16 % 2 ^ 64

/-- Change a PTP instance. -/
def State.setPtp (s : State) (alt : Bool) (p : PtpPort) : State :=
  if alt then { s with sync := { s.sync with alt := p } } else { s with sync := { s.sync with main := p } }

/-- A port's identity as a PTP node: the EUI-64 of its MAC address, port number 1. -/
def State.portIdentity (s : State) (n : Nat) : Bytes :=
  let m := s.portMac n
  m.take 3 ++ [0xFF, 0xFE] ++ m.drop 3 ++ [0, 1]

/-- A correction of device time: it is removed by slewing (R43); in REPLAY mode corrections are ignored (R51), and a
FAULTED TMU's time stands (R46). -/
def State.steer (s : State) (offset : Int) : State :=
  if s.runState U.tmu = 3 ∨ (s.epochSrc = 2 ∧ s.ticking) then s else { s with clock := { s.clock with slew := offset } }

/-- A valid synchronisation on an instance (R44, R45): grandmaster time against the local arrival; on the followed port
HOLDOVER clears and the offset is slewed. The three intervals of R45 count from here. -/
def State.synced (s : State) (alt : Bool) (gmTime : Int) (arrival : Nat) : State :=
  let p := s.ptpOf alt
  let s := s.setPtp alt { p with syncRx := none, valid := p.gm.isSome,
                                 last := if p.gm.isSome then s.clock.time.toNat else p.last }
  s.when (p.gm.isSome && alt == s.followsAlt) fun s =>
    (s.clrBit Reg.TMU.SYNC_STATUS 1).steer (gmTime + p.delay - arrival)

/-- Announce (R44): the better grandmaster stands; a lost one gives way. -/
def PtpPort.announce (p : PtpPort) (v : Nat) : PtpPort :=
  match p.gm with
  | some w => if !p.valid ∨ v ≤ w ∨ gmIdentity v = gmIdentity w then { p with gm := some v } else p
  | none => { p with gm := some v }

/-- The link delay from the four times of a Pdelay exchange. -/
def linkDelay (t1 t2 : Nat) (t3 : Int) (t4 : Nat) : Nat := ((((t4 : Int) - t1) - (t3 - t2)) / 2).toNat

/-- logMessageInterval as nanoseconds; 127 names none. -/
def ptpInterval (b : Bytes) (old : Nat) : Nat :=
  let x := signedN 8 (beAt b 33 1)
  if x = 127 then old else if 0 ≤ x then 10 ^ 9 * 2 ^ x.toNat else 10 ^ 9 / 2 ^ (-x).toNat

/-- The moment at which three sync intervals have passed without a valid message (R45). -/
def PtpPort.lostAt (p : PtpPort) : Nat := p.last + 3 * p.interval

/-- The instance receives valid synchronisation (R44). -/
def State.hears (s : State) (p : PtpPort) : Bool := p.valid && decide (s.clock.time.toNat < p.lostAt)

/-- A message to an instance, by its type: Sync, Pdelay_Resp, Follow_Up, Pdelay_Resp_Follow_Up, Announce. -/
def State.ptpMessage (s : State) (alt : Bool) (b : Bytes) (arrival : Nat) : State :=
  let p := s.ptpOf alt
  let own := sliceB b 44 10 == s.portIdentity (s.syncPort alt)
  match ptpType b with
  | 0 =>
    let p := { p with interval := ptpInterval b p.interval }
    if bitOf (beAt b 6 1) 1 then s.setPtp alt { p with syncRx := some (ptpSeq b, arrival) }
    else (s.setPtp alt p).synced alt (ptpTime b) arrival
  | 3 => s.when (own && p.reqTx.isSome && ptpSeq b == p.reqSeq) fun s =>
      s.setPtp alt { p with resp := some ((ptpTime b).toNat, arrival) }
  | 8 => (match p.syncRx with
    | some (q, t) => if q = ptpSeq b then s.synced alt (ptpTime b) t else s
    | none => s)
  | 10 => (match p.reqTx, p.resp with
    | some t1, some (t2, t4) => s.when (own && ptpSeq b == p.reqSeq) fun s =>
        s.setPtp alt { p with reqTx := none, resp := none, delay := linkDelay t1 t2 (ptpTime b) t4 }
    | _, _ => s)
  | 11 => s.setPtp alt (p.announce (ptpVector b))
  | _ => s

/-- A port's frame belongs to the instance on PORT, or to the one on ALT_PORT. -/
def State.altOf (s : State) (n : Nat) : Bool := n != s.syncPort false

/-- SYNC_MESSAGE (R44, R45): TMU takes the oldest message handed over that is no request. -/
def execSyncMessage (s : State) : Res :=
  onCore s fun s =>
    match s.sync.inbox.findIdx? fun m => ptpType m.2.1 != 2 with
    | none => s
    | some i =>
      let m := s.sync.inbox.getD i (0, [], 0)
      let s : State := { s with sync := { s.sync with inbox := s.sync.inbox.eraseIdx i } }
      s.when (beAt m.2.1 4 1 == s.rfld Reg.TMU.SYNC_CFG 7 0) fun s =>
        s.ptpMessage (s.altOf m.1.toNat) m.2.1 m.2.2.toNat

/-- The header of a message: type, length, flags, sequence number, control and interval fields. -/
def State.ptpHeader (s : State) (n type len flags seq interval : Nat) : Bytes :=
  [BitVec.ofNat 8 (16 + type), 2] ++ beBytes 2 len ++ beBytes 1 (s.rfld Reg.TMU.SYNC_CFG 7 0) ++ [0] ++ beBytes 2 flags ++
    List.replicate 12 0 ++ s.portIdentity n ++ beBytes 2 seq ++ [5, BitVec.ofNat 8 interval]

/-- A timestamp of 48-bit seconds and 32-bit nanoseconds. -/
def ptpStamp (t : Nat) : Bytes := beBytes 6 (t / 10 ^ 9) ++ beBytes 4 (t % 10 ^ 9)

/-- A message leaves a port, to the address that the standard reserves for the link partner. -/
def State.ptpSend (s : State) (n : Nat) (body : Bytes) : State :=
  s.transmit n (buildEth [0x01, 0x80, 0xC2, 0x00, 0x00, 0x0E] (s.portMac n) none 0x88F7 body)

/-- The port can send. -/
def State.portSends (s : State) (n : Nat) : Bool := s.running (U.nix n) && s.linkUp n

/-- PDELAY_REQ_RX (R44): the instance on PORT answers the oldest request; the listening instance drives nothing. -/
def execPdelayReqRx (s : State) : Res :=
  onCore s fun s =>
    match s.sync.inbox.findIdx? fun m => ptpType m.2.1 == 2 with
    | none => s
    | some i =>
      let m := s.sync.inbox.getD i (0, [], 0)
      let b := m.2.1
      let n := m.1.toNat
      let s : State := { s with sync := { s.sync with inbox := s.sync.inbox.eraseIdx i } }
      s.when (beAt b 4 1 == s.rfld Reg.TMU.SYNC_CFG 7 0 && !s.altOf n && s.portSends n) fun s =>
        let who := sliceB b 20 10
        let s := s.ptpSend n (s.ptpHeader n 3 54 0x0200 (ptpSeq b) 0x7F ++ ptpStamp m.2.2.toNat ++ who)
        s.ptpSend n (s.ptpHeader n 10 54 0 (ptpSeq b) 0x7F ++ ptpStamp s.clock.time.toNat ++ who)

/-- PDELAY_REQ_TX (R44): an instance asks its link partner. -/
def execPdelayReqTx (port : BitVec 4) (s : State) : Res :=
  onUnit s (U.nix port.toNat) fun s =>
    let n := port.toNat
    let alt := s.altOf n
    s.when ((!alt || (s.rbit Reg.TMU.SYNC_CFG 31 && n == s.syncPort true)) && s.portSends n) fun s =>
      let p := s.ptpOf alt
      let q := (p.reqSeq + 1) % 65536
      let s := s.setPtp alt { p with reqSeq := q, reqTx := some s.clock.time.toNat, resp := none }
      s.ptpSend n (s.ptpHeader n 2 54 0 q 0 ++ List.replicate 20 0)

/-- The port that TMU follows has lost synchronisation (R44, R45): the other port takes over when it receives valid
synchronisation from the same grandmaster; otherwise holdover. -/
def State.syncLost (s : State) : State :=
  let alt := s.followsAlt
  let p := s.ptpOf alt
  let q := s.ptpOf (!alt)
  let s := s.setPtp alt { p with valid := false, syncRx := none }
  let s := if s.rbit Reg.TMU.SYNC_CFG 31 && s.hears q && p.gm.map gmIdentity == q.gm.map gmIdentity then
      { s with sync := { s.sync with onAlt := !alt } }
    else { s.setBit Reg.TMU.SYNC_STATUS 1 with clock := { s.clock with slew := 0 } }
  s.raise U.tmu 8

/-- SYNC_TIMEOUT (R44, R45): three sync intervals after the last valid message on the followed port. -/
def execSyncTimeout (s : State) : Res :=
  onCore s fun s =>
    s.when (!s.rbit Reg.TMU.SYNC_STATUS 1) fun s =>
      let t := (s.ptpOf s.followsAlt).lostAt
      let s := s.passTime t
      s.when (decide (t ≤ s.clock.time.toNat)) State.syncLost

/-! ### PPS (R46) -/

/-- PPS_IN_EDGE (R46): with IN_REF 1 and no grandmaster, the edge marks a whole second. -/
def execPpsInEdge (s : State) : Res :=
  onCore s fun s =>
    s.when (s.rbit Reg.TMU.PPS_CTRL 1 && !(s.ptpOf s.followsAlt).valid) fun s =>
      let r : Nat := s.clock.time.toNat % 10 ^ 9
      s.steer (if r < 5 * 10 ^ 8 then -(r : Int) else ((10 ^ 9 - r : Nat) : Int))

/-- PPS_OUT_PULSE (R46): PPS_OUT goes high at the next whole second of device time. -/
def execPpsOutPulse (s : State) : Res :=
  onCore s fun s =>
    s.when (s.rbit Reg.TMU.PPS_CTRL 0 && s.runState U.tmu != 3) fun s =>
      let t := s.clock.time.toNat
      let sec := if t % 10 ^ 9 = 0 ∧ t / 10 ^ 9 ≠ s.clock.ppsLast then t / 10 ^ 9 else t / 10 ^ 9 + 1
      let s := s.passTime (sec * 10 ^ 9)
      s.when (decide (s.clock.time.toNat = sec * 10 ^ 9)) fun s =>
        { s with power := { s.power with ppsOut := true },
                 clock := { s.clock with ppsUntil := some (sec * 10 ^ 9 + 10 ^ 6), ppsLast := sec } }

/-- PPS_OUT_END (R46): 1 ms later it returns low. -/
def execPpsOutEnd (s : State) : Res :=
  onCore s fun s =>
    match s.clock.ppsUntil with
    | none => s
    | some t =>
      let s := s.passTime t
      s.when (decide (t ≤ s.clock.time.toNat)) fun s =>
        { s with power := { s.power with ppsOut := false }, clock := { s.clock with ppsUntil := none } }

/-! ### Trigger outputs (R52) -/

/-- TRIG_OUT_START (R52): TRIG_OUT[n] goes high, once in the epoch, under the settings taken up at its boundary. -/
def execTrigOutStart (n : BitVec 2) (s : State) : Res :=
  onCore s fun s =>
    let i := n.toNat
    let cfg := s.clock.trigCfg.getD i (0, 0)
    let p := fld cfg.1 23 0
    let stop := min (p + fld cfg.2 23 0) 0xFFFFFF
    s.when (s.ticking && tst cfg.1 31 && (s.clock.trigEnd.getD i none).isNone && decide (p < stop)) fun s =>
      let s := s.passPhase p
      s.when (s.reached p) fun s =>
        { s with power := { s.power with trigOut := s.power.trigOut ||| BitVec.ofNat 4 (2 ^ i) },
                 clock := { s.clock with trigEnd := modAt s.clock.trigEnd i fun _ => some stop } }

/-- TRIG_OUT_END (R52): it returns low TRIG_OUT_WIDTH[n] pu later, no later than phase 0xFF_FFFF. -/
def execTrigOutEnd (n : BitVec 2) (s : State) : Res :=
  onCore s fun s =>
    let i := n.toNat
    match s.clock.trigEnd.getD i none with
    | none => s
    | some stop =>
      let s := s.passPhase stop
      s.when (s.reached stop) fun s =>
        { s with power := { s.power with trigOut := s.power.trigOut &&& ~~~(BitVec.ofNat 4 (2 ^ i)) } }

/-! ### Reads that latch (R82) -/

/-- A read while the core runs; during a warm reset it answers 0 and has no effect (R39). -/
def onRead (s : State) (f : State → State) : Res := onCore s fun s => if s.power.warm then s.answer 0 else f s

/-- EPOCH_LO_READ (Table 2.11): the low word; EPOCH_HI latches. -/
def execEpochLoRead (s : State) : Res :=
  onRead s fun s =>
    let e := s.clock.epoch.toNat
    (s.setNum Reg.TMU.EPOCH_HI (e / 2 ^ 32)).answer (BitVec.ofNat 32 e)

/-- TIME_LO_READ (Table 2.11): the low word; TIME_HI latches. -/
def execTimeLoRead (s : State) : Res :=
  onRead s fun s =>
    let t := s.clock.time.toNat
    (s.setNum Reg.TMU.TIME_HI (t / 2 ^ 32)).answer (BitVec.ofNat 32 t)

end Sys2Proof.Machine
end

