-- ==== Sys2Proof/Machine/RegCmds.lean ====
section
/-!
DEFINITION. Accesses over BAR0 and what every instance does with them (01_register_pages): REGISTER_WRITE,
LIVE_WRITE_APPLY, UNMAPPED_ACCESS, PARTIAL_ACCESS, RUN_WRITE, INSTANCE_RESET, RESET_COMPLETE, PG_ERR_CLEAR, PG_ERR_INJ,
SRAM_ECC_ERROR, SRAM_ECC_CORRECTED, SOFT_RESET, WARM_RESET_COMPLETE (R14 to R30, R37 to R39).
-/
namespace Sys2Proof.Machine

/-! ### Run state and reset (R20 to R26) -/

/-- RUN_WRITE. -/
def execRunWrite (u : Inst) (run : Bool) (s : State) : Res := onReg s u (pgCtrl u) fun s => s.writeRun u run

/-- A reset begins: RESET reads 1 and RUN 0 (R23); ERC receives no report meanwhile (R388). -/
def State.beginReset (s : State) (u : Inst) : State :=
  let s := s.setNum (pgCtrl u) 2
  if u.blk = .erc then { s with erc := { s.erc with reset := true } } else s

/-- INSTANCE_RESET (R21, R23 to R26, R381): with RESET 1 the value of RUN does not matter; STW's reset is that of its
domain and leaves it STOPPED. -/
def execInstanceReset (u : Inst) (_run : Bool) (s : State) : Res :=
  onReg s u (pgCtrl u) fun s =>
    if u.blk.alwaysRuns then s
    else if u.blk = .stw then s.unitReset u
    else if s.resetRefused u then s.protocol u
    else s.beginReset u

/-- RESET_COMPLETE (R21, R22). -/
def execResetComplete (u : Inst) (s : State) : Res :=
  onUnit s u fun s => s.when (s.resetting u && s.runState u != 4) fun s => s.unitReset u

/-! ### Error registers (R17 to R19) -/

/-- PG_ERR_CLEAR (R18): the bits written 1 clear; with none left, PG_FIRST_ERR and PG_STATIC_LOG no longer hold one. -/
def execPgErrClear (u : Inst) (value : Word) (s : State) : Res :=
  onReg s u (pgErr u) fun s =>
    let s := s.setReg (pgErr u) (s.reg (pgErr u) &&& ~~~value)
    s.when (s.reg (pgErr u) == 0) fun s => ((s.clrBit (pgFirst u) 31).clrBit (pgStatic u) 31).clrBit (pgStatic u) 30

/-- A corrected error of a tile is one of its store: TS_ECC_CORR (Table 9.10). -/
def State.countCorrected (s : State) (u : Inst) : State := if u.blk = .tile then s.incS (Reg.TILE.TS_ECC_CORR u.idx) else s

/-- One injected event (R19, R282): SUSPECT flags a tile with cause INJECTED; WATCHDOG and LOCKSTEP of STW reset the
steward domain as the real events do (R374). DEDUCED (log 157): the condition behind any other event is not made. -/
def State.inject (s : State) (u : Inst) (bit : Nat) : State :=
  if u.blk = .tile ∧ bit = 16 then s.flagTile u.idx 5 true
  else if u.blk = .stw ∧ bit = 9 then s.watchdogReset true
  else if u.blk = .stw ∧ bit = 8 then s.lockstepReset true
  else (if bit = 2 then s.countCorrected u else s).raise u bit none true

/-- PG_ERR_INJ (R19): each defined bit written 1 raises one event. -/
def execPgErrInj (u : Inst) (value : Word) (s : State) : Res :=
  onReg s u (u.base + 0x18) fun s =>
    (maskList (value.toNat &&& errDefined u.blk) 32).foldl (fun s b => s.inject u b) s

/-- SRAM_ECC_ERROR (R20): an uncorrectable error. -/
def execSramEccError (u : Inst) (s : State) : Res :=
  onUnit s u fun s => (s.when (u.blk == .pep) fun s => s.aerUnc 22).raise u 3

/-- SRAM_ECC_CORRECTED (R17): a corrected one. -/
def execSramEccCorrected (u : Inst) (s : State) : Res :=
  onUnit s u fun s => ((s.when (u.blk == .pep) fun s => s.aerCor 14).countCorrected u).raise u 2

/-! ### Warm reset (R37 to R39) -/

/-- SOFT_RESET: any other key, or a stream in use, sets PG_ERR.PROTOCOL and resets nothing. -/
def execSoftReset (value : Word) (s : State) : Res :=
  onReg s U.devctl Reg.DEVCTL.SOFT_RESET fun s =>
    if fld value 15 0 ≠ 0x0DE5 ∨ s.streamsInUse then s.protocol U.devctl else s.warmBegin 1

/-- WARM_RESET_COMPLETE. -/
def execWarmResetComplete (s : State) : Res := onCore s fun s => s.when s.power.warm State.warmDone

/-! ### Live writes (R29) -/

/-- START phases, from the present one on, of this epoch's windows that name an instance. -/
def State.startsOf (s : State) (u : Inst) : List Nat :=
  match s.ple.plan with
  | none => []
  | some p => (p.windows.filter fun e => e.existsIn s.clock.epoch.toNat && (s.needs e).contains u &&
      decide (s.clock.phase.toNat ≤ e.start)).map PlanWindow.start

/-- LIVE_WRITE_APPLY (R29): the writes that an instance has kept take effect at the start of its next window; at once when
it serves none. -/
def execLiveWriteApply (u : Inst) (s : State) : Res :=
  onUnit s u fun s =>
    if !s.servesWindows u then s.applyLive fun v => v = u
    else match (s.startsOf u).min? with
      | none => s
      | some p =>
        let s := s.passPhase p
        s.when (s.reached p) fun s => s.applyLive fun v => v = u

/-! ### Addresses (R14, R15) -/

/-- UNMAPPED_ACCESS (R14): an uncovered address, or an instance that the part does not provide; the directory ROM counts as
covered. -/
def execUnmappedAccess (write : Bool) (addr : BitVec 28) (s : State) : Res :=
  onCore s fun s =>
    let a := addr.toNat
    let read (s : State) (w : Word) : State := if write then s else s.answer w
    if s.power.warm then read s 0
    else match locate a with
      | .rom off => read s (BitVec.ofNat 32 (s.fuses.romWord off))
      | .hole => read (s.noteUnmapped a) 0
      | .page u _ => if s.has u then s else read (s.noteUnmapped a) 0
      | .ring _ _ | .fence _ _ | .dumpWin _ => s

/-- The instance that reports a partial access at an address (R15, R355); none where nothing does. -/
def State.partialUnit (s : State) (a : Nat) : Option Inst :=
  match locate a with
  | .page u _ => if s.has u then some u else none
  | .ring _ _ | .fence _ _ => some U.pep
  | .rom _ | .dumpWin _ | .hole => none

/-- No directory entry covers the address of a unit that is not there (R4, R14). -/
def uncovered (a : Nat) : Bool :=
  match locate a with
  | .hole | .page _ _ => true
  | .rom _ | .ring _ _ | .fence _ _ | .dumpWin _ => false

/-- An access that a warm reset lets through (R39): reads of DEVCTL. -/
def warmPasses (write : Bool) (a : Nat) : Bool := !write && decide (0x10000 ≤ a ∧ a < 0x11000)

/-- PARTIAL_ACCESS (R15): part of a word is enabled: the write is ignored, the read returns 0, and the instance sets
PG_ERR.ACCESS. A RETIRED instance ignores writes without an error (R24). -/
def execPartialAccess (write : Bool) (addr : BitVec 28) (enables : BitVec 4) (s : State) : Res :=
  onCore s fun s =>
    let a := addr.toNat
    let s := if write then s else s.answer 0
    if enables = 0 ∨ enables = 0xF ∨ (s.power.warm ∧ !warmPasses write a) then s
    else match s.partialUnit a with
      | some u => if write ∧ s.runState u = 4 then s else s.access u
      | none => if uncovered a then s.noteUnmapped a else s

/-! ### A write to any register (R28 to R30) -/

/-- The page header (Table 1.2). -/
def writeHeader (u : Inst) (off : Nat) (v : Word) (s : State) : Res :=
  if off = 8 then (if tst v 1 then execInstanceReset u (tst v 0) s else execRunWrite u (tst v 0) s)
  else if off = 0x10 then execPgErrClear u v s
  else if off = 0x14 then onReg s u (pgErrEn u) fun s => s.writeLive u (pgErrEn u) 0xFFFFFFFF v
  else if off = 0x18 then execPgErrInj u v s
  else onReg s u (u.base + off) id

/-- A register that its access codes alone govern. -/
def writePlain (u : Inst) (off : Nat) (v : Word) (s : State) : Res :=
  onReg s u (u.base + off) fun s =>
    match (descsOf u.blk).find? fun d => d.covers off with
    | some d => s.writeFields u (u.base + off) d v
    | none => s

/-- TMU: REPLAY_TARGET_LO is taken up (R83), and some values are refused while STOPPED (R41). -/
def writeTmu (off : Nat) (v : Word) (s : State) : Res :=
  if off = 0x70 then execReplayTargetLo v s
  else match s.tmuRefuses (0x20000 + off) v with
    | some b => onReg s U.tmu (0x20000 + off) fun s => s.raise U.tmu b
    | none => writePlain U.tmu off v s

/-- PLE: LOAD, COMMIT, the slots and the stream deadlines (R58 to R60, R72, R85, R86). -/
def writePle (off : Nat) (v : Word) (s : State) : Res :=
  if off = 0x40 then (if tst v 8 then execCommitCancel v s else execCommit v s)
  else if off = 0x58 then execPlanLoad v s
  else if 0x100 ≤ off ∧ off < 0x200 then
    let n := BitVec.ofNat 4 ((off - 0x100) / 16)
    if off % 16 = 0 then execSlotConfigWrite n .baseLo v s
    else if off % 16 = 4 then execSlotConfigWrite n .baseHi v s
    else if off % 16 = 8 then execSlotConfigWrite n .size v s
    else writePlain U.ple off v s
  else if 0x400 ≤ off ∧ off < 0x800 then execStreamDlWrite (BitVec.ofNat 8 ((off - 0x400) / 4)) v s
  else writePlain U.ple off v s

/-- SCX: CMD (R92). -/
def writeScx (n off : Nat) (v : Word) (s : State) : Res :=
  if off = 0x40 then
    match fld v 1 0 with
    | 1 => execAdmitStream (BitVec.ofNat 8 n) s
    | 2 => execRelease (BitVec.ofNat 8 n) s
    | 3 => execCancel (BitVec.ofNat 8 n) s
    | _ => onReg s (U.scx n) (Reg.SCX.CMD n) id
  else writePlain (U.scx n) off v s

/-- CPM: the host port (R125 to R127). -/
def writeCpm (off : Nat) (v : Word) (s : State) : Res :=
  if off = 0x94 then execAllocReq v s
  else if off = 0xA4 then onReg s U.cpm (0xE0000 + off) fun s => { s with cpm := { s.cpm with freeHi := v &&& 0x1F } }
  else if off = 0xA8 then execFreeAddrLo v s
  else writePlain U.cpm off v s

/-- PEP: HOSTLOSS_RELEASE (R363). -/
def writePep (off : Nat) (v : Word) (s : State) : Res :=
  if off = 0x58 then execHostlossRelease v s else writePlain U.pep off v s

/-- SEC: SEAL_CTRL (R370). -/
def writeSec (off : Nat) (v : Word) (s : State) : Res :=
  if off = 0x40 then execSeal v s else writePlain U.sec off v s

/-- STW: HOST_BOOT (R366); WDT_CFG and FW_VER refuse PCIe (R381). -/
def writeStw (src : Stamp) (off : Nat) (v : Word) (s : State) : Res :=
  if off = 0x44 then execHostBoot v s
  else if (off = 0x50 ∨ off = 0x60) ∧ bitsOf src.toNat 23 16 = 1 then
    onReg s U.stw (0xB00000 + off) fun s => s.protocol U.stw
  else writePlain U.stw off v s

/-- Two writes that one register write makes, in order. -/
def thenDo (r : Res) (f : State → Res) : Res :=
  match r with
  | .next s => f s
  | .fault x => .fault x
  | .refused x => .refused x

/-- MBX: UNLOCK, CTRL and REQ (R377 to R379). -/
def writeMbx (src : Stamp) (n off : Nat) (v : Word) (s : State) : Res :=
  let i := BitVec.ofNat 5 n
  if off = 0x44 then execMbxUnlock src i v s
  else if off = 0x48 then
    if tst v 1 then (if tst v 0 then thenDo (execMbxAck src i s) (execMbxSend src i) else execMbxAck src i s)
    else if tst v 0 then execMbxSend src i s
    else onBus s fun s => if s.mbxBarred n src then s.protocol (U.mbx n) else s.mbxTouch n src
  else if 0x100 ≤ off ∧ off < 0x200 then
    onBus s fun s =>
      let s := s.mbxTouch n src
      if s.mbxBarred n src ∨ s.mbxState n ≠ 0 then s.protocol (U.mbx n)
      else s.setReg (Reg.MBX.REQ n ((off - 0x100) / 4)) v
  else thenDo (onBus s fun s => s.mbxTouch n src) (writePlain (U.mbx n) off v)

/-- A write to a mailbox's page header by its owner also counts as one to the page (R377). -/
def touchHeader (src : Stamp) (u : Inst) (s : State) : Res :=
  if u.blk = .mbx then onBus s fun s => s.mbxTouch u.idx src else .next s

/-- ERC: LOG_HEAD, DUMP_CTRL, and CTRL with its COAL_CLEAR (R390, R393, R403). -/
def writeErc (off : Nat) (v : Word) (s : State) : Res :=
  if off = 0x4C then execLogHeadWrite v s
  else if off = 0x6C then (if tst v 0 then execDumpCtrlRearm s else onReg s U.erc Reg.ERC.DUMP_CTRL id)
  else if off = 0x40 ∧ tst v 31 then thenDo (writePlain U.erc off v s) execCoalClear
  else writePlain U.erc off v s

/-- DEVCTL: SOFT_RESET and PRIMACY_REQ (R39, R432). -/
def writeDevctl (off : Nat) (v : Word) (s : State) : Res :=
  if off = 0x54 then execSoftReset v s
  else if off = 0x98 then execPrimacyReq v s
  else writePlain U.devctl off v s

/-- A register beyond the page header, by its block. -/
def writeBlock (src : Stamp) (u : Inst) (off : Nat) (v : Word) (s : State) : Res :=
  match u.blk with
  | .devctl => writeDevctl off v s
  | .sec => writeSec off v s
  | .tmu => writeTmu off v s
  | .ple => writePle off v s
  | .erc => writeErc off v s
  | .mbx => writeMbx src u.idx off v s
  | .pep => writePep off v s
  | .scx => writeScx u.idx off v s
  | .cpm => writeCpm off v s
  | .egr =>
    if 0x1000 ≤ off ∧ off < 0x5000 ∧ off % 0x100 = 0 then execSinkCfgWrite (BitVec.ofNat 6 ((off - 0x1000) / 0x100)) v s
    else writePlain u off v s
  | .pfb => if off = 0x84 then execRepairReq v s else writePlain u off v s
  | .tile => if off = 0x1240 then execMirrorInj (BitVec.ofNat 7 u.idx) v s else writePlain u off v s
  | .stw => writeStw src off v s
  | .nix | .ing | .dec | .lns | .dmc | .met => writePlain u off v s

/-- A doorbell page (Table 13.4); offsets outside the table ignore writes (R346). -/
def writeRing (r off : Nat) (v : Word) (s : State) : Res :=
  let n := BitVec.ofNat 13 r
  if off = 0 then execRingConfigWrite n .baseLo v s
  else if off = 4 then execRingConfigWrite n .baseHi v s
  else if off = 8 then execRingConfigWrite n .mirrorLo v s
  else if off = 0xC then execRingConfigWrite n .mirrorHi v s
  else if off = 0x10 then execRingConfigWrite n .cfg v s
  else if off = 0x14 then execRingConfigWrite n .bind v s
  else if off = 0x18 then execHostIdxWrite n v s
  else if off = 0x20 ∧ tst v 8 then onBus s fun s => s.clrBit (Reg.RING.STATUS r) 8
  else onBus s id

/-- CFG of a fence: before SEAL an EN 1 does not act (R369). -/
def State.fenceCfg (s : State) (f : Nat) (v : Word) : State :=
  if tst v 31 ∧ !s.isSealed then
    (s.setReg (Reg.FENCE.CFG f) ((s.reg (Reg.FENCE.CFG f) &&& bit1 31) ||| (v &&& bit1 30))).protocol U.pep
  else s.setReg (Reg.FENCE.CFG f) (v &&& 0xC0000000)

/-- A fence (Table 13.7). -/
def writeFence (f off : Nat) (v : Word) (s : State) : Res :=
  let n := BitVec.ofNat 13 f
  if off = 8 then onBus s fun s => s.setReg (Reg.FENCE.MIRROR_LO f) (v &&& 0xFFFFFFF8)
  else if off = 0xC then onBus s fun s => s.setReg (Reg.FENCE.MIRROR_HI f) v
  else if off = 0x10 then onBus s fun s => s.fenceCfg f v
  else if off = 0x14 then execFenceInc n v s
  else if off = 0x18 then execFenceSet n v s
  else if off = 0x1C then onBus s fun s => s.setReg (Reg.FENCE.SET_HI f) v
  else onBus s id

/-- REGISTER_WRITE (R4, R14, R15, R28 to R30): the register at the address takes the write as its access codes and its
chapter's rules give; an address that is no word's is a partial access. -/
def execRegisterWrite (src : Stamp) (addr : BitVec 28) (value : Word) (s : State) : Res :=
  let a := addr.toNat
  if a % 4 ≠ 0 then execPartialAccess true addr 1 s
  else match locate a with
    | .rom _ | .dumpWin _ => onBus s id
    | .hole => onBus s fun s => s.noteUnmapped a
    | .page u off => if off < 0x40 then thenDo (touchHeader src u s) (writeHeader u off value) else writeBlock src u off value s
    | .ring r off => writeRing r off value s
    | .fence f off => writeFence f off value s

end Sys2Proof.Machine
end

