-- ==== Sys2Proof/Machine/VecOps.lean ====
section
/-!
DEFINITION. The vector unit (R247, R248, R257): lanes, the operand fields of a vector instruction, the checks, and what the
composite operations compute.
-/
namespace Sys2Proof.Machine

/-! ### Registers and fields -/

/-- Lane i of register r. -/
def Tile.lane (x : Tile) (r i : Nat) : Word := x.vreg.get (fun _ => 0) (256 * r + i)

/-- All lanes of a register. -/
def Tile.lanes (x : Tile) (r : Nat) : List Word := (List.range 256).map (x.lane r)

/-- Write all lanes of a register. -/
def Tile.setLanes (x : Tile) (r : Nat) (l : List Word) : Tile := { x with vreg := x.vreg.setRange (fun _ => 0) (256 * r) l }

/-- VD. -/
def vdOf (x : TileInsn) : Nat := fld x.w1 31 27
/-- VA. -/
def vaOf (x : TileInsn) : Nat := fld x.w1 26 22
/-- VB. -/
def vbOf (x : TileInsn) : Nat := fld x.w1 21 17
/-- VC. -/
def vcOf (x : TileInsn) : Nat := fld x.w1 16 12
/-- FMT. -/
def vfmt (x : TileInsn) : Nat := fld x.w1 11 8
/-- ZP, an INT8. -/
def vzp (x : TileInsn) : Int := signedN 8 (fld x.w1 7 0)
/-- TYPE 1: INT32. -/
def vint (x : TileInsn) : Bool := x.lo.getLsbD 17
/-- The store address that TS names. -/
def vts (x : TileInsn) : Nat := 64 * fld x.w3 31 16

/-! ### Issue -/

/-- A vector instruction: reserved fields, its region of `size` bytes at TS, and what else it must meet; its result is
computed as it issues, and the vector unit holds it until it completes (R237; log 59). -/
def onVec (s : State) (x : TileInsn) (op size : Nat) (more : State → Nat → TileProg → List (Bool × Nat))
    (act : State → Nat → TileProg → State) : Res :=
  onInsn s x 2 op (fun s t p => firstCause ([(x.lo.toNat % 2 ^ 17 != 0 || dirty x.w3 15 0, 2)] ++
      more s t p ++ [(decide (storeSize < vts x + size), 6)]))
    fun s t p => (act s t p).enqueue t 2 p .vector

/-- No further condition. -/
def noMore : State → Nat → TileProg → List (Bool × Nat) := fun _ _ _ => []

/-- Lanes of VD from lanes of VA, VB and VC. -/
def State.lanewise (s : State) (t : Nat) (x : TileInsn) (f : Word → Word → Word → Word) : State :=
  let y := s.tileOf t
  s.setTile t (y.setLanes (vdOf x) ((List.range 256).map fun i => f (y.lane (vaOf x) i) (y.lane (vbOf x) i) (y.lane (vcOf x) i)))

/-- Every lane of VD from all lanes of VA. -/
def State.allLanes (s : State) (t : Nat) (x : TileInsn) (w : Word) : State :=
  s.setTile t ((s.tileOf t).setLanes (vdOf x) (List.replicate 256 w))

/-- FP32 1 or INT32 1 (CMPLT). -/
def oneOf (int : Bool) : Word := if int then 1 else 0x3F800000

/-- The value of a code, exact in FP32 (LDX): the word, whether it is invalid, and whether FP32 holds it exactly. -/
def ldxWord (f code : Nat) : Word × Bool × Bool :=
  match fmtValue f code with
  | .nan => (0, true, true)
  | .inf n => (infW n, false, true)
  | .fin n v => (toF32 n v, false, decide (((ffFP32.rnd v).sub v).m = 0))

/-- Neighbouring words combined: lanes 2j and 2j + 1. -/
def pairUp (f : Word → Word → Word) : List Word → List Word
  | a :: b :: l => f a b :: pairUp f l
  | l => l

/-- RSUM: pairwise, eight levels for 256 lanes. -/
def pairSum (f : Word → Word → Word) (l : List Word) : Word :=
  ((List.range 8).foldl (fun l _ => pairUp f l) l).headD 0

/-- Signed less than. -/
def i32Lt (a b : Word) : Bool := decide (a.toInt < b.toInt)

/-- The lowest lane that no lane exceeds. -/
def argmaxOf (lt : Word → Word → Bool) (l : List Word) : Nat :=
  ((List.range l.length).find? fun i => l.all fun w => !lt (l.getD i 0) w).getD 0

/-- SCATTER's writes in lane order, so that the highest lane wins; beyond tile store ignored. -/
def Tile.scatter (y : Tile) (ts : Nat) (idx val : List Word) : Tile :=
  (idx.zip val).foldl (fun y p =>
    let a := ts + 4 * p.1.toNat
    if a + 4 ≤ storeSize then y.wr a (leBytes 4 p.2.toNat) else y) y

/-! ### Composite operations (R248, Table 9.8) -/

/-- Word i of the parameter block. -/
def State.param (s : State) (t : Nat) (x : TileInsn) (i : Nat) : Nat := leNat (s.tileRd t (vts x + 4 * i) 4)

/-- Bits of a word that names no such field. -/
def State.paramsFrom (s : State) (t : Nat) (x : TileInsn) (i : Nat) : Bool :=
  (List.range (16 - i)).any fun j => s.param t x (i + j) != 0

/-- A word of tile store. -/
def State.tileW (s : State) (t a : Nat) : Word := (s.tileOf t).rdW a

/-- Score order of TOPK: descending, NaN last. -/
def ranksBefore (a b : Word) : Bool := if isNan a then false else if isNan b then true else f32Lt b a

/-- Insert behind every entry that does not rank after it. -/
def rankInsert (e : Nat × Word) : List (Nat × Word) → List (Nat × Word)
  | [] => [e]
  | h :: l => if ranksBefore e.2 h.2 then e :: h :: l else h :: rankInsert e l

/-- TOPK's result: K pairs (index, score). -/
def topk (scores : List Word) (k : Nat) : List (Nat × Word) :=
  (((List.range scores.length).zip scores).foldl (fun l e => rankInsert e l) []).take k

/-- A box of NMS: x0, y0, x1, y1 and class. -/
abbrev NmsBox := Word × Word × Word × Word × Word

/-- Its area. -/
def boxArea (b : NmsBox) : Word := f32Mul (f32Sub b.2.2.1 b.1) (f32Sub b.2.2.2.1 b.2.1)

/-- Overlap area of two boxes, 0 when empty. -/
def overlapArea (a b : NmsBox) : Word :=
  let w := f32Sub (f32Min a.2.2.1 b.2.2.1) (f32Max a.1 b.1)
  let h := f32Sub (f32Min a.2.2.2.1 b.2.2.2.1) (f32Max a.2.1 b.2.1)
  if f32Lt 0 w && f32Lt 0 h then f32Mul w h else 0

/-- IoU (Table 9.8). -/
def iou (a b : NmsBox) : Word :=
  let i := overlapArea a b
  f32Div i (f32Sub (f32Add (boxArea a) (boxArea b)) i)

/-- NMS: which boxes are kept, in priority order. -/
def nmsKeep (thresh : Word) (classwise : Bool) (boxes : List NmsBox) : List Bool :=
  (boxes.foldl (fun (a : List NmsBox × List Bool) b =>
    let hit := a.1.any fun k => (!classwise || k.2.2.2.2 == b.2.2.2.2) && f32Lt thresh (iou b k)
    if hit then (a.1, a.2 ++ [false]) else (a.1 ++ [b], a.2 ++ [true])) ([], [])).2

/-- Cost ≤ gate, false with a NaN. -/
def f32Le (a b : Word) : Bool := !isNan a && !isNan b && !f32Lt b a

/-- The smallest allowed cost among free rows and columns; ties to the lower row, then the lower column. -/
def bestPair (cost : Nat → Nat → Word) (gate : Word) (rows cols : List Nat) : Option (Nat × Nat) :=
  rows.foldl (fun b r => cols.foldl (fun (b : Option (Nat × Nat)) c =>
    if f32Le (cost r c) gate then
      match b with
      | none => some (r, c)
      | some q => if f32Lt (cost r c) (cost q.1 q.2) then some (r, c) else b
    else b) b) none

/-- ASSIGN: the pairs, at most `fuel` of them. -/
def assignPairs (cost : Nat → Nat → Word) (gate : Word) : Nat → List Nat → List Nat → List (Nat × Nat)
  | 0, _, _ => []
  | fuel + 1, rows, cols =>
    match bestPair cost gate rows cols with
    | none => []
    | some q => q :: assignPairs cost gate fuel (rows.filter (· ≠ q.1)) (cols.filter (· ≠ q.2))

/-- rnd((x - μ)²): exact, rounded once. -/
def sqDiff (a b : Word) : Word :=
  match f32 a, f32 b with
  | .fin _ u, .fin _ v => toF32 false ((u.sub v).mul (u.sub v))
  | _, _ => let d := f32Sub a b; f32Mul d d

/-- LNSTAT of one position: μ and ρ. -/
def lnstat (xs : List Word) (eps : Word) : Word × Word :=
  let c := toF32 false (Dy.ofInt xs.length)
  let mu := f32Div (xs.foldl f32Add 0) c
  let v := f32Div (xs.foldl (fun a x => f32Add a (sqDiff x mu)) 0) c
  (mu, f32Rsqrt (f32Add v eps))

/-- The parameters of SKIPMASK (R257). -/
structure SkipParams where
  stats : Nat
  out : Nat
  ow : Nat
  oh : Nat
  flog2 : Nat
  margin : Nat
  refresh : Nat
  cx : Nat
  deriving DecidableEq, Repr

/-- Read them. -/
def State.skipParams (s : State) (t : Nat) (x : TileInsn) : SkipParams :=
  let p := s.param t x
  { stats := 64 * bitsOf (p 0) 31 16, out := 64 * bitsOf (p 0) 15 0, ow := bitsOf (p 1) 31 16, oh := bitsOf (p 1) 15 0
    flog2 := bitsOf (p 2) 31 28, margin := bitsOf (p 2) 27 24, refresh := bitsOf (p 2) 23 16, cx := 64 * bitsOf (p 3) 31 16 }

/-- Output blocks of 256 positions. -/
def SkipParams.blocks (q : SkipParams) : Nat := ceilDiv (q.ow * q.oh) 256

/-- Columns and rows of the complexity map, from the statistics header; entries are clamped to them (log 60). -/
def State.cxDims (s : State) (t : Nat) (q : SkipParams) : Nat × Nat :=
  let h := s.tileRd t q.stats 64
  (leAt h 8 2, leAt h 10 2)

/-- The header names a complexity map of the window's frame (R257). -/
def State.skipHeaderOk (s : State) (t : Nat) (q : SkipParams) (cap sub : Nat) : Bool :=
  let h := s.tileRd t q.stats 64
  leAt h 0 4 == 0x53544154 && bitOf (leAt h 17 1) 1 && leAt h 12 5 == cap && leAt h 17 1 / 64 == sub

/-- The entries that a row of the complexity map takes: ⌈W_max / 64⌉ of the stream's picture geometry (R158; log 48); with no
geometry in the plan, those of the header. -/
def State.cxPitch (s : State) (t : Nat) (q : SkipParams) : Nat :=
  match s.progOf t with
  | none => (s.cxDims t q).1
  | some p => match s.ple.plan.bind fun x => s.storeGeometry x p.stream.toNat with
    | some d => ceilDiv d.maxW 64
    | none => (s.cxDims t q).1

/-- The complexity entry is STATIC and not CONCEALED (Table 5.12). -/
def State.quiet (s : State) (t : Nat) (q : SkipParams) (cx cy : Nat) : Bool :=
  leNat (s.tileRd t (q.cx + 2 * (cy * s.cxPitch t q + cx)) 2) / 2 ^ 14 == 2

/-- Every entry within MARGIN of position m is quiet. -/
def State.quietAround (s : State) (t : Nat) (q : SkipParams) (m : Nat) : Bool :=
  let d := s.cxDims t q
  let ex := m % q.ow * 2 ^ q.flog2 / 64
  let ey := m / q.ow * 2 ^ q.flog2 / 64
  (List.range (2 * q.margin + 1)).all fun i => (List.range (2 * q.margin + 1)).all fun j =>
    s.quiet t q (min (ex + i - q.margin) (d.1 - 1)) (min (ey + j - q.margin) (d.2 - 1))

/-- Bit b of the skip bitmap (R257). -/
def State.skipBit (s : State) (t : Nat) (q : SkipParams) (n b : Nat) : Bool :=
  (n + b) % q.refresh != 0 &&
  (List.range 256).all fun i => decide (q.ow * q.oh ≤ 256 * b + i) || s.quietAround t q (256 * b + i)

/-- The bitmap. -/
def State.skipMap (s : State) (t : Nat) (q : SkipParams) (ok : Bool) (n : Nat) : Bytes :=
  (List.range (ceilDiv q.blocks 8)).map fun i => BitVec.ofNat 8 <|
    (List.range 8).foldl (fun a j =>
      a + (if ok && decide (8 * i + j < q.blocks) && s.skipBit t q n (8 * i + j) then 2 ^ j else 0)) 0

end Sys2Proof.Machine
end

