-- ==== Sys2Proof/Machine/Vector.lean ====
section
/-!
DEFINITION. The vector instructions and composite operations of a tile program (R247, R248, R257), and their completion.
-/
namespace Sys2Proof.Machine

/-! ### Loads and stores -/

/-- LD: 1 KiB at TS to VD. -/
def execLd (x : TileInsn) (s : State) : Res :=
  onVec s x 0x00 1024 noMore fun s t _ =>
    s.setTile t ((s.tileOf t).setLanes (vdOf x) ((List.range 256).map fun i => (s.tileOf t).rdW (vts x + 4 * i)))

/-- ST: VA to 1 KiB at TS. -/
def execSt (x : TileInsn) (s : State) : Res :=
  onVec s x 0x01 1024 noMore fun s t _ =>
    s.tileWr t (vts x) (((s.tileOf t).lanes (vaOf x)).flatMap fun w => leBytes 4 w.toNat)

/-- LDX: the values of 256 codes, exact in FP32; invalid codes give +0 and count (Table 9.7). An INT32 code that FP32
does not hold gives a free value (log 61). -/
def execLdx (x : TileInsn) (s : State) : Res :=
  onVec s x 0x02 (fmtBytes (vfmt x) 256) noMore fun s t p =>
    let b := s.tileRd t (vts x) (fmtBytes (vfmt x) 256)
    let l := (List.range 256).map fun i => ldxWord (vfmt x) (codeAt (vfmt x) b i)
    let w := ((List.range 256).zip l).map fun q => if q.2.2.2 then q.2.1 else Config.freeBits 32 (s.fresh + q.1)
    let inexact := l.any fun q => !q.2.2
    let s := s.setTile t ((s.tileOf t).setLanes (vdOf x) w)
    let s : State := if inexact then { s with fresh := s.fresh + 256 } else s
    s.countClips t p 0 0 (l.filter (·.2.1)).length

/-- STX: lanes of VA requantised into 256 codes with MUL = IMM and ZP_out = ZP (R201, R202). -/
def execStx (x : TileInsn) (s : State) : Res :=
  onVec s x 0x03 (fmtBytes (vfmt x) 256) (fun _ _ _ => [(vzp x != 0 && !fmtZp (vfmt x), 4)]) fun s t p =>
    let l := ((s.tileOf t).lanes (vaOf x)).map fun w => requant (vfmt x) (f32 w) (f32 x.w2) (vzp x)
    let s := s.tileWr t (vts x) (packCodes (vfmt x) (l.map (·.1)))
    s.countClips t p 0 (l.filter (·.2.1)).length (l.filter (·.2.2)).length

/-! ### Lane by lane -/

/-- ADD. -/
def execAdd (x : TileInsn) (s : State) : Res :=
  onVec s x 0x04 0 noMore fun s t _ => s.lanewise t x fun a b _ => if vint x then a + b else f32Add a b

/-- SUB. -/
def execSub (x : TileInsn) (s : State) : Res :=
  onVec s x 0x05 0 noMore fun s t _ => s.lanewise t x fun a b _ => if vint x then a - b else f32Sub a b

/-- MUL. -/
def execMul (x : TileInsn) (s : State) : Res :=
  onVec s x 0x06 0 noMore fun s t _ => s.lanewise t x fun a b _ => if vint x then a * b else f32Mul a b

/-- FMA: one rounding; INT32 wraps (log 61). -/
def execFma (x : TileInsn) (s : State) : Res :=
  onVec s x 0x07 0 noMore fun s t _ => s.lanewise t x fun a b c => if vint x then a * b + c else f32Fma a b c

/-- MAX. -/
def execMax (x : TileInsn) (s : State) : Res :=
  onVec s x 0x08 0 noMore fun s t _ => s.lanewise t x fun a b _ => if vint x then (if i32Lt a b then b else a) else f32Max a b

/-- MIN. -/
def execMin (x : TileInsn) (s : State) : Res :=
  onVec s x 0x09 0 noMore fun s t _ => s.lanewise t x fun a b _ => if vint x then (if i32Lt b a then b else a) else f32Min a b

/-- CMPLT: 1 when VA < VB, else 0, in TYPE. -/
def execCmplt (x : TileInsn) (s : State) : Res :=
  onVec s x 0x0A 0 noMore fun s t _ => s.lanewise t x fun a b _ =>
    if (if vint x then i32Lt a b else f32Lt a b) then oneOf (vint x) else 0

/-- SEL: VA when VC is not 0, else VB; -0 is 0 (R185). -/
def execSel (x : TileInsn) (s : State) : Res :=
  onVec s x 0x0B 0 noMore fun s t _ => s.lanewise t x fun a b c =>
    if c = 0 ∨ (¬ vint x ∧ c = 0x80000000) then b else a

/-- EXP, FP32 only: INT32 breaks Table 9.7 (log 50). -/
def execExp (x : TileInsn) (s : State) : Res :=
  onVec s x 0x0C 0 (fun _ _ _ => [(vint x, 2)]) fun s t _ => s.lanewise t x fun a _ _ => f32Exp a

/-- RCP, FP32 only. -/
def execRcp (x : TileInsn) (s : State) : Res :=
  onVec s x 0x0D 0 (fun _ _ _ => [(vint x, 2)]) fun s t _ => s.lanewise t x fun a _ _ => f32Rcp a

/-- RSQRT, FP32 only. -/
def execRsqrt (x : TileInsn) (s : State) : Res :=
  onVec s x 0x0E 0 (fun _ _ _ => [(vint x, 2)]) fun s t _ => s.lanewise t x fun a _ _ => f32Rsqrt a

/-- CVT: TYPE 0 INT32 to FP32, TYPE 1 FP32 to INT32. -/
def execCvt (x : TileInsn) (s : State) : Res :=
  onVec s x 0x0F 0 noMore fun s t _ => s.lanewise t x fun a _ _ => if vint x then f32ToI32 a else i32ToF32 a

/-- IMM. -/
def execImm (x : TileInsn) (s : State) : Res :=
  onVec s x 0x10 0 noMore fun s t _ => s.allLanes t x x.w2

/-- LANE: i as INT32. -/
def execLane (x : TileInsn) (s : State) : Res :=
  onVec s x 0x11 0 noMore fun s t _ =>
    s.setTile t ((s.tileOf t).setLanes (vdOf x) ((List.range 256).map fun i => BitVec.ofNat 32 i))

/-! ### Over all lanes -/

/-- RSUM: pairwise, rounding at each addition. -/
def execRsum (x : TileInsn) (s : State) : Res :=
  onVec s x 0x12 0 noMore fun s t _ =>
    s.allLanes t x (pairSum (if vint x then (· + ·) else f32Add) ((s.tileOf t).lanes (vaOf x)))

/-- RMAX; NaN when a lane is one. -/
def execRmax (x : TileInsn) (s : State) : Res :=
  onVec s x 0x13 0 noMore fun s t _ =>
    s.allLanes t x (pairSum (if vint x then (fun a b => if i32Lt a b then b else a) else f32Max) ((s.tileOf t).lanes (vaOf x)))

/-- ARGMAX: the lowest lane holding the maximum, as an INT32; free where a lane is a NaN (log 61). -/
def execArgmax (x : TileInsn) (s : State) : Res :=
  onVec s x 0x14 0 noMore fun s t _ =>
    let l := (s.tileOf t).lanes (vaOf x)
    if !vint x && l.any isNan then (s.allLanes t x (s.freeBits 32)).drawn
    else s.allLanes t x (BitVec.ofNat 32 (argmaxOf (if vint x then i32Lt else f32Lt) l))

/-- GATHER: word VA[i] of the table at TS, 0 beyond tile store. -/
def execGather (x : TileInsn) (s : State) : Res :=
  onVec s x 0x15 0 noMore fun s t _ => s.lanewise t x fun a _ _ =>
    let i := vts x + 4 * a.toNat
    if i + 4 ≤ storeSize then s.tileW t i else 0

/-- SCATTER: word VA[i] of the table at TS takes VB[i]. -/
def execScatter (x : TileInsn) (s : State) : Res :=
  onVec s x 0x16 0 noMore fun s t _ =>
    let y := s.tileOf t
    s.setTile t (y.scatter (vts x) (y.lanes (vaOf x)) (y.lanes (vbOf x)))

/-! ### Composite operations -/

/-- TOPK (Table 9.8). -/
def execTopk (x : TileInsn) (s : State) : Res :=
  onVec s x 0x20 64 (fun s t _ =>
      let p := s.param t x
      let n := p 1
      let k := p 2
      [(s.paramsFrom t x 3, 2), (decide (n < 1 ∨ 65536 < n ∨ k < 1 ∨ min n 4096 < k), 5),
       (decide (storeSize < 64 * bitsOf (p 0) 31 16 + 4 * n ∨ storeSize < 64 * bitsOf (p 0) 15 0 + 8 * k), 6)])
    fun s t _ =>
      let p := s.param t x
      let scores := (List.range (p 1)).map fun i => s.tileW t (64 * bitsOf (p 0) 31 16 + 4 * i)
      s.tileWr t (64 * bitsOf (p 0) 15 0) ((topk scores (p 2)).flatMap fun e => leBytes 4 e.1 ++ leBytes 4 e.2.toNat)

/-- NMS (Table 9.8). -/
def execNms (x : TileInsn) (s : State) : Res :=
  onVec s x 0x21 64 (fun s t _ =>
      let p := s.param t x
      let n := p 1
      [(s.paramsFrom t x 4 || decide (1 < p 3), 2), (decide (4096 < n), 5),
       (decide (storeSize < 64 * bitsOf (p 0) 31 16 + 32 * n ∨ storeSize < 64 * bitsOf (p 0) 15 0 + 4 + n), 6)])
    fun s t _ =>
      let p := s.param t x
      let a := 64 * bitsOf (p 0) 31 16
      let w (i j : Nat) : Word := s.tileW t (a + 32 * i + 4 * j)
      let boxes : List NmsBox := (List.range (p 1)).map fun i => (w i 0, w i 1, w i 2, w i 3, w i 5)
      let keep := nmsKeep (BitVec.ofNat 32 (p 2)) (bitOf (p 3) 0) boxes
      s.tileWr t (64 * bitsOf (p 0) 15 0) (leBytes 4 (keep.filter id).length ++
        keep.map fun b => if b then 1 else 0)

/-- ASSIGN (Table 9.8). -/
def execAssign (x : TileInsn) (s : State) : Res :=
  onVec s x 0x22 64 (fun s t _ =>
      let p := s.param t x
      let rows := bitsOf (p 1) 31 16
      let cols := bitsOf (p 1) 15 0
      [(s.paramsFrom t x 3, 2), (decide (1024 < rows ∨ 1024 < cols), 5),
       (decide (storeSize < 64 * bitsOf (p 0) 31 16 + rows * roundUp (4 * cols) 64 ∨
        storeSize < 64 * bitsOf (p 0) 15 0 + 4 * rows), 6)])
    fun s t _ =>
      let p := s.param t x
      let rows := bitsOf (p 1) 31 16
      let cols := bitsOf (p 1) 15 0
      let cost (r c : Nat) : Word := s.tileW t (64 * bitsOf (p 0) 31 16 + r * roundUp (4 * cols) 64 + 4 * c)
      let l := assignPairs cost (BitVec.ofNat 32 (p 2)) (min rows cols) (List.range rows) (List.range cols)
      s.tileWr t (64 * bitsOf (p 0) 15 0) ((List.range rows).flatMap fun r =>
        leBytes 4 (match l.find? (·.1 == r) with | some q => q.2 | none => 0xFFFFFFFF))

/-- LNSTAT (Table 9.8). -/
def execLnstat (x : TileInsn) (s : State) : Res :=
  onVec s x 0x23 64 (fun s t _ =>
      let p := s.param t x
      let n := bitsOf (p 1) 31 16
      let c := bitsOf (p 1) 15 0
      [(s.paramsFrom t x 3, 2),
       (decide (storeSize < 64 * bitsOf (p 0) 31 16 + 4 * n * c ∨ storeSize < 64 * bitsOf (p 0) 15 0 + 8 * n), 6)])
    fun s t _ =>
      let p := s.param t x
      let n := bitsOf (p 1) 31 16
      let c := bitsOf (p 1) 15 0
      s.tileWr t (64 * bitsOf (p 0) 15 0) ((List.range n).flatMap fun i =>
        let r := lnstat ((List.range c).map fun j => s.tileW t (64 * bitsOf (p 0) 31 16 + 4 * (i * c + j))) (BitVec.ofNat 32 (p 2))
        leBytes 4 r.1.toNat ++ leBytes 4 r.2.toNat)

/-- SKIPMASK (R257). -/
def execSkipmask (x : TileInsn) (s : State) : Res :=
  onVec s x 0x24 64 (fun s t p =>
      let q := s.skipParams t x
      let d := s.cxDims t q
      let e := (s.planWin p.win.toNat).getD default
      let ok := s.skipHeaderOk t q (wrapN 40 ((s.clock.epoch.toNat : Int) - (e.lag : Int))) e.sub
      [(s.paramsFrom t x 4 || s.param t x 2 % 65536 != 0 || s.param t x 3 % 65536 != 0, 2),
       (decide (6 < q.flog2 ∨ 7 < q.margin ∨ q.refresh < 1), 5),
       (decide (storeSize < q.stats + 64 ∨ ok = true ∧ storeSize < q.cx + 2 * s.cxPitch t q * d.2 ∨ storeSize < q.out + ceilDiv q.blocks 8), 6),
       (p.kind != 4, 9)])
    fun s t p =>
      let q := s.skipParams t x
      let e := (s.planWin p.win.toNat).getD default
      let cap := wrapN 40 ((s.clock.epoch.toNat : Int) - (e.lag : Int))
      s.tileWr t q.out (s.skipMap t q (s.skipHeaderOk t q cap e.sub) (4 * cap + e.sub))

/-! ### Completion -/

/-- VECTOR_COMPLETE: the oldest vector instruction's result is written (R236). -/
def execVectorComplete (t : BitVec 7) (s : State) : Res :=
  onFlight s t.toNat 2 fun s _ _ => s.popUnit t.toNat 2

end Sys2Proof.Machine
end

