-- ==== Sys2Proof/Machine/Dispatch.lean ====
section
/-!
DEFINITION. The dispatch: one arm per command, each a direct call of that command's meaning.
-/
namespace Sys2Proof.Machine

def exec (i : Instr) (s : State) : Host.Outcome State Fault Refusal :=
  match i with
  | .coldReset straps => Sys2Proof.Machine.execColdReset straps s
  | .railFault rail => Sys2Proof.Machine.execRailFault rail s
  | .clockLoss clk => Sys2Proof.Machine.execClockLoss clk s
  | .avsTargetWrite ack regFault sense => Sys2Proof.Machine.execAvsTargetWrite ack regFault sense s
  | .tjHigh tj => Sys2Proof.Machine.execTjHigh tj s
  | .thermalTrip => Sys2Proof.Machine.execThermalTrip s
  | .registerWrite src addr value => Sys2Proof.Machine.execRegisterWrite src addr value s
  | .liveWriteApply u => Sys2Proof.Machine.execLiveWriteApply u s
  | .unmappedAccess write addr => Sys2Proof.Machine.execUnmappedAccess write addr s
  | .partialAccess write addr enables => Sys2Proof.Machine.execPartialAccess write addr enables s
  | .runWrite u run => Sys2Proof.Machine.execRunWrite u run s
  | .instanceReset u run => Sys2Proof.Machine.execInstanceReset u run s
  | .resetComplete u => Sys2Proof.Machine.execResetComplete u s
  | .pgErrClear u value => Sys2Proof.Machine.execPgErrClear u value s
  | .pgErrInj u value => Sys2Proof.Machine.execPgErrInj u value s
  | .sramEccError u => Sys2Proof.Machine.execSramEccError u s
  | .softReset value => Sys2Proof.Machine.execSoftReset value s
  | .warmResetComplete => Sys2Proof.Machine.execWarmResetComplete s
  | .epochBoundary => Sys2Proof.Machine.execEpochBoundary s
  | .trigInEdge falling => Sys2Proof.Machine.execTrigInEdge falling s
  | .trigMiss => Sys2Proof.Machine.execTrigMiss s
  | .replayTargetLo value => Sys2Proof.Machine.execReplayTargetLo value s
  | .syncMessage => Sys2Proof.Machine.execSyncMessage s
  | .pdelayReqRx => Sys2Proof.Machine.execPdelayReqRx s
  | .pdelayReqTx port => Sys2Proof.Machine.execPdelayReqTx port s
  | .syncTimeout => Sys2Proof.Machine.execSyncTimeout s
  | .ppsInEdge => Sys2Proof.Machine.execPpsInEdge s
  | .ppsOutPulse => Sys2Proof.Machine.execPpsOutPulse s
  | .ppsOutEnd => Sys2Proof.Machine.execPpsOutEnd s
  | .trigOutStart n => Sys2Proof.Machine.execTrigOutStart n s
  | .trigOutEnd n => Sys2Proof.Machine.execTrigOutEnd n s
  | .epochLoRead => Sys2Proof.Machine.execEpochLoRead s
  | .timeLoRead => Sys2Proof.Machine.execTimeLoRead s
  | .planLoad value => Sys2Proof.Machine.execPlanLoad value s
  | .planLoadDone => Sys2Proof.Machine.execPlanLoadDone s
  | .commit value => Sys2Proof.Machine.execCommit value s
  | .planCheckDone => Sys2Proof.Machine.execPlanCheckDone s
  | .commitCancel value => Sys2Proof.Machine.execCommitCancel value s
  | .slotConfigWrite slot reg value => Sys2Proof.Machine.execSlotConfigWrite slot reg value s
  | .streamDlWrite n value => Sys2Proof.Machine.execStreamDlWrite n value s
  | .windowOpen w => Sys2Proof.Machine.execWindowOpen w s
  | .windowFire w => Sys2Proof.Machine.execWindowFire w s
  | .windowSkipLatest w => Sys2Proof.Machine.execWindowSkipLatest w s
  | .windowDone w => Sys2Proof.Machine.execWindowDone w s
  | .deadlineForce w => Sys2Proof.Machine.execDeadlineForce w s
  | .unitAbortComplete w => Sys2Proof.Machine.execUnitAbortComplete w s
  | .pleLockstepMismatch => Sys2Proof.Machine.execPleLockstepMismatch s
  | .swapInDone t => Sys2Proof.Machine.execSwapInDone t s
  | .swapOutDone t => Sys2Proof.Machine.execSwapOutDone t s
  | .frameRx port frame => Sys2Proof.Machine.execFrameRx port frame s
  | .policeRefill j => Sys2Proof.Machine.execPoliceRefill j s
  | .reorderTimeout n => Sys2Proof.Machine.execReorderTimeout n s
  | .auTimeout n => Sys2Proof.Machine.execAuTimeout n s
  | .nackSend n => Sys2Proof.Machine.execNackSend n s
  | .rrSend n => Sys2Proof.Machine.execRrSend n s
  | .ssrcChange n => Sys2Proof.Machine.execSsrcChange n s
  | .trainingAttempt port => Sys2Proof.Machine.execTrainingAttempt port s
  | .trainingFail port cause => Sys2Proof.Machine.execTrainingFail port cause s
  | .anComplete port resolved => Sys2Proof.Machine.execAnComplete port resolved s
  | .linkUp port => Sys2Proof.Machine.execLinkUp port s
  | .linkDown port => Sys2Proof.Machine.execLinkDown port s
  | .admitStream n => Sys2Proof.Machine.execAdmitStream n s
  | .release n => Sys2Proof.Machine.execRelease n s
  | .cancel n => Sys2Proof.Machine.execCancel n s
  | .allocReq value => Sys2Proof.Machine.execAllocReq value s
  | .allocDone => Sys2Proof.Machine.execAllocDone s
  | .freeAddrLo value => Sys2Proof.Machine.execFreeAddrLo value s
  | .chainReturn => Sys2Proof.Machine.execChainReturn s
  | .chainReturnDone => Sys2Proof.Machine.execChainReturnDone s
  | .decodeChargeStop core => Sys2Proof.Machine.execDecodeChargeStop core s
  | .decodeElapsedAbandon core => Sys2Proof.Machine.execDecodeElapsedAbandon core s
  | .decodeCoreComplete core elapsed => Sys2Proof.Machine.execDecodeCoreComplete core elapsed s
  | .augReadDone e => Sys2Proof.Machine.execAugReadDone e s
  | .augReadTimeout e => Sys2Proof.Machine.execAugReadTimeout e s
  | .lensProgramComplete e elapsed => Sys2Proof.Machine.execLensProgramComplete e elapsed s
  | .nop x => Sys2Proof.Machine.execNop x s
  | .endProg x => Sys2Proof.Machine.execEndProg x s
  | .stage x => Sys2Proof.Machine.execStage x s
  | .waitctr x => Sys2Proof.Machine.execWaitctr x s
  | .waitctrRelease t => Sys2Proof.Machine.execWaitctrRelease t s
  | .emitobj x => Sys2Proof.Machine.execEmitobj x s
  | .mop x => Sys2Proof.Machine.execMop x s
  | .mopComplete t => Sys2Proof.Machine.execMopComplete t s
  | .load x => Sys2Proof.Machine.execLoad x s
  | .store x => Sys2Proof.Machine.execStore x s
  | .xferComplete t => Sys2Proof.Machine.execXferComplete t s
  | .send x => Sys2Proof.Machine.execSend x s
  | .beatLand src => Sys2Proof.Machine.execBeatLand src s
  | .sendComplete t => Sys2Proof.Machine.execSendComplete t s
  | .fusedVectorEntry t => Sys2Proof.Machine.execFusedVectorEntry t s
  | .ld x => Sys2Proof.Machine.execLd x s
  | .st x => Sys2Proof.Machine.execSt x s
  | .ldx x => Sys2Proof.Machine.execLdx x s
  | .stx x => Sys2Proof.Machine.execStx x s
  | .add x => Sys2Proof.Machine.execAdd x s
  | .sub x => Sys2Proof.Machine.execSub x s
  | .mul x => Sys2Proof.Machine.execMul x s
  | .fma x => Sys2Proof.Machine.execFma x s
  | .max x => Sys2Proof.Machine.execMax x s
  | .min x => Sys2Proof.Machine.execMin x s
  | .cmplt x => Sys2Proof.Machine.execCmplt x s
  | .sel x => Sys2Proof.Machine.execSel x s
  | .exp x => Sys2Proof.Machine.execExp x s
  | .rcp x => Sys2Proof.Machine.execRcp x s
  | .rsqrt x => Sys2Proof.Machine.execRsqrt x s
  | .cvt x => Sys2Proof.Machine.execCvt x s
  | .imm x => Sys2Proof.Machine.execImm x s
  | .lane x => Sys2Proof.Machine.execLane x s
  | .rsum x => Sys2Proof.Machine.execRsum x s
  | .rmax x => Sys2Proof.Machine.execRmax x s
  | .argmax x => Sys2Proof.Machine.execArgmax x s
  | .gather x => Sys2Proof.Machine.execGather x s
  | .scatter x => Sys2Proof.Machine.execScatter x s
  | .topk x => Sys2Proof.Machine.execTopk x s
  | .nms x => Sys2Proof.Machine.execNms x s
  | .assign x => Sys2Proof.Machine.execAssign x s
  | .lnstat x => Sys2Proof.Machine.execLnstat x s
  | .skipmask x => Sys2Proof.Machine.execSkipmask x s
  | .vectorComplete t => Sys2Proof.Machine.execVectorComplete t s
  | .sumCheckVerdict t pass vec u => Sys2Proof.Machine.execSumCheckVerdict t pass vec u s
  | .dupCheckVerdict t pass vec u => Sys2Proof.Machine.execDupCheckVerdict t pass vec u s
  | .loadCheckVerdict t pass u => Sys2Proof.Machine.execLoadCheckVerdict t pass u s
  | .transDecay t => Sys2Proof.Machine.execTransDecay t s
  | .repair => Sys2Proof.Machine.execRepair s
  | .mirrorInj t value => Sys2Proof.Machine.execMirrorInj t value s
  | .repairReq value => Sys2Proof.Machine.execRepairReq value s
  | .recordAccept w => Sys2Proof.Machine.execRecordAccept w s
  | .ringDelivery r => Sys2Proof.Machine.execRingDelivery r s
  | .sinkSend k => Sys2Proof.Machine.execSinkSend k s
  | .sinkCfgWrite k value => Sys2Proof.Machine.execSinkCfgWrite k value s
  | .dramRead reqs c ch errs linkFails => Sys2Proof.Machine.execDramRead reqs c ch errs linkFails s
  | .dramWrite unit addr beats => Sys2Proof.Machine.execDramWrite unit addr beats s
  | .writeDrain c ch upsets => Sys2Proof.Machine.execWriteDrain c ch upsets s
  | .refresh c rank pair upsets => Sys2Proof.Machine.execRefresh c rank pair upsets s
  | .refreshRatePoll c rate => Sys2Proof.Machine.execRefreshRatePoll c rate s
  | .hammerWindowReset c => Sys2Proof.Machine.execHammerWindowReset c s
  | .scrubRead c rank block errs => Sys2Proof.Machine.execScrubRead c rank block errs s
  | .migrationSegmentCopy c upsets dstFail => Sys2Proof.Machine.execMigrationSegmentCopy c upsets dstFail s
  | .balInterval => Sys2Proof.Machine.execBalInterval s
  | .dramInitDone c failed => Sys2Proof.Machine.execDramInitDone c failed s
  | .pcieTrainingAttempt => Sys2Proof.Machine.execPcieTrainingAttempt s
  | .pcieTrainingFail cause last => Sys2Proof.Machine.execPcieTrainingFail cause last s
  | .pcieLinkUp rate width flit => Sys2Proof.Machine.execPcieLinkUp rate width flit s
  | .pcieLinkDown => Sys2Proof.Machine.execPcieLinkDown s
  | .hotReset => Sys2Proof.Machine.execHotReset s
  | .linkDisable => Sys2Proof.Machine.execLinkDisable s
  | .perst => Sys2Proof.Machine.execPerst s
  | .flr => Sys2Proof.Machine.execFlr s
  | .d3hotEntry => Sys2Proof.Machine.execD3hotEntry s
  | .busMasterEnable c => Sys2Proof.Machine.execBusMasterEnable c s
  | .hostlossRelease value => Sys2Proof.Machine.execHostlossRelease value s
  | .l1Entry sub => Sys2Proof.Machine.execL1Entry sub s
  | .l1Exit => Sys2Proof.Machine.execL1Exit s
  | .l0pEntry => Sys2Proof.Machine.execL0pEntry s
  | .bar2Access off acc => Sys2Proof.Machine.execBar2Access off acc s
  | .tlpError e => Sys2Proof.Machine.execTlpError e s
  | .hostCompletion tag status data => Sys2Proof.Machine.execHostCompletion tag status data s
  | .cplTimeout tag => Sys2Proof.Machine.execCplTimeout tag s
  | .ringEnable r value => Sys2Proof.Machine.execRingEnable r value s
  | .ringDisable r value => Sys2Proof.Machine.execRingDisable r value s
  | .ringStopped r => Sys2Proof.Machine.execRingStopped r s
  | .ringConfigWrite r reg value => Sys2Proof.Machine.execRingConfigWrite r reg value s
  | .hostIdxWrite r value => Sys2Proof.Machine.execHostIdxWrite r value s
  | .indexMirrorWrite r => Sys2Proof.Machine.execIndexMirrorWrite r s
  | .uploadDescriptorFetch r => Sys2Proof.Machine.execUploadDescriptorFetch r s
  | .copyIn r => Sys2Proof.Machine.execCopyIn r s
  | .copyOut r => Sys2Proof.Machine.execCopyOut r s
  | .fenceOnly r => Sys2Proof.Machine.execFenceOnly r s
  | .uploadComplete r => Sys2Proof.Machine.execUploadComplete r s
  | .fenceInc f value => Sys2Proof.Machine.execFenceInc f value s
  | .fenceSet f value => Sys2Proof.Machine.execFenceSet f value s
  | .fenceMirrorWrite f => Sys2Proof.Machine.execFenceMirrorWrite f s
  | .valueLoRead f => Sys2Proof.Machine.execValueLoRead f s
  | .bootImageCheckDone readOk => Sys2Proof.Machine.execBootImageCheckDone readOk s
  | .hostBoot value => Sys2Proof.Machine.execHostBoot value s
  | .seal value => Sys2Proof.Machine.execSeal value s
  | .sealComplete => Sys2Proof.Machine.execSealComplete s
  | .stewardSleep => Sys2Proof.Machine.execStewardSleep s
  | .stewardWake => Sys2Proof.Machine.execStewardWake s
  | .wakeTimer => Sys2Proof.Machine.execWakeTimer s
  | .watchdogExpiry => Sys2Proof.Machine.execWatchdogExpiry s
  | .stewardLockstep => Sys2Proof.Machine.execStewardLockstep s
  | .stewardReset => Sys2Proof.Machine.execStewardReset s
  | .bootFollowOn => Sys2Proof.Machine.execBootFollowOn s
  | .mbxLockRead src n => Sys2Proof.Machine.execMbxLockRead src n s
  | .mbxUnlock src n value => Sys2Proof.Machine.execMbxUnlock src n value s
  | .mbxLockLapse n => Sys2Proof.Machine.execMbxLockLapse n s
  | .mbxSend src n => Sys2Proof.Machine.execMbxSend src n s
  | .mbxTake n => Sys2Proof.Machine.execMbxTake n s
  | .mbxReply n => Sys2Proof.Machine.execMbxReply n s
  | .mbxAck src n => Sys2Proof.Machine.execMbxAck src n s
  | .ping n => Sys2Proof.Machine.execPing n s
  | .status n => Sys2Proof.Machine.execStatus n s
  | .repairSave n => Sys2Proof.Machine.execRepairSave n s
  | .repairClear n => Sys2Proof.Machine.execRepairClear n s
  | .flashWrite n => Sys2Proof.Machine.execFlashWrite n s
  | .svnCommit n => Sys2Proof.Machine.execSvnCommit n s
  | .dumpInfo n => Sys2Proof.Machine.execDumpInfo n s
  | .dumpRearm n => Sys2Proof.Machine.execDumpRearm n s
  | .dumpNow n => Sys2Proof.Machine.execDumpNow n s
  | .ercReport => Sys2Proof.Machine.execErcReport s
  | .fatalError => Sys2Proof.Machine.execFatalError s
  | .logHeadWrite value => Sys2Proof.Machine.execLogHeadWrite value s
  | .logSpill => Sys2Proof.Machine.execLogSpill s
  | .coalClear => Sys2Proof.Machine.execCoalClear s
  | .dumpWrite => Sys2Proof.Machine.execDumpWrite s
  | .dumpComplete => Sys2Proof.Machine.execDumpComplete s
  | .dumpTimeout => Sys2Proof.Machine.execDumpTimeout s
  | .dumpCtrlRearm => Sys2Proof.Machine.execDumpCtrlRearm s
  | .dumpWindowRead off => Sys2Proof.Machine.execDumpWindowRead off s
  | .quadratureCount ch1 a b => Sys2Proof.Machine.execQuadratureCount ch1 a b s
  | .speedUpdate => Sys2Proof.Machine.execSpeedUpdate s
  | .sealOpen => Sys2Proof.Machine.execSealOpen s
  | .sealClose => Sys2Proof.Machine.execSealClose s
  | .paramSet p => Sys2Proof.Machine.execParamSet p s
  | .timeSet ms => Sys2Proof.Machine.execTimeSet ms s
  | .keyLoad key => Sys2Proof.Machine.execKeyLoad key s
  | .firmwareLoad image => Sys2Proof.Machine.execFirmwareLoad image s
  | .meterBoot => Sys2Proof.Machine.execMeterBoot s
  | .indicatorFrame => Sys2Proof.Machine.execIndicatorFrame s
  | .timeAdj adj ctr mac => Sys2Proof.Machine.execTimeAdj adj ctr mac s
  | .meterBatterySwitch => Sys2Proof.Machine.execMeterBatterySwitch s
  | .meterPowerFail => Sys2Proof.Machine.execMeterPowerFail s
  | .meterReset => Sys2Proof.Machine.execMeterReset s
  | .snapshotRequest => Sys2Proof.Machine.execSnapshotRequest s
  | .strobeFrameSend => Sys2Proof.Machine.execStrobeFrameSend s
  | .periodicFrameSend => Sys2Proof.Machine.execPeriodicFrameSend s
  | .bridgeFrameRx noise => Sys2Proof.Machine.execBridgeFrameRx noise s
  | .strobeMiss => Sys2Proof.Machine.execStrobeMiss s
  | .meterAbsent => Sys2Proof.Machine.execMeterAbsent s
  | .meterTimeCompare => Sys2Proof.Machine.execMeterTimeCompare s
  | .metStatusRead => Sys2Proof.Machine.execMetStatusRead s
  | .snapshotWord0Read i1 => Sys2Proof.Machine.execSnapshotWord0Read i1 s
  | .heartbeatSend => Sys2Proof.Machine.execHeartbeatSend s
  | .heartbeatRx => Sys2Proof.Machine.execHeartbeatRx s
  | .peerLost => Sys2Proof.Machine.execPeerLost s
  | .primacyReq value => Sys2Proof.Machine.execPrimacyReq value s
  | .primacyUpdate => Sys2Proof.Machine.execPrimacyUpdate s
  | .sramEccCorrected u => Sys2Proof.Machine.execSramEccCorrected u s
  | .clockReturn clk => Sys2Proof.Machine.execClockReturn clk s
  | .powerDown => Sys2Proof.Machine.execPowerDown s
  | .l0pExit => Sys2Proof.Machine.execL0pExit s
  | .d3hotExit => Sys2Proof.Machine.execD3hotExit s
  | .interruptDisableWrite on => Sys2Proof.Machine.execInterruptDisableWrite on s
  | .vddMetReturn => Sys2Proof.Machine.execVddMetReturn s
  | .zPeriod ch1 => Sys2Proof.Machine.execZPeriod ch1 s

end Sys2Proof.Machine
end

