-- ==== Sys2Proof/WellFormed.lean ====
section
/-!
DEFINITION. Well-formed commands: the instance that a command names is one of Table 1.1.
-/
namespace Sys2Proof
open Sys2Proof.Machine

/-- The block instance that a command names by number, if its operand can name one that does not exist. -/
def Instr.unit : Instr → Option Inst
  | .liveWriteApply u | .runWrite u _ | .instanceReset u _ | .resetComplete u | .pgErrClear u _ | .pgErrInj u _
  | .sramEccError u | .sramEccCorrected u => some u
  | .pdelayReqTx port | .frameRx port _ | .trainingAttempt port | .trainingFail port _ | .anComplete port _
  | .linkUp port | .linkDown port => some (U.nix port.toNat)
  | .swapInDone t | .swapOutDone t | .waitctrRelease t | .mopComplete t | .xferComplete t | .beatLand (.fabric t)
  | .beatLand (.load t) | .sendComplete t | .fusedVectorEntry t | .vectorComplete t | .sumCheckVerdict t _ _ _
  | .dupCheckVerdict t _ _ _ | .loadCheckVerdict t _ _ | .transDecay t | .mirrorInj t _ => some (U.tile t.toNat)
  | .decodeChargeStop core | .decodeElapsedAbandon core | .decodeCoreComplete core _ => some (U.dec core.toNat)
  | .nop x | .endProg x | .stage x | .waitctr x | .emitobj x | .mop x | .load x | .store x | .send x | .ld x | .st x
  | .ldx x | .stx x | .add x | .sub x | .mul x | .fma x | .max x | .min x | .cmplt x | .sel x | .exp x | .rcp x
  | .rsqrt x | .cvt x | .imm x | .lane x | .rsum x | .rmax x | .argmax x | .gather x | .scatter x | .topk x | .nms x
  | .assign x | .lnstat x | .skipmask x => some (U.tile x.tile.toNat)
  | .coldReset _ | .railFault _ | .clockLoss _ | .avsTargetWrite _ _ _ | .tjHigh _ | .thermalTrip
  | .registerWrite _ _ _ | .unmappedAccess _ _ | .partialAccess _ _ _ | .softReset _ | .warmResetComplete
  | .epochBoundary | .trigInEdge _ | .trigMiss | .replayTargetLo _ | .syncMessage | .pdelayReqRx | .syncTimeout
  | .ppsInEdge | .ppsOutPulse | .ppsOutEnd | .trigOutStart _ | .trigOutEnd _ | .epochLoRead | .timeLoRead
  | .planLoad _ | .planLoadDone | .commit _ | .planCheckDone | .commitCancel _ | .slotConfigWrite _ _ _
  | .streamDlWrite _ _ | .windowOpen _ | .windowFire _ | .windowSkipLatest _ | .windowDone _ | .deadlineForce _
  | .unitAbortComplete _ | .pleLockstepMismatch | .policeRefill _ | .reorderTimeout _ | .auTimeout _ | .nackSend _
  | .rrSend _ | .ssrcChange _ | .admitStream _ | .release _ | .cancel _ | .allocReq _ | .allocDone | .freeAddrLo _
  | .chainReturn | .chainReturnDone | .augReadDone _ | .augReadTimeout _ | .lensProgramComplete _ _ | .repair
  | .repairReq _ | .recordAccept _ | .ringDelivery _ | .sinkSend _ | .sinkCfgWrite _ _ | .dramRead _ _ _ _ _
  | .dramWrite _ _ _ | .writeDrain _ _ _ | .refresh _ _ _ _ | .refreshRatePoll _ _ | .hammerWindowReset _
  | .scrubRead _ _ _ _ | .migrationSegmentCopy _ _ _ | .balInterval | .dramInitDone _ _ | .pcieTrainingAttempt
  | .pcieTrainingFail _ _ | .pcieLinkUp _ _ _ | .pcieLinkDown | .hotReset | .linkDisable | .perst | .flr
  | .d3hotEntry | .busMasterEnable _ | .hostlossRelease _ | .l1Entry _ | .l1Exit | .l0pEntry | .bar2Access _ _
  | .tlpError _ | .hostCompletion _ _ _ | .cplTimeout _ | .ringEnable _ _ | .ringDisable _ _ | .ringStopped _
  | .ringConfigWrite _ _ _ | .hostIdxWrite _ _ | .indexMirrorWrite _ | .uploadDescriptorFetch _ | .copyIn _
  | .copyOut _ | .fenceOnly _ | .uploadComplete _ | .fenceInc _ _ | .fenceSet _ _ | .fenceMirrorWrite _
  | .valueLoRead _ | .bootImageCheckDone _ | .hostBoot _ | .seal _ | .sealComplete | .stewardSleep | .stewardWake
  | .wakeTimer | .watchdogExpiry | .stewardLockstep | .stewardReset | .bootFollowOn | .mbxLockRead _ _
  | .mbxUnlock _ _ _ | .mbxLockLapse _ | .mbxSend _ _ | .mbxTake _ | .mbxReply _ | .mbxAck _ _ | .ping _ | .status _
  | .repairSave _ | .repairClear _ | .flashWrite _ | .svnCommit _ | .dumpInfo _ | .dumpRearm _ | .dumpNow _
  | .ercReport | .fatalError | .logHeadWrite _ | .logSpill | .coalClear | .dumpWrite | .dumpComplete | .dumpTimeout
  | .dumpCtrlRearm | .dumpWindowRead _ | .quadratureCount _ _ _ | .speedUpdate | .sealOpen | .sealClose | .paramSet _
  | .timeSet _ | .keyLoad _ | .firmwareLoad _ | .meterBoot | .indicatorFrame | .timeAdj _ _ _ | .meterBatterySwitch
  | .meterPowerFail | .meterReset | .snapshotRequest | .strobeFrameSend | .periodicFrameSend | .bridgeFrameRx _
  | .strobeMiss | .meterAbsent | .meterTimeCompare | .metStatusRead | .snapshotWord0Read _ | .heartbeatSend
  | .heartbeatRx | .peerLost | .primacyReq _ | .primacyUpdate | .clockReturn _ | .powerDown | .l0pExit | .d3hotExit
  | .interruptDisableWrite _ | .vddMetReturn | .zPeriod _ => none

/-- A command is well formed when the instance it names exists on a full part. -/
def Instr.wf (i : Instr) : Bool :=
  match i.unit with
  | some u => u.ok
  | none => true

end Sys2Proof
end

