-- ==== Sys2Proof/Safety.lean ====
section
/-!
DEFINITION. What claims speak of: when the core die acts, the canonical form of the register file and of the memories, and
which commands belong to the meter die.
-/
namespace Sys2Proof.Machine

/-- The core die runs (R442, R445). -/
abbrev State.on (s : State) : Prop := s.power.core = .running

/-- BAR0 writes act: the core die runs, and no warm reset is under way (R39). -/
abbrev State.bus (s : State) : Prop := s.on ∧ s.power.warm = false

/-- The part provides the instance, and it is not RETIRED (R4, R24). -/
abbrev State.live? (s : State) (u : Inst) : Prop := u.ok = true ∧ s.has u = true ∧ s.runState u ≠ 4

/-- The register file is in canonical form. -/
def Regs.wf (s : State) : Bool := SMap.wf resetOf s.regs

/-- The memories are in canonical form: DRAM with its poison markers, the flash and the SRAM of the steward, the tile
stores. -/
def Memory.wf (s : State) : Bool :=
  SMap.wf dram0 s.dram.cells && SMap.wf noPoison s.dram.poison && SMap.wf flash0 s.stw.flash && SMap.wf sram0 s.stw.sram &&
    s.tiles.all fun e => SMap.wf tile0 e.2.store

/-- The next instruction of a tile is this one, and it issues now (R235, R236). -/
def State.issuesNow (s : State) (x : TileInsn) (cls op : Nat) (p : TileProg) : Prop :=
  s.on ∧ (U.tile x.tile.toNat).ok = true ∧ s.has (U.tile x.tile.toNat) = true ∧ s.progOf x.tile.toNat = some p ∧
    s.mayIssue x.tile.toNat p cls (insnWords x cls op) x.wait = true

/-- The program went on by one instruction, which was counted (R235, Table 9.11). -/
def State.advanced (s u : State) (t : Nat) (p : TileProg) : Prop :=
  (∃ q, u.progOf t = some q ∧ q.pc = p.pc + 1) ∧
    u.reg (Reg.TILE.INSN_ISSUED t) = addWrap (s.reg (Reg.TILE.INSN_ISSUED t)) 1

/-- A unit of a tile at work has this instruction as its oldest (R236). -/
def State.flying (s : State) (t c : Nat) (p : TileProg) (g : Flight) : Prop :=
  s.on ∧ (U.tile t).ok = true ∧ s.has (U.tile t) = true ∧ s.progOf t = some p ∧ ((s.tileOf t).queue c).head? = some g ∧
    s.tileWorks t p = true

/-- The maps of a controller are in canonical form. -/
def Dmc.wf (d : Dmc) : Bool :=
  SMap.wf (fun _ => []) d.wq && SMap.wf (fun _ => []) d.rq && SMap.wf (fun _ => (0, 0)) d.owed && SMap.wf (fun _ => none) d.openRow &&
    SMap.wf (fun _ => []) d.hammer && SMap.wf (fun _ => 0) d.chanBeats && SMap.wf (fun _ => 0) d.portBeats

/-- The maps of PLE, CPM, PFB, EGR, PEP and MET are in canonical form. -/
def State.blocksWf (s : State) : Bool :=
  SMap.wf (fun _ => WinRun.absent) s.ple.wins && SMap.wf (fun _ => false) s.ple.stale &&
    SMap.wf (fun _ => false) s.cpm.alloc && SMap.wf (fun _ => 0) s.cpm.bufs && SMap.wf (fun _ => 0) s.fabric.beats &&
    SMap.wf (fun _ => false) s.egr.dropBefore && SMap.wf (fun _ => SinkSet.reset) s.egr.sinks &&
    SMap.wf (fun _ => 0) s.pep.fences && SMap.wf (fun _ => false) s.pep.fenceOwed && SMap.wf (fun _ => false) s.pep.idxOwed &&
    SMap.wf (fun _ => none) s.pep.uploads && SMap.wf (fun _ => ([], 0, false)) s.met.slots

/-- The accumulators of an operation in flight are in canonical form. -/
def Flight.wf (f : Flight) : Bool :=
  match f.op with
  | .matrix _ r => SMap.wf acc0 r.acc
  | .vector | .loadOp _ _ _ _ | .storeOp _ _ _ | .sendOp _ _ _ _ _ _ _ => true

/-- The maps of a tile, its store apart, are in canonical form. -/
def Tile.mapsWf (x : Tile) : Bool :=
  SMap.wf (fun _ => 0) x.vreg && (x.qMatrix ++ x.qVector ++ x.qXfer ++ x.qFabric).all Flight.wf

/-- The maps keyed by instance are in canonical form, and so is what they hold. -/
def State.unitsWf (s : State) : Bool :=
  SMap.wf (fun _ => Scx.free) s.scx && SMap.wf (fun _ => none) s.dec && SMap.wf (fun _ => none) s.lns &&
    SMap.wf (fun _ => Mbx.free) s.mbx && SMap.wf (fun _ => Tile.idle) s.tiles && SMap.wf (fun _ => Dmc.cold) s.dram.ctl &&
    SMap.wf (fun _ => (0, 0)) s.dram.faults && (s.tiles.all fun e => e.2.mapsWf) && s.dram.ctl.all fun e => e.2.wf

/-- Everything in the state that is kept as a map is in its canonical form. -/
def State.wf (s : State) : Bool := Regs.wf s && Memory.wf s && s.blocksWf && s.unitsWf

/-- No window has an event before this point of the order of R456, and no record waits to be accepted: a clock that moves no
further finds PLE with nothing to do on the way (`State.runBefore`). -/
def State.calm (s : State) (key : Nat) : Prop :=
  ∀ p, s.ple.plan = some p → s.planRuns = true →
    s.handOver p = [] ∧ ∀ m w e, s.nextEvent p = some (m, w, e) → key ≤ eventKey m w

/-- The same for the phase that a movement of the clock reaches. -/
abbrev State.calmFor (s : State) (f : State → State) : Prop := s.calm (eventKey (f s).clock.phase.toNat 0)

end Sys2Proof.Machine

namespace Sys2Proof

/-- The commands that the meter die carries out, whatever the core die does (R8, R406, R445). -/
def Instr.ofMeter (i : Instr) : Bool :=
  match i with
  | .quadratureCount _ _ _ | .speedUpdate | .sealOpen | .sealClose | .paramSet _ | .timeSet _ | .keyLoad _
  | .firmwareLoad _ | .meterBoot | .indicatorFrame | .timeAdj _ _ _ | .meterBatterySwitch | .meterPowerFail
  | .meterReset | .snapshotRequest | .strobeFrameSend | .periodicFrameSend | .vddMetReturn | .zPeriod _ => true
  | .coldReset _ | .railFault _ | .clockLoss _ | .avsTargetWrite _ _ _ | .tjHigh _ | .thermalTrip
  | .registerWrite _ _ _ | .liveWriteApply _ | .unmappedAccess _ _ | .partialAccess _ _ _ | .runWrite _ _
  | .instanceReset _ _ | .resetComplete _ | .pgErrClear _ _ | .pgErrInj _ _ | .sramEccError _ | .softReset _
  | .warmResetComplete | .epochBoundary | .trigInEdge _ | .trigMiss | .replayTargetLo _ | .syncMessage | .pdelayReqRx
  | .pdelayReqTx _ | .syncTimeout | .ppsInEdge | .ppsOutPulse | .ppsOutEnd | .trigOutStart _ | .trigOutEnd _
  | .epochLoRead | .timeLoRead | .planLoad _ | .planLoadDone | .commit _ | .planCheckDone | .commitCancel _
  | .slotConfigWrite _ _ _ | .streamDlWrite _ _ | .windowOpen _ | .windowFire _ | .windowSkipLatest _ | .windowDone _
  | .deadlineForce _ | .unitAbortComplete _ | .pleLockstepMismatch | .swapInDone _ | .swapOutDone _ | .frameRx _ _
  | .policeRefill _ | .reorderTimeout _ | .auTimeout _ | .nackSend _ | .rrSend _ | .ssrcChange _ | .trainingAttempt _
  | .trainingFail _ _ | .anComplete _ _ | .linkUp _ | .linkDown _ | .admitStream _ | .release _ | .cancel _
  | .allocReq _ | .allocDone | .freeAddrLo _ | .chainReturn | .chainReturnDone | .decodeChargeStop _
  | .decodeElapsedAbandon _ | .decodeCoreComplete _ _ | .augReadDone _ | .augReadTimeout _ | .lensProgramComplete _ _
  | .nop _ | .endProg _ | .stage _ | .waitctr _ | .waitctrRelease _ | .emitobj _ | .mop _ | .mopComplete _ | .load _
  | .store _ | .xferComplete _ | .send _ | .beatLand _ | .sendComplete _ | .fusedVectorEntry _ | .ld _ | .st _
  | .ldx _ | .stx _ | .add _ | .sub _ | .mul _ | .fma _ | .max _ | .min _ | .cmplt _ | .sel _ | .exp _ | .rcp _
  | .rsqrt _ | .cvt _ | .imm _ | .lane _ | .rsum _ | .rmax _ | .argmax _ | .gather _ | .scatter _ | .topk _ | .nms _
  | .assign _ | .lnstat _ | .skipmask _ | .vectorComplete _ | .sumCheckVerdict _ _ _ _ | .dupCheckVerdict _ _ _ _
  | .loadCheckVerdict _ _ _ | .transDecay _ | .repair | .mirrorInj _ _ | .repairReq _ | .recordAccept _
  | .ringDelivery _ | .sinkSend _ | .sinkCfgWrite _ _ | .dramRead _ _ _ _ _ | .dramWrite _ _ _ | .writeDrain _ _ _
  | .refresh _ _ _ _ | .refreshRatePoll _ _ | .hammerWindowReset _ | .scrubRead _ _ _ _ | .migrationSegmentCopy _ _ _
  | .balInterval | .dramInitDone _ _ | .pcieTrainingAttempt | .pcieTrainingFail _ _ | .pcieLinkUp _ _ _
  | .pcieLinkDown | .hotReset | .linkDisable | .perst | .flr | .d3hotEntry | .busMasterEnable _ | .hostlossRelease _
  | .l1Entry _ | .l1Exit | .l0pEntry | .bar2Access _ _ | .tlpError _ | .hostCompletion _ _ _ | .cplTimeout _
  | .ringEnable _ _ | .ringDisable _ _ | .ringStopped _ | .ringConfigWrite _ _ _ | .hostIdxWrite _ _
  | .indexMirrorWrite _ | .uploadDescriptorFetch _ | .copyIn _ | .copyOut _ | .fenceOnly _ | .uploadComplete _
  | .fenceInc _ _ | .fenceSet _ _ | .fenceMirrorWrite _ | .valueLoRead _ | .bootImageCheckDone _ | .hostBoot _
  | .seal _ | .sealComplete | .stewardSleep | .stewardWake | .wakeTimer | .watchdogExpiry | .stewardLockstep
  | .stewardReset | .bootFollowOn | .mbxLockRead _ _ | .mbxUnlock _ _ _ | .mbxLockLapse _ | .mbxSend _ _ | .mbxTake _
  | .mbxReply _ | .mbxAck _ _ | .ping _ | .status _ | .repairSave _ | .repairClear _ | .flashWrite _ | .svnCommit _
  | .dumpInfo _ | .dumpRearm _ | .dumpNow _ | .ercReport | .fatalError | .logHeadWrite _ | .logSpill | .coalClear
  | .dumpWrite | .dumpComplete | .dumpTimeout | .dumpCtrlRearm | .dumpWindowRead _ | .bridgeFrameRx _ | .strobeMiss
  | .meterAbsent | .meterTimeCompare | .metStatusRead | .snapshotWord0Read _ | .heartbeatSend | .heartbeatRx
  | .peerLost | .primacyReq _ | .primacyUpdate | .sramEccCorrected _ | .clockReturn _ | .powerDown | .l0pExit
  | .d3hotExit | .interruptDisableWrite _ => false

/-- The commands that are writes to a BAR0 register (R13, R39). -/
def Instr.bar0Write (i : Instr) : Bool :=
  match i with
  | .registerWrite _ _ _ | .runWrite _ _ | .instanceReset _ _ | .pgErrClear _ _ | .pgErrInj _ _ | .softReset _
  | .replayTargetLo _ | .planLoad _ | .commit _ | .commitCancel _ | .slotConfigWrite _ _ _ | .streamDlWrite _ _
  | .admitStream _ | .release _ | .cancel _ | .allocReq _ | .freeAddrLo _ | .mirrorInj _ _ | .repairReq _
  | .sinkCfgWrite _ _ | .hostlossRelease _ | .ringEnable _ _ | .ringDisable _ _ | .ringConfigWrite _ _ _
  | .hostIdxWrite _ _ | .fenceInc _ _ | .fenceSet _ _ | .hostBoot _ | .seal _ | .stewardReset | .mbxUnlock _ _ _
  | .mbxSend _ _ | .mbxAck _ _ | .logHeadWrite _ | .coalClear | .dumpCtrlRearm | .primacyReq _ => true
  | .coldReset _ | .railFault _ | .clockLoss _ | .avsTargetWrite _ _ _ | .tjHigh _ | .thermalTrip | .liveWriteApply _
  | .unmappedAccess _ _ | .partialAccess _ _ _ | .resetComplete _ | .sramEccError _ | .warmResetComplete
  | .epochBoundary | .trigInEdge _ | .trigMiss | .syncMessage | .pdelayReqRx | .pdelayReqTx _ | .syncTimeout
  | .ppsInEdge | .ppsOutPulse | .ppsOutEnd | .trigOutStart _ | .trigOutEnd _ | .epochLoRead | .timeLoRead
  | .planLoadDone | .planCheckDone | .windowOpen _ | .windowFire _ | .windowSkipLatest _ | .windowDone _
  | .deadlineForce _ | .unitAbortComplete _ | .pleLockstepMismatch | .swapInDone _ | .swapOutDone _ | .frameRx _ _
  | .policeRefill _ | .reorderTimeout _ | .auTimeout _ | .nackSend _ | .rrSend _ | .ssrcChange _ | .trainingAttempt _
  | .trainingFail _ _ | .anComplete _ _ | .linkUp _ | .linkDown _ | .allocDone | .chainReturn | .chainReturnDone
  | .decodeChargeStop _ | .decodeElapsedAbandon _ | .decodeCoreComplete _ _ | .augReadDone _ | .augReadTimeout _
  | .lensProgramComplete _ _ | .nop _ | .endProg _ | .stage _ | .waitctr _ | .waitctrRelease _ | .emitobj _ | .mop _
  | .mopComplete _ | .load _ | .store _ | .xferComplete _ | .send _ | .beatLand _ | .sendComplete _
  | .fusedVectorEntry _ | .ld _ | .st _ | .ldx _ | .stx _ | .add _ | .sub _ | .mul _ | .fma _ | .max _ | .min _
  | .cmplt _ | .sel _ | .exp _ | .rcp _ | .rsqrt _ | .cvt _ | .imm _ | .lane _ | .rsum _ | .rmax _ | .argmax _
  | .gather _ | .scatter _ | .topk _ | .nms _ | .assign _ | .lnstat _ | .skipmask _ | .vectorComplete _
  | .sumCheckVerdict _ _ _ _ | .dupCheckVerdict _ _ _ _ | .loadCheckVerdict _ _ _ | .transDecay _ | .repair
  | .recordAccept _ | .ringDelivery _ | .sinkSend _ | .dramRead _ _ _ _ _ | .dramWrite _ _ _ | .writeDrain _ _ _
  | .refresh _ _ _ _ | .refreshRatePoll _ _ | .hammerWindowReset _ | .scrubRead _ _ _ _ | .migrationSegmentCopy _ _ _
  | .balInterval | .dramInitDone _ _ | .pcieTrainingAttempt | .pcieTrainingFail _ _ | .pcieLinkUp _ _ _
  | .pcieLinkDown | .hotReset | .linkDisable | .perst | .flr | .d3hotEntry | .busMasterEnable _ | .l1Entry _
  | .l1Exit | .l0pEntry | .bar2Access _ _ | .tlpError _ | .hostCompletion _ _ _ | .cplTimeout _ | .ringStopped _
  | .indexMirrorWrite _ | .uploadDescriptorFetch _ | .copyIn _ | .copyOut _ | .fenceOnly _ | .uploadComplete _
  | .fenceMirrorWrite _ | .valueLoRead _ | .bootImageCheckDone _ | .sealComplete | .stewardSleep | .stewardWake
  | .wakeTimer | .watchdogExpiry | .stewardLockstep | .bootFollowOn | .mbxLockRead _ _ | .mbxLockLapse _ | .mbxTake _
  | .mbxReply _ | .ping _ | .status _ | .repairSave _ | .repairClear _ | .flashWrite _ | .svnCommit _ | .dumpInfo _
  | .dumpRearm _ | .dumpNow _ | .ercReport | .fatalError | .logSpill | .dumpWrite | .dumpComplete | .dumpTimeout
  | .dumpWindowRead _ | .quadratureCount _ _ _ | .speedUpdate | .sealOpen | .sealClose | .paramSet _ | .timeSet _
  | .keyLoad _ | .firmwareLoad _ | .meterBoot | .indicatorFrame | .timeAdj _ _ _ | .meterBatterySwitch
  | .meterPowerFail | .meterReset | .snapshotRequest | .strobeFrameSend | .periodicFrameSend | .bridgeFrameRx _
  | .strobeMiss | .meterAbsent | .meterTimeCompare | .metStatusRead | .snapshotWord0Read _ | .heartbeatSend
  | .heartbeatRx | .peerLost | .primacyUpdate | .sramEccCorrected _ | .clockReturn _ | .powerDown | .l0pExit
  | .d3hotExit | .interruptDisableWrite _ | .vddMetReturn | .zPeriod _ => false

/-- The commands that can write DRAM or a poison marker: the rest never do. -/
def Instr.mayWriteDram (i : Instr) : Bool :=
  match i with
  | .coldReset _ | .liveWriteApply _ | .epochBoundary | .trigInEdge _ | .trigMiss | .syncTimeout | .ppsOutPulse
  | .ppsOutEnd | .trigOutStart _ | .trigOutEnd _ | .planLoadDone | .planCheckDone | .windowOpen _ | .windowFire _
  | .windowSkipLatest _ | .windowDone _ | .deadlineForce _ | .swapInDone _ | .swapOutDone _ | .frameRx _ _
  | .policeRefill _ | .reorderTimeout _ | .auTimeout _ | .chainReturn | .chainReturnDone | .lensProgramComplete _ _
  | .xferComplete _ | .beatLand _ | .dramRead _ _ _ _ _ | .dramWrite _ _ _ | .writeDrain _ _ _ | .scrubRead _ _ _ _
  | .migrationSegmentCopy _ _ _ | .dramInitDone _ _ | .bar2Access _ _ | .tlpError _ | .hostCompletion _ _ _
  | .cplTimeout _ | .copyOut _ | .bootImageCheckDone _ | .sealComplete | .mbxLockLapse _ | .flashWrite _ | .dumpWrite
  | .dumpComplete | .dumpTimeout | .strobeMiss | .meterAbsent | .meterTimeCompare | .heartbeatSend | .powerDown
  | .dumpInfo _ | .dumpWindowRead _ => true
  | .railFault _ | .clockLoss _ | .avsTargetWrite _ _ _ | .tjHigh _ | .thermalTrip | .registerWrite _ _ _
  | .unmappedAccess _ _ | .partialAccess _ _ _ | .runWrite _ _ | .instanceReset _ _ | .resetComplete _
  | .pgErrClear _ _ | .pgErrInj _ _ | .sramEccError _ | .softReset _ | .warmResetComplete | .replayTargetLo _
  | .syncMessage | .pdelayReqRx | .pdelayReqTx _ | .ppsInEdge | .epochLoRead | .timeLoRead | .planLoad _ | .commit _
  | .commitCancel _ | .slotConfigWrite _ _ _ | .streamDlWrite _ _ | .unitAbortComplete _ | .pleLockstepMismatch
  | .nackSend _ | .rrSend _ | .ssrcChange _ | .trainingAttempt _ | .trainingFail _ _ | .anComplete _ _ | .linkUp _
  | .linkDown _ | .admitStream _ | .release _ | .cancel _ | .allocReq _ | .allocDone | .freeAddrLo _
  | .decodeChargeStop _ | .decodeElapsedAbandon _ | .decodeCoreComplete _ _ | .augReadDone _ | .augReadTimeout _
  | .nop _ | .endProg _ | .stage _ | .waitctr _ | .waitctrRelease _ | .emitobj _ | .mop _ | .mopComplete _ | .load _
  | .store _ | .send _ | .sendComplete _ | .fusedVectorEntry _ | .ld _ | .st _ | .ldx _ | .stx _ | .add _ | .sub _
  | .mul _ | .fma _ | .max _ | .min _ | .cmplt _ | .sel _ | .exp _ | .rcp _ | .rsqrt _ | .cvt _ | .imm _ | .lane _
  | .rsum _ | .rmax _ | .argmax _ | .gather _ | .scatter _ | .topk _ | .nms _ | .assign _ | .lnstat _ | .skipmask _
  | .vectorComplete _ | .sumCheckVerdict _ _ _ _ | .dupCheckVerdict _ _ _ _ | .loadCheckVerdict _ _ _ | .transDecay _
  | .repair | .mirrorInj _ _ | .repairReq _ | .recordAccept _ | .ringDelivery _ | .sinkSend _ | .sinkCfgWrite _ _
  | .refresh _ _ _ _ | .refreshRatePoll _ _ | .hammerWindowReset _ | .balInterval | .pcieTrainingAttempt
  | .pcieTrainingFail _ _ | .pcieLinkUp _ _ _ | .pcieLinkDown | .hotReset | .linkDisable | .perst | .flr
  | .d3hotEntry | .busMasterEnable _ | .hostlossRelease _ | .l1Entry _ | .l1Exit | .l0pEntry | .ringEnable _ _
  | .ringDisable _ _ | .ringStopped _ | .ringConfigWrite _ _ _ | .hostIdxWrite _ _ | .indexMirrorWrite _
  | .uploadDescriptorFetch _ | .copyIn _ | .fenceOnly _ | .uploadComplete _ | .fenceInc _ _ | .fenceSet _ _
  | .fenceMirrorWrite _ | .valueLoRead _ | .hostBoot _ | .seal _ | .stewardSleep | .stewardWake | .wakeTimer
  | .watchdogExpiry | .stewardLockstep | .stewardReset | .bootFollowOn | .mbxLockRead _ _ | .mbxUnlock _ _ _
  | .mbxSend _ _ | .mbxTake _ | .mbxReply _ | .mbxAck _ _ | .ping _ | .status _ | .repairSave _ | .repairClear _
  | .svnCommit _ | .dumpRearm _ | .dumpNow _ | .ercReport | .fatalError | .logHeadWrite _ | .logSpill
  | .coalClear | .dumpCtrlRearm | .quadratureCount _ _ _ | .speedUpdate | .sealOpen | .sealClose
  | .paramSet _ | .timeSet _ | .keyLoad _ | .firmwareLoad _ | .meterBoot | .indicatorFrame | .timeAdj _ _ _
  | .meterBatterySwitch | .meterPowerFail | .meterReset | .snapshotRequest | .strobeFrameSend | .periodicFrameSend
  | .bridgeFrameRx _ | .metStatusRead | .snapshotWord0Read _ | .heartbeatRx | .peerLost | .primacyReq _
  | .primacyUpdate | .sramEccCorrected _ | .clockReturn _ | .l0pExit | .d3hotExit | .interruptDisableWrite _
  | .vddMetReturn | .zPeriod _ => false

/-- The commands that can write a tile store: the rest never do. -/
def Instr.mayWriteStore (i : Instr) : Bool :=
  match i with
  | .coldReset _ | .registerWrite _ _ _ | .liveWriteApply _ | .runWrite _ _ | .instanceReset _ _ | .resetComplete _
  | .warmResetComplete | .epochBoundary | .trigInEdge _ | .trigMiss | .syncTimeout | .ppsOutPulse | .ppsOutEnd
  | .trigOutStart _ | .trigOutEnd _ | .windowOpen _ | .windowFire _ | .windowSkipLatest _ | .windowDone _
  | .deadlineForce _ | .swapInDone _ | .policeRefill _ | .reorderTimeout _ | .auTimeout _ | .lensProgramComplete _ _
  | .mopComplete _ | .beatLand _ | .st _ | .stx _ | .scatter _ | .topk _ | .nms _ | .assign _ | .lnstat _
  | .skipmask _ | .cplTimeout _ | .stewardReset | .mbxLockLapse _ | .dumpWrite | .dumpComplete | .dumpTimeout
  | .strobeMiss | .meterAbsent | .meterTimeCompare | .heartbeatSend | .powerDown => true
  | .railFault _ | .clockLoss _ | .avsTargetWrite _ _ _ | .tjHigh _ | .thermalTrip | .unmappedAccess _ _
  | .partialAccess _ _ _ | .pgErrClear _ _ | .pgErrInj _ _ | .sramEccError _ | .softReset _ | .replayTargetLo _
  | .syncMessage | .pdelayReqRx | .pdelayReqTx _ | .ppsInEdge | .epochLoRead | .timeLoRead | .planLoad _
  | .planLoadDone | .commit _ | .planCheckDone | .commitCancel _ | .slotConfigWrite _ _ _ | .streamDlWrite _ _
  | .unitAbortComplete _ | .pleLockstepMismatch | .swapOutDone _ | .frameRx _ _ | .nackSend _ | .rrSend _
  | .ssrcChange _ | .trainingAttempt _ | .trainingFail _ _ | .anComplete _ _ | .linkUp _ | .linkDown _
  | .admitStream _ | .release _ | .cancel _ | .allocReq _ | .allocDone | .freeAddrLo _ | .chainReturn
  | .chainReturnDone | .decodeChargeStop _ | .decodeElapsedAbandon _ | .decodeCoreComplete _ _ | .augReadDone _
  | .augReadTimeout _ | .nop _ | .endProg _ | .stage _ | .waitctr _ | .waitctrRelease _ | .emitobj _ | .mop _
  | .load _ | .store _ | .xferComplete _ | .send _ | .sendComplete _ | .fusedVectorEntry _ | .ld _ | .ldx _ | .add _
  | .sub _ | .mul _ | .fma _ | .max _ | .min _ | .cmplt _ | .sel _ | .exp _ | .rcp _ | .rsqrt _ | .cvt _ | .imm _
  | .lane _ | .rsum _ | .rmax _ | .argmax _ | .gather _ | .vectorComplete _ | .sumCheckVerdict _ _ _ _
  | .dupCheckVerdict _ _ _ _ | .loadCheckVerdict _ _ _ | .transDecay _ | .repair | .mirrorInj _ _ | .repairReq _
  | .recordAccept _ | .ringDelivery _ | .sinkSend _ | .sinkCfgWrite _ _ | .dramRead _ _ _ _ _ | .dramWrite _ _ _
  | .writeDrain _ _ _ | .refresh _ _ _ _ | .refreshRatePoll _ _ | .hammerWindowReset _ | .scrubRead _ _ _ _
  | .migrationSegmentCopy _ _ _ | .balInterval | .dramInitDone _ _ | .pcieTrainingAttempt | .pcieTrainingFail _ _
  | .pcieLinkUp _ _ _ | .pcieLinkDown | .hotReset | .linkDisable | .perst | .flr | .d3hotEntry | .busMasterEnable _
  | .hostlossRelease _ | .l1Entry _ | .l1Exit | .l0pEntry | .bar2Access _ _ | .tlpError _ | .hostCompletion _ _ _
  | .ringEnable _ _ | .ringDisable _ _ | .ringStopped _ | .ringConfigWrite _ _ _ | .hostIdxWrite _ _
  | .indexMirrorWrite _ | .uploadDescriptorFetch _ | .copyIn _ | .copyOut _ | .fenceOnly _ | .uploadComplete _
  | .fenceInc _ _ | .fenceSet _ _ | .fenceMirrorWrite _ | .valueLoRead _ | .bootImageCheckDone _ | .hostBoot _
  | .seal _ | .sealComplete | .stewardSleep | .stewardWake | .wakeTimer | .watchdogExpiry | .stewardLockstep
  | .bootFollowOn | .mbxLockRead _ _ | .mbxUnlock _ _ _ | .mbxSend _ _ | .mbxTake _ | .mbxReply _ | .mbxAck _ _
  | .ping _ | .status _ | .repairSave _ | .repairClear _ | .flashWrite _ | .svnCommit _ | .dumpInfo _ | .dumpRearm _
  | .dumpNow _ | .ercReport | .fatalError | .logHeadWrite _ | .logSpill | .coalClear | .dumpCtrlRearm
  | .dumpWindowRead _ | .quadratureCount _ _ _ | .speedUpdate | .sealOpen | .sealClose | .paramSet _ | .timeSet _
  | .keyLoad _ | .firmwareLoad _ | .meterBoot | .indicatorFrame | .timeAdj _ _ _ | .meterBatterySwitch
  | .meterPowerFail | .meterReset | .snapshotRequest | .strobeFrameSend | .periodicFrameSend | .bridgeFrameRx _
  | .metStatusRead | .snapshotWord0Read _ | .heartbeatRx | .peerLost | .primacyReq _ | .primacyUpdate
  | .sramEccCorrected _ | .clockReturn _ | .l0pExit | .d3hotExit | .interruptDisableWrite _ | .vddMetReturn
  | .zPeriod _ => false

/-- The commands that can write the steward's flash or SRAM: the rest never do. -/
def Instr.mayWriteSteward (i : Instr) : Bool :=
  match i with
  | .coldReset _ | .registerWrite _ _ _ | .instanceReset _ _ | .resetComplete _ | .pgErrInj _ _ | .warmResetComplete
  | .bootImageCheckDone _ | .watchdogExpiry | .stewardLockstep | .stewardReset | .repairSave _ | .repairClear _
  | .flashWrite _ | .powerDown => true
  | .railFault _ | .clockLoss _ | .avsTargetWrite _ _ _ | .tjHigh _ | .thermalTrip | .liveWriteApply _
  | .unmappedAccess _ _ | .partialAccess _ _ _ | .runWrite _ _ | .pgErrClear _ _ | .sramEccError _ | .softReset _
  | .epochBoundary | .trigInEdge _ | .trigMiss | .replayTargetLo _ | .syncMessage | .pdelayReqRx | .pdelayReqTx _
  | .syncTimeout | .ppsInEdge | .ppsOutPulse | .ppsOutEnd | .trigOutStart _ | .trigOutEnd _ | .epochLoRead
  | .timeLoRead | .planLoad _ | .planLoadDone | .commit _ | .planCheckDone | .commitCancel _ | .slotConfigWrite _ _ _
  | .streamDlWrite _ _ | .windowOpen _ | .windowFire _ | .windowSkipLatest _ | .windowDone _ | .deadlineForce _
  | .unitAbortComplete _ | .pleLockstepMismatch | .swapInDone _ | .swapOutDone _ | .frameRx _ _ | .policeRefill _
  | .reorderTimeout _ | .auTimeout _ | .nackSend _ | .rrSend _ | .ssrcChange _ | .trainingAttempt _
  | .trainingFail _ _ | .anComplete _ _ | .linkUp _ | .linkDown _ | .admitStream _ | .release _ | .cancel _
  | .allocReq _ | .allocDone | .freeAddrLo _ | .chainReturn | .chainReturnDone | .decodeChargeStop _
  | .decodeElapsedAbandon _ | .decodeCoreComplete _ _ | .augReadDone _ | .augReadTimeout _ | .lensProgramComplete _ _
  | .nop _ | .endProg _ | .stage _ | .waitctr _ | .waitctrRelease _ | .emitobj _ | .mop _ | .mopComplete _ | .load _
  | .store _ | .xferComplete _ | .send _ | .beatLand _ | .sendComplete _ | .fusedVectorEntry _ | .ld _ | .st _
  | .ldx _ | .stx _ | .add _ | .sub _ | .mul _ | .fma _ | .max _ | .min _ | .cmplt _ | .sel _ | .exp _ | .rcp _
  | .rsqrt _ | .cvt _ | .imm _ | .lane _ | .rsum _ | .rmax _ | .argmax _ | .gather _ | .scatter _ | .topk _ | .nms _
  | .assign _ | .lnstat _ | .skipmask _ | .vectorComplete _ | .sumCheckVerdict _ _ _ _ | .dupCheckVerdict _ _ _ _
  | .loadCheckVerdict _ _ _ | .transDecay _ | .repair | .mirrorInj _ _ | .repairReq _ | .recordAccept _
  | .ringDelivery _ | .sinkSend _ | .sinkCfgWrite _ _ | .dramRead _ _ _ _ _ | .dramWrite _ _ _ | .writeDrain _ _ _
  | .refresh _ _ _ _ | .refreshRatePoll _ _ | .hammerWindowReset _ | .scrubRead _ _ _ _ | .migrationSegmentCopy _ _ _
  | .balInterval | .dramInitDone _ _ | .pcieTrainingAttempt | .pcieTrainingFail _ _ | .pcieLinkUp _ _ _
  | .pcieLinkDown | .hotReset | .linkDisable | .perst | .flr | .d3hotEntry | .busMasterEnable _ | .hostlossRelease _
  | .l1Entry _ | .l1Exit | .l0pEntry | .bar2Access _ _ | .tlpError _ | .hostCompletion _ _ _ | .cplTimeout _
  | .ringEnable _ _ | .ringDisable _ _ | .ringStopped _ | .ringConfigWrite _ _ _ | .hostIdxWrite _ _
  | .indexMirrorWrite _ | .uploadDescriptorFetch _ | .copyIn _ | .copyOut _ | .fenceOnly _ | .uploadComplete _
  | .fenceInc _ _ | .fenceSet _ _ | .fenceMirrorWrite _ | .valueLoRead _ | .hostBoot _ | .seal _ | .sealComplete
  | .stewardSleep | .stewardWake | .wakeTimer | .bootFollowOn | .mbxLockRead _ _ | .mbxUnlock _ _ _ | .mbxLockLapse _
  | .mbxSend _ _ | .mbxTake _ | .mbxReply _ | .mbxAck _ _ | .ping _ | .status _ | .svnCommit _ | .dumpInfo _
  | .dumpRearm _ | .dumpNow _ | .ercReport | .fatalError | .logHeadWrite _ | .logSpill | .coalClear | .dumpWrite
  | .dumpComplete | .dumpTimeout | .dumpCtrlRearm | .dumpWindowRead _ | .quadratureCount _ _ _ | .speedUpdate
  | .sealOpen | .sealClose | .paramSet _ | .timeSet _ | .keyLoad _ | .firmwareLoad _ | .meterBoot | .indicatorFrame
  | .timeAdj _ _ _ | .meterBatterySwitch | .meterPowerFail | .meterReset | .snapshotRequest | .strobeFrameSend
  | .periodicFrameSend | .bridgeFrameRx _ | .strobeMiss | .meterAbsent | .meterTimeCompare | .metStatusRead
  | .snapshotWord0Read _ | .heartbeatSend | .heartbeatRx | .peerLost | .primacyReq _ | .primacyUpdate
  | .sramEccCorrected _ | .clockReturn _ | .l0pExit | .d3hotExit | .interruptDisableWrite _ | .vddMetReturn
  | .zPeriod _ => false

end Sys2Proof
end

