-- ==== Sys2Proof/Certificates/Slice0/Obligations.lean ====
section
/-!
DEFINITION. The statements for the provers, grouped as the table of commands is.
-/
open Sys2Proof Sys2Proof.Machine

/-- A step runs the command at the front of the queue, with the queue's rest (derived: 95_what_each_step_holds.md).
The model's choices it rests on: log 1. -/
def Obligations.StepRunsFrontCommand : Prop :=
  (∀ (c : Instr) (rest : List Instr) (s : State),
    step { s with pending := c :: rest } = exec c { s with pending := rest }) ∧
  (∀ s : State, s.pending = [] → step s = .next s.tick)

/-- COLD_RESET samples the straps and resets the core die; POWER_DOWN stops it, its pins as R449 says; fuses, flash
and meter stand (derived: R441, R445, R449, R366). The model's choices it rests on: log 7. -/
def Obligations.ColdResetRestartsCoreDie : Prop :=
  (∀ (straps : BitVec 2) (s : State), ∃ t, exec (.coldReset straps) s = .next t ∧
    t.power.core = .running ∧ t.power.straps = straps ∧ t.dram.cells = [] ∧ t.tiles = [] ∧
    (straps = 0 → ∀ a, t.reg a = resetOf a) ∧
    (straps ≠ 0 → t.rfld Reg.STW.BOOT_STATUS 31 28 = 1) ∧
    (2 ≤ straps.toNat → t.rfld Reg.STW.BOOT_STATUS 15 8 = 7 ∧ t.rbit (pgErr U.stw) 10 = true) ∧
    t.fuses = s.fuses ∧ t.stw.flash = s.stw.flash ∧ t.stw.svn = s.stw.svn ∧ t.meter = s.meter ∧ t.pending = s.pending) ∧
  (∀ s : State, ∃ t, exec .powerDown s = .next t ∧
    t.power.core = .unpowered ∧ t.dram.cells = [] ∧ (∀ a, t.reg a = resetOf a) ∧
    t.power.trigOut = 0 ∧ t.power.ppsOut = false ∧ t.power.thermN = true ∧ t.power.pwrFaultN = true ∧
    t.fuses = s.fuses ∧ t.stw.flash = s.stw.flash ∧ t.stw.svn = s.stw.svn ∧ t.meter = s.meter ∧ t.pending = s.pending)

/-- RAIL_FAULT and THERMAL_TRIP hold the core die with PWR_FAULT_N low; CLOCK_LOSS and CLOCK_RETURN set and clear
CLK_STATUS (derived: R442, R447, R453). -/
def Obligations.RailsTripAndClocksOfTheCore : Prop :=
  (∀ (rail : Rail) (s : State), s.on →
    exec (.railFault rail) s = .next { s with power := { s.power with core := .held, faulted := true, pwrFaultN := false } }) ∧
  (∀ s : State, s.on → (if s.fuses.grade = 2 then 460 else 540) ≤ signedN 12 (s.rfld Reg.DEVCTL.TEMP 11 0) →
    exec .thermalTrip s = .next { s with power := { s.power with core := .held, faulted := true, pwrFaultN := false } }) ∧
  (∀ s : State, s.on → s.rbit Reg.DEVCTL.CLK_STATUS 0 = false →
    exec (.clockLoss .sd0) s = .next (((s.setBit Reg.DEVCTL.CLK_STATUS 0).raise U.devctl 13).portsLose 0 8)) ∧
  (∀ s : State, s.on → s.rbit Reg.DEVCTL.CLK_STATUS 1 = false →
    exec (.clockLoss .sd1) s = .next (((s.setBit Reg.DEVCTL.CLK_STATUS 1).raise U.devctl 13).portsLose 8 4)) ∧
  (∀ s : State, s.on → s.rbit Reg.DEVCTL.CLK_STATUS 2 = false → s.linkPm ≠ 3 → s.linkPm ≠ 4 →
    exec (.clockLoss .pcie) s = .next ((s.setBit Reg.DEVCTL.CLK_STATUS 2).raise U.devctl 13).pcieLost) ∧
  (∀ s : State, s.on → Regs.wf s = true → s.rbit Reg.DEVCTL.CLK_STATUS 3 = false → s.runState U.tmu < 3 →
    let lost := (s.setBit Reg.DEVCTL.CLK_STATUS 3).raise U.devctl 13
    exec (.clockLoss .sys) s = .next (lost.enterFaulted U.tmu false) ∧
      (lost.enterFaulted U.tmu false).runState U.tmu = 3 ∧ (lost.enterFaulted U.tmu false).power.ppsOut = false ∧
      (lost.enterFaulted U.tmu false).rbit Reg.DEVCTL.CLK_STATUS 3 = true ∧
      (lost.enterFaulted U.tmu false).rbit (pgErr U.devctl) 13 = true) ∧
  (∀ s : State, s.on → Regs.wf s = true → s.rbit Reg.DEVCTL.CLK_STATUS 3 = false → 3 ≤ s.runState U.tmu →
    exec (.clockLoss .sys) s = .next ((s.setBit Reg.DEVCTL.CLK_STATUS 3).raise U.devctl 13)) ∧
  (∀ s : State, s.on →
    (s.rbit Reg.DEVCTL.CLK_STATUS 0 = true → exec (.clockLoss .sd0) s = .next s) ∧
    (s.rbit Reg.DEVCTL.CLK_STATUS 1 = true → exec (.clockLoss .sd1) s = .next s) ∧
    (s.rbit Reg.DEVCTL.CLK_STATUS 2 = true ∨ s.linkPm = 3 ∨ s.linkPm = 4 → exec (.clockLoss .pcie) s = .next s) ∧
    (s.rbit Reg.DEVCTL.CLK_STATUS 3 = true → exec (.clockLoss .sys) s = .next s)) ∧
  (∀ s : State, s.on →
    exec (.clockReturn .sd0) s = .next (s.clrBit Reg.DEVCTL.CLK_STATUS 0) ∧
    exec (.clockReturn .sd1) s = .next (s.clrBit Reg.DEVCTL.CLK_STATUS 1) ∧
    exec (.clockReturn .pcie) s = .next (s.clrBit Reg.DEVCTL.CLK_STATUS 2) ∧
    exec (.clockReturn .sys) s = .next s)

/-- While the core die is unpowered or held, no command but COLD_RESET, POWER_DOWN and those of the meter die changes
anything (derived: R442, R445). The model's choices it rests on: log 6. -/
def Obligations.HeldCoreDieIgnoresCommands : Prop :=
  ∀ (c : Instr) (s : State), s.power.core ≠ .running → c.ofMeter = false →
    (∀ straps, c ≠ .coldReset straps) → c ≠ .powerDown →
    exec c s = .next s ∨ exec c s = .fault .noSuchInstance

/-- AVS_TARGET_WRITE moves the target one 5 mV step within 700 to 850 mV; TJ_HIGH drives THERM_N by the grade's
maximum (derived: R443, R444, R453, R455). The model's choices it rests on: log 13. -/
def Obligations.AvsTargetAndJunctionLimit : Prop :=
  (∀ now want : Nat, 700 ≤ now → now ≤ 850 → now % 5 = 0 →
    700 ≤ avsStep now want ∧ avsStep now want ≤ 850 ∧ avsStep now want % 5 = 0 ∧
      avsStep now want ≤ now + 5 ∧ now ≤ avsStep now want + 5) ∧
  (∀ (s : State) (sense : BitVec 10), s.on →
    let n := avsStep (s.rfld Reg.DEVCTL.AVS_STATUS 25 16)
      (Config.avsWant s.fuses.avsVolt (BitVec.ofNat 12 (s.rfld Reg.DEVCTL.TEMP 11 0)))
    let sent := (s.emit (.avs n)).setFld Reg.DEVCTL.AVS_STATUS 9 0 sense.toNat
    exec (.avsTargetWrite true false sense) s = .next (sent.setFld Reg.DEVCTL.AVS_STATUS 31 16 n) ∧
    (∀ ack regFault, (ack && !regFault) = false →
      exec (.avsTargetWrite ack regFault sense) s = .next ((sent.setFld Reg.DEVCTL.AVS_STATUS 31 31 1).raise U.devctl 14))) ∧
  (∀ (s : State) (tj : BitVec 12), s.on → Regs.wf s = true →
    let most : Int := if s.fuses.grade = 2 then 420 else 500
    let v := signedN 12 tj.toNat
    ∃ t, exec (.tjHigh tj) s = .next t ∧
      t.reg Reg.DEVCTL.TEMP = BitVec.ofNat 32 tj.toNat ∧
      (most < v → s.power.thermN = true →
        t.power.thermN = false ∧ t.reg Reg.DEVCTL.THERM_STATUS = 1 ∧ t.rbit (pgErr U.devctl) 12 = true) ∧
      (v ≤ most - 20 → s.power.thermN = false → t.power.thermN = true ∧ t.reg Reg.DEVCTL.THERM_STATUS = 0) ∧
      (v ≤ most → s.power.thermN = true → t.power.thermN = true) ∧
      (most - 20 < v → s.power.thermN = false → t.power.thermN = false) ∧
      (∀ a, a ≠ Reg.DEVCTL.TEMP → a ≠ Reg.DEVCTL.TJ_PEAK → a ≠ Reg.DEVCTL.THERM_STATUS → a ≠ pgErr U.devctl →
        a ≠ pgErrCnt U.devctl → a ≠ pgFirst U.devctl → t.reg a = s.reg a) ∧
      t.clock = s.clock ∧ t.dram = s.dram ∧ t.tiles = s.tiles ∧ t.stw = s.stw)

/-- UNMAPPED_ACCESS reads zero and records the first uncovered address; PARTIAL_ACCESS reads zero and sets
PG_ERR.ACCESS of the unit (derived: R14, R15). -/
def Obligations.UncoveredAccessIsRecorded : Prop :=
  (∀ (addr : BitVec 28) (s : State), s.bus → locate addr.toNat = .hole →
    let noted (s : State) : State :=
      if s.rbit Reg.DEVCTL.UNMAPPED_ADDR 31 then s
      else s.setNum Reg.DEVCTL.UNMAPPED_ADDR (2 ^ 31 + addr.toNat / 4 * 4)
    exec (.unmappedAccess false addr) s = .next { noted s with rdata := 0 } ∧
    exec (.unmappedAccess true addr) s = .next (noted s)) ∧
  (∀ (write : Bool) (addr : BitVec 28) (enables : BitVec 4) (u : Inst) (off : Nat) (s : State), s.bus →
    enables ≠ 0 → enables ≠ 0xF → locate addr.toNat = .page u off → s.has u = true → s.runState u ≠ 4 →
    exec (.partialAccess write addr enables) s = .next ((if write then s else s.answer 0).raise u 1)) ∧
  (∀ (write : Bool) (addr : BitVec 28) (enables : BitVec 4) (r off : Nat) (s : State), s.bus →
    enables ≠ 0 → enables ≠ 0xF → (locate addr.toNat = .ring r off ∨ locate addr.toNat = .fence r off) →
    s.runState U.pep ≠ 4 →
    exec (.partialAccess write addr enables) s = .next ((if write then s else s.answer 0).raise U.pep 1)) ∧
  (∀ (addr : BitVec 28) (enables : BitVec 4) (u : Inst) (off : Nat) (s : State), s.bus → locate addr.toNat = .page u off →
    s.has u = true → s.runState u = 4 → exec (.partialAccess true addr enables) s = .next s)

/-- REGISTER_WRITE to a register of a table: RW-S only while STOPPED, BOOT only before SEAL, RW-L at once or kept while the
unit serves windows; a register whose write is a command of its own is that command (derived: R28, R29, R30). -/
def Obligations.RegisterWriteFollowsAccessCodes : Prop :=
  (∀ (src : Stamp) (addr : BitVec 28) (v : Word) (u : Inst) (off : Nat) (d : RegDesc) (s : State), s.bus →
    addr.toNat % 4 = 0 → locate addr.toNat = .page u off → u.base + off = addr.toNat → 0x40 ≤ off →
    u.blk ∈ [Blk.nix, .ing, .dec, .lns, .dmc, .met] → s.live? u →
    (descsOf u.blk).find? (fun d => d.covers off) = some d → BitVec.ofNat 32 d.w1c = 0 →
    addr.toNat ≠ Reg.PEP.ATTN_EN → addr.toNat ≠ Reg.PFB.REPAIR_CTRL →
    let old := s.reg addr.toNat
    let put (m : Word) : State := s.setReg addr.toNat ((old &&& ~~~m) ||| (v &&& m))
    let S := BitVec.ofNat 32 d.rws
    let B := BitVec.ofNat 32 d.boot
    let L := BitVec.ofNat 32 d.rwl
    (B = 0 → L = 0 → S ≠ 0 → s.runState u = 0 → exec (.registerWrite src addr v) s = .next (put S)) ∧
    (B = 0 → L = 0 → S ≠ 0 → s.runState u ≠ 0 → v &&& S = old &&& S → exec (.registerWrite src addr v) s = .next s) ∧
    (B = 0 → L = 0 → S ≠ 0 → s.runState u ≠ 0 → v &&& S ≠ old &&& S →
      exec (.registerWrite src addr v) s = .next
        ((if s.rbit (pgStatic u) 31 then s.setBit (pgStatic u) 30 else s.setNum (pgStatic u) (2 ^ 31 + off % 2 ^ 24)).raise u 0)) ∧
    (S = 0 → L = 0 → B ≠ 0 → s.isSealed = false → exec (.registerWrite src addr v) s = .next (put B)) ∧
    (S = 0 → L = 0 → B ≠ 0 → s.isSealed = true → exec (.registerWrite src addr v) s = .next (s.raise u 1)) ∧
    (S = 0 → B = 0 → L ≠ 0 → s.servesWindows u = false → exec (.registerWrite src addr v) s = .next (put L)) ∧
    (S = 0 → B = 0 → L ≠ 0 → s.servesWindows u = true →
      exec (.registerWrite src addr v) s = .next
        { s with live := s.live ++ [{ unit := u, addr := addr.toNat, mask := L, value := v }] }) ∧
    (S = 0 → B = 0 → L = 0 → exec (.registerWrite src addr v) s = .next s) ∧
    (Regs.wf s = true → s.runState u = 0 → s.isSealed = false → s.servesWindows u = false →
      ∃ t, exec (.registerWrite src addr v) s = .next t ∧
        t.reg addr.toNat = (old &&& ~~~(S ||| B ||| L)) ||| (v &&& (S ||| B ||| L)) ∧
        (∀ a, a ≠ addr.toNat → t.reg a = s.reg a) ∧ t.live = s.live ∧ t.clock = s.clock ∧ t.dram = s.dram)) ∧
  (∀ (src : Stamp) (v : Word) (s : State),
    exec (.registerWrite src (BitVec.ofNat 28 Reg.DEVCTL.SOFT_RESET) v) s = exec (.softReset v) s ∧
    exec (.registerWrite src (BitVec.ofNat 28 Reg.TMU.REPLAY_TARGET_LO) v) s = exec (.replayTargetLo v) s ∧
    exec (.registerWrite src (BitVec.ofNat 28 Reg.PLE.LOAD) v) s = exec (.planLoad v) s ∧
    exec (.registerWrite src (BitVec.ofNat 28 Reg.SEC.SEAL_CTRL) v) s = exec (.seal v) s ∧
    exec (.registerWrite src (BitVec.ofNat 28 Reg.STW.HOST_BOOT) v) s = exec (.hostBoot v) s ∧
    exec (.registerWrite src (BitVec.ofNat 28 Reg.PFB.REPAIR_REQ) v) s = exec (.repairReq v) s)

/-- LIVE_WRITE_APPLY makes the kept writes of an instance take effect, the last write to each field winning, and
leaves other instances' waiting (derived: R29). -/
def Obligations.KeptWritesLandTogether : Prop :=
  (∀ (u : Inst) (s : State), s.on → u.ok = true → s.has u = true → s.servesWindows u = false →
    ∃ t, exec (.liveWriteApply u) s = .next t ∧ t.live = s.live.filter (fun l => decide (l.unit ≠ u))) ∧
  (∀ (u : Inst) (p : Nat) (s : State), s.on → u.ok = true → s.has u = true → s.servesWindows u = true →
    (s.startsOf u).min? = some p → s.ticking = true → p < 2 ^ 24 → s.calmFor (fun s => s.toPhase p) →
    ∃ t, exec (.liveWriteApply u) s = .next t ∧ t.live = s.live.filter (fun l => decide (l.unit ≠ u)) ∧
      t.clock.phase.toNat = Nat.max s.clock.phase.toNat p) ∧
  (∀ (u : Inst) (a : Nat) (m n x y : Word) (s : State), s.on → Regs.wf s = true → u.ok = true → s.has u = true →
    s.servesWindows u = false → a ≠ Reg.PEP.ATTN_EN → a ≠ Reg.PFB.REPAIR_CTRL →
    s.live = [{ unit := u, addr := a, mask := m, value := x }, { unit := u, addr := a, mask := n, value := y }] →
    ∃ t, exec (.liveWriteApply u) s = .next t ∧ t.live = [] ∧
      t.reg a = (y &&& n) ||| (x &&& m &&& ~~~n) ||| (s.reg a &&& ~~~m &&& ~~~n) ∧
      ∀ b, b ≠ a → t.reg b = s.reg b)

/-- RUN_WRITE: STOPPED to RUNNING, RUNNING to STOPPED or, while serving a window, STOPPING; ignored where R23 to R25
say so (derived: R20, R23, R24, R25). -/
def Obligations.RunWriteMovesRunState : Prop :=
  ∀ (u : Inst) (s : State), s.bus → s.live? u →
    (Regs.wf s = true → runFixed u = false → s.resetting u = false → s.runState u = 0 → s.runRefused u true = false →
      (u.blk = .dmc → (s.dmcOf u.idx).initDone = true) →
      ∃ t, exec (.runWrite u true) s = .next t ∧ t.runState u = 1 ∧ t.rbit (pgCtrl u) 0 = true) ∧
    (Regs.wf s = true → runFixed u = false → s.resetting u = false → s.runState u = 1 → s.runRefused u false = false →
      s.serving u = true →
      exec (.runWrite u false) s = .next ((s.setFld (pgCtrl u) 0 0 0).setRun u 2)) ∧
    (Regs.wf s = true → runFixed u = false → s.resetting u = false → s.runState u = 1 → s.runRefused u false = false →
      s.serving u = false → (∀ l ∈ s.live, l.addr ≠ pgState u ∧ l.addr ≠ pgCtrl u) →
      ∃ t, exec (.runWrite u false) s = .next t ∧ t.runState u = 0 ∧ t.rbit (pgCtrl u) 0 = false) ∧
    (u.blk = .dmc → s.runState u = 0 → s.resetting u = false → (s.dmcOf u.idx).initDone = false →
      exec (.runWrite u true) s = .next (s.setFld (pgCtrl u) 0 0 1)) ∧
    (∀ run, runFixed u = false → s.runRefused u run = true → exec (.runWrite u run) s = .next (s.raise u 4)) ∧
    (∀ run, runFixed u = true ∨ ((s.runState u = 3 ∨ s.resetting u = true) ∧ s.runRefused u run = false) →
      exec (.runWrite u run) s = .next s)

/-- INSTANCE_RESET sets PG_CTRL.RESET unless refused; RESET_COMPLETE stops the unit, clears its errors, keeps
PG_ERR_CNT (derived: R21, R22, R23, R26). -/
def Obligations.ResetBeginsAndCompletes : Prop :=
  (∀ (u : Inst) (run : Bool) (s : State), s.bus → s.live? u →
    (u.blk.alwaysRuns = true → exec (.instanceReset u run) s = .next s) ∧
    (u.blk = .stw → exec (.instanceReset u run) s = .next (s.unitReset u) ∧ (Regs.wf s = true →
      (s.unitReset u).runState u = 0 ∧ (s.unitReset u).stw.asleep = false ∧ (s.unitReset u).stw.followOn = true)) ∧
    (u.blk.alwaysRuns = false → u.blk ≠ .stw → s.resetRefused u = true →
      exec (.instanceReset u run) s = .next (s.raise u 4)) ∧
    (u.blk.alwaysRuns = false → u.blk ≠ .stw → u.blk ≠ .erc → s.resetRefused u = false →
      exec (.instanceReset u run) s = .next (s.setReg (pgCtrl u) 2)) ∧
    (u.blk = .erc → ∃ t, exec (.instanceReset u run) s = .next t ∧ t.regs = (s.setReg (pgCtrl u) 2).regs ∧
      t.erc.pending = s.erc.pending)) ∧
  (∀ (u : Inst) (s : State), s.on → s.live? u → s.rbit (pgCtrl u) 1 = true →
    exec (.resetComplete u) s = .next (s.unitReset u)) ∧
  (∀ (n : Nat) (s : State), n < 256 → s.on → Regs.wf s = true → s.live? (U.scx n) → s.rbit (pgCtrl (U.scx n)) 1 = true →
    ∃ t, exec (.resetComplete (U.scx n)) s = .next t ∧ t.runState (U.scx n) = 0 ∧
      t.reg (pgCtrl (U.scx n)) = 0 ∧ t.reg (pgErr (U.scx n)) = 0 ∧ t.reg (pgFirst (U.scx n)) = 0 ∧
      t.reg (pgStatic (U.scx n)) = 0 ∧ t.reg (pgErrEn (U.scx n)) = 0x1E ∧
      t.reg (pgErrCnt (U.scx n)) = s.reg (pgErrCnt (U.scx n)) ∧
      (∀ off d, 0x40 ≤ off → off < 4096 → (descsOf .scx).find? (fun d => d.covers off) = some d →
        let a := (U.scx n).base + off
        let m := BitVec.ofNat 32 d.rws ||| BitVec.ofNat 32 d.rwl
        t.reg a = (s.reg a &&& ~~~m) ||| (resetOf a &&& m)) ∧
      (∀ a, a < (U.scx n).base ∨ (U.scx n).base + 4096 ≤ a → t.reg a = s.reg a))

/-- An error event sets PG_ERR, counts in PG_ERR_CNT and keeps the first; PG_ERR_CLEAR, PG_ERR_INJ and the SRAM errors
follow R17 to R20 (derived: R17, R18, R19, R20). -/
def Obligations.ErrorEventsAreRecorded : Prop :=
  (∀ (u : Inst) (bit : Nat) (win : EvWin) (inj : Bool) (s : State), Regs.wf s = true → fatalBit u bit = false → u.blk ≠ .erc →
    bit < 32 → ∀ a, (s.raise u bit win inj).reg a =
      if a = pgErrCnt u then addSat (s.reg a) 1
      else if a = pgErr u then s.reg a ||| bit1 bit
      else if a = pgFirst u ∧ s.rbit a 31 = false then BitVec.ofNat 32 (2 ^ 31 + bit)
      else s.reg a) ∧
  (∀ (u : Inst) (v : Word) (s : State), s.bus → s.live? u →
    (s.reg (pgErr u) &&& ~~~v ≠ 0 → Regs.wf s = true →
      exec (.pgErrClear u v) s = .next (s.setReg (pgErr u) (s.reg (pgErr u) &&& ~~~v))) ∧
    (s.reg (pgErr u) &&& ~~~v = 0 → Regs.wf s = true →
      exec (.pgErrClear u v) s = .next ((((s.setReg (pgErr u) 0).clrBit (pgFirst u) 31).clrBit (pgStatic u) 31).clrBit (pgStatic u) 30))) ∧
  (∀ (u : Inst) (b : Nat) (s : State), s.bus → s.live? u → b < 32 →
    ((errDefined u.blk).testBit b = true → b ≠ 2 → ¬(u.blk = .tile ∧ b = 16) → ¬(u.blk = .stw ∧ (b = 8 ∨ b = 9)) →
      exec (.pgErrInj u (bit1 b)) s = .next (s.raise u b none true)) ∧
    ((errDefined u.blk).testBit b = true → b = 2 →
      exec (.pgErrInj u (bit1 b)) s =
        .next ((if u.blk = .tile then s.incS (Reg.TILE.TS_ECC_CORR u.idx) else s).raise u b none true)) ∧
    (u.blk = .tile → b = 16 → exec (.pgErrInj u (bit1 b)) s = .next (s.flagTile u.idx 5 true)) ∧
    (u.blk = .stw → b = 8 → exec (.pgErrInj u (bit1 b)) s = .next (s.lockstepReset true)) ∧
    (u.blk = .stw → b = 9 → exec (.pgErrInj u (bit1 b)) s = .next (s.watchdogReset true)) ∧
    ((errDefined u.blk).testBit b = false → exec (.pgErrInj u (bit1 b)) s = .next s)) ∧
  (∀ (u : Inst) (s : State), s.on → Regs.wf s = true → u.ok = true → s.has u = true → s.runState u < 3 →
    ∃ t, exec (.sramEccError u) s = .next t ∧ t.runState u = 3 ∧ t.rbit (pgErr u) 3 = true) ∧
  (∀ (u : Inst) (s : State), s.on → u.ok = true → s.has u = true →
    exec (.sramEccCorrected u) s =
      .next ((if u.blk = .tile then s.incS (Reg.TILE.TS_ECC_CORR u.idx)
        else if u.blk = .pep then s.aerCor 14 else s).raise u 2))

/-- SOFT_RESET begins a warm reset with every stream FREE and the key, and WARM_RESET_COMPLETE ends it (derived: R37,
R38, R39). -/
def Obligations.SoftResetBeginsWarmReset : Prop :=
  (∀ (v : Word) (s : State), s.bus → s.live? U.devctl →
    (fld v 15 0 = 0x0DE5 → s.streamsInUse = false →
      exec (.softReset v) s = .next { (s.setBit Reg.DEVCTL.RESET_CAUSE 1) with power := { s.power with warm := true } }) ∧
    (fld v 15 0 ≠ 0x0DE5 ∨ s.streamsInUse = true → exec (.softReset v) s = .next (s.raise U.devctl 4))) ∧
  (∀ s : State, s.on → s.power.warm = true →
    ∃ t, exec .warmResetComplete s = .next t ∧ t.power.warm = false ∧ t.pep.fences = [] ∧ t.pep.fenceOwed = [] ∧
      t.pep.idxOwed = [] ∧ t.pep.uploads = [] ∧ (∀ r ∈ t.pep.reads, r.dropped = true) ∧ t.stw.followOn = true)

/-- During a warm reset a BAR0 write command changes nothing (derived: R39). -/
def Obligations.WarmResetIgnoresBar0Writes : Prop :=
  ∀ (c : Instr) (s : State), s.power.warm = true → c.bar0Write = true →
    exec c s = .next s ∨ exec c s = .fault .noSuchInstance

/-- EPOCH_BOUNDARY, an accepted TRIG_IN_EDGE and TRIG_MISS each start the next epoch at phase 0; a stray edge and an
unreleased replay epoch do not (derived: R40, R42, R47, R48, R49, R51, R83). -/
def Obligations.EpochBoundaryAdvancesCount : Prop :=
  let starts (s t : State) (epoch : BitVec 40) (start rate : Nat) : Prop :=
    t.clock.epoch = epoch ∧ t.clock.phase = 0 ∧ t.clock.epochStart = start ∧ t.clock.rate = rate ∧ t.clock.waiting = false ∧
      t.power.trigOut = 0 ∧ t.power.strobe = true ∧ t.fuses = s.fuses
  (∀ s : State, s.on → s.tmuUp = true → s.clock.waiting = true →
    ∃ t, exec .epochBoundary s = .next t ∧ starts s t 0 s.origin s.period) ∧
  (∀ s : State, s.on → s.tmuUp = true → s.clock.waiting = false → s.epochSrc = 0 →
    ∃ t, exec .epochBoundary s = .next t ∧ starts s t (s.clock.epoch + 1) (s.clock.epochStart + s.clock.rate) s.period) ∧
  (∀ s : State, s.on → s.tmuUp = true → s.clock.waiting = false → s.epochSrc = 2 →
    (s.clock.epoch.toNat + 1 ≤ s.clock.replayTarget.toNat →
      ∃ t, exec .epochBoundary s = .next t ∧
        starts s t (s.clock.epoch + 1) (s.origin + (s.clock.epoch.toNat + 1) * s.period) s.period) ∧
    (s.clock.replayTarget.toNat ≤ s.clock.epoch.toNat → exec .epochBoundary s = .next s)) ∧
  (∀ s : State, s.on → s.tmuUp = true → s.epochSrc = 1 →
    let now := s.clock.time.toNat
    let pol := s.rbit Reg.TMU.EPOCH_CFG 2
    (s.rbit Reg.TMU.SYNC_STATUS 2 = true →
      ∃ t, exec (.trigInEdge pol) s = .next t ∧ starts s t (s.clock.epoch + 1) now s.period ∧ t.clock.lastEdge = some now) ∧
    (s.rbit Reg.TMU.SYNC_STATUS 2 = false → s.edgeInTime = true →
      ∃ t, exec (.trigInEdge pol) s = .next t ∧ t.clock.lastEdge = some now ∧
        starts s t (s.clock.epoch + 1) now
          (match s.clock.lastEdge with
          | some e => (now - e) / (s.clock.sinceEdge + 1)
          | none => s.period)) ∧
    (s.rbit Reg.TMU.SYNC_STATUS 2 = false → s.edgeInTime = false →
      exec (.trigInEdge pol) s = .next (s.raise U.tmu 10)) ∧
    (s.rbit Reg.TMU.SYNC_STATUS 2 = false →
      ∃ t, exec .trigMiss s = .next t ∧ t.clock.epoch = s.clock.epoch + 1 ∧ t.clock.phase = 0 ∧
        t.clock.rate = s.clock.rate ∧ t.clock.sinceEdge = s.clock.sinceEdge + 1 ∧ t.power.trigOut = 0 ∧ t.power.strobe = true)) ∧
  (∀ (v : Word) (s : State), s.bus → s.live? U.tmu →
    let t := s.setReg Reg.TMU.REPLAY_TARGET_LO v
    let target := BitVec.ofNat 40 (v.toNat + 2 ^ 32 * t.rfld Reg.TMU.REPLAY_TARGET_HI 7 0)
    exec (.replayTargetLo v) s = .next { t with clock := { s.clock with replayTarget := target } })

/-- SYNC_MESSAGE and PDELAY_REQ_RX take one frame from the inbox, PDELAY_REQ_TX sends one; SYNC_TIMEOUT fails over or enters
holdover; PPS_IN_EDGE steers (derived: R43, R44, R45, R46). The model's choices it rests on: log 62. -/
def Obligations.SyncMessagesDisciplineTime : Prop :=
  (∀ s : State, s.on →
    (∀ i, s.sync.inbox.findIdx? (fun m => ptpType m.2.1 != 2) = some i →
      let m := s.sync.inbox.getD i (0, [], 0)
      let took : State := { s with sync := { s.sync with inbox := s.sync.inbox.eraseIdx i } }
      exec .syncMessage s = .next (if beAt m.2.1 4 1 = s.rfld Reg.TMU.SYNC_CFG 7 0 then
        took.ptpMessage (took.altOf m.1.toNat) m.2.1 m.2.2.toNat else took)) ∧
    (s.sync.inbox.findIdx? (fun m => ptpType m.2.1 != 2) = none → exec .syncMessage s = .next s)) ∧
  (∀ (alt : Bool) (b : Bytes) (arrival : Nat) (s : State), ptpType b = 11 → (s.ptpOf alt).gm = none →
    (s.ptpMessage alt b arrival).ptpOf alt = { s.ptpOf alt with gm := some (ptpVector b) }) ∧
  (∀ (b : Bytes) (q arrival t : Nat) (s : State), Regs.wf s = true → ptpType b = 8 → ptpSeq b = q →
    (s.ptpOf s.followsAlt).syncRx = some (q, t) → (s.ptpOf s.followsAlt).gm.isSome = true → s.runState U.tmu ≠ 3 →
    s.epochSrc ≠ 2 →
    let u := s.ptpMessage s.followsAlt b arrival
    u.clock.slew = ptpTime b + (s.ptpOf s.followsAlt).delay - t ∧ u.rbit Reg.TMU.SYNC_STATUS 1 = false ∧
      (u.ptpOf s.followsAlt).valid = true ∧ (u.ptpOf s.followsAlt).last = s.clock.time.toNat) ∧
  (∀ (i : Nat) (s : State), s.on → s.sync.inbox.findIdx? (fun m => ptpType m.2.1 == 2) = some i →
    let m := s.sync.inbox.getD i (0, [], 0)
    let n := m.1.toNat
    let took : State := { s with sync := { s.sync with inbox := s.sync.inbox.eraseIdx i } }
    let reply (type flags t : Nat) : Bytes :=
      took.ptpHeader n type 54 flags (ptpSeq m.2.1) 0x7F ++ ptpStamp t ++ sliceB m.2.1 20 10
    ((beAt m.2.1 4 1 == s.rfld Reg.TMU.SYNC_CFG 7 0 && !took.altOf n && took.portSends n) = true →
      ∃ u, exec .pdelayReqRx s = .next u ∧ u = (took.ptpSend n (reply 3 0x0200 m.2.2.toNat)).ptpSend n
        ((took.ptpSend n (reply 3 0x0200 m.2.2.toNat)).ptpHeader n 10 54 0 (ptpSeq m.2.1) 0x7F ++ ptpStamp s.clock.time.toNat ++
          sliceB m.2.1 20 10)) ∧
    ((beAt m.2.1 4 1 == s.rfld Reg.TMU.SYNC_CFG 7 0 && !took.altOf n && took.portSends n) = false →
      exec .pdelayReqRx s = .next took)) ∧
  (∀ (port : BitVec 4) (s : State), s.on → port.toNat < 12 → s.has (U.nix port.toNat) = true →
    (!s.altOf port.toNat || (s.rbit Reg.TMU.SYNC_CFG 31 && port.toNat == s.syncPort true)) = true →
    s.portSends port.toNat = true →
    let alt := s.altOf port.toNat
    let q := ((s.ptpOf alt).reqSeq + 1) % 65536
    let asked := s.setPtp alt { s.ptpOf alt with reqSeq := q, reqTx := some s.clock.time.toNat, resp := none }
    exec (.pdelayReqTx port) s =
      .next (asked.ptpSend port.toNat (asked.ptpHeader port.toNat 2 54 0 q 0 ++ List.replicate 20 0))) ∧
  (∀ s : State, s.on → s.rbit Reg.TMU.SYNC_STATUS 1 = false →
    let t := (s.ptpOf s.followsAlt).lostAt
    let u := s.toTime t
    s.calmFor (fun s => s.toTime t) → t ≤ u.clock.time.toNat → exec .syncTimeout s = .next u.syncLost) ∧
  (∀ s : State,
    let p := s.ptpOf s.followsAlt
    let q := s.ptpOf (!s.followsAlt)
    let lost := s.setPtp s.followsAlt { p with valid := false, syncRx := none }
    let heir := s.rbit Reg.TMU.SYNC_CFG 31 && s.hears q && p.gm.map gmIdentity == q.gm.map gmIdentity
    (heir = true → s.syncLost = ({ lost with sync := { lost.sync with onAlt := !s.followsAlt } } : State).raise U.tmu 8) ∧
    (heir = false → s.syncLost = ({ lost.setBit Reg.TMU.SYNC_STATUS 1 with
      clock := { s.clock with slew := 0 } } : State).raise U.tmu 8)) ∧
  (∀ s : State, s.on → s.rbit Reg.TMU.PPS_CTRL 1 = true → (s.ptpOf s.followsAlt).valid = false → s.runState U.tmu ≠ 3 →
    s.epochSrc ≠ 2 →
    let r : Nat := s.clock.time.toNat % 10 ^ 9
    exec .ppsInEdge s = .next { s with
      clock := { s.clock with slew := if r < 5 * 10 ^ 8 then -(r : Int) else ((10 ^ 9 - r : Nat) : Int) } })

/-- PPS_OUT and TRIG_OUT go high and return low when device time and phase reach their moments; reads of the low words
latch the high ones (derived: R46, R52, R82). -/
def Obligations.TimingOutputsFollowTheClock : Prop :=
  (∀ s : State, s.on → s.rbit Reg.TMU.PPS_CTRL 0 = true → s.runState U.tmu ≠ 3 → s.epochSrc ≠ 2 →
    s.clock.time.toNat + 10 ^ 9 < 2 ^ 64 →
    let now := s.clock.time.toNat
    let sec := if now % 10 ^ 9 = 0 ∧ now / 10 ^ 9 ≠ s.clock.ppsLast then now / 10 ^ 9 else now / 10 ^ 9 + 1
    s.calmFor (fun s => s.toTime (sec * 10 ^ 9)) →
    ∃ t, exec .ppsOutPulse s = .next t ∧ t.power.ppsOut = true ∧ t.clock.time.toNat % 10 ^ 9 = 0 ∧
      s.clock.time.toNat ≤ t.clock.time.toNat ∧ t.clock.time.toNat ≤ s.clock.time.toNat + 10 ^ 9 ∧
      t.clock.ppsUntil = some (t.clock.time.toNat + 10 ^ 6)) ∧
  (∀ (u : Nat) (s : State), s.on → s.clock.ppsUntil = some u → s.runState U.tmu ≠ 3 → s.epochSrc ≠ 2 → u < 2 ^ 64 →
    s.calmFor (fun s => s.toTime u) →
    ∃ t, exec .ppsOutEnd s = .next t ∧ t.power.ppsOut = false ∧ t.clock.ppsUntil = none ∧
      t.clock.time.toNat = Nat.max s.clock.time.toNat u) ∧
  (∀ (n : BitVec 2) (s : State), s.on → s.ticking = true →
    let c := s.clock.trigCfg.getD n.toNat (0, 0)
    tst c.1 31 = true → s.clock.trigEnd[n.toNat]? = some none → 0 < fld c.2 23 0 → fld c.1 23 0 < 0xFFFFFF →
    s.calmFor (fun s => s.toPhase (fld c.1 23 0)) →
    ∃ t, exec (.trigOutStart n) s = .next t ∧ t.power.trigOut.getLsbD n.toNat = true ∧
      fld c.1 23 0 ≤ t.clock.phase.toNat ∧
      t.clock.trigEnd[n.toNat]? = some (some (min (fld c.1 23 0 + fld c.2 23 0) 0xFFFFFF))) ∧
  (∀ (n : BitVec 2) (stop : Nat) (s : State), s.on → s.ticking = true → s.clock.trigEnd[n.toNat]? = some (some stop) →
    stop < 2 ^ 24 → s.calmFor (fun s => s.toPhase stop) →
    ∃ t, exec (.trigOutEnd n) s = .next t ∧ t.power.trigOut.getLsbD n.toNat = false ∧ stop ≤ t.clock.phase.toNat) ∧
  (∀ s : State, s.bus →
    exec .epochLoRead s = .next { s.setNum Reg.TMU.EPOCH_HI (s.clock.epoch.toNat / 2 ^ 32) with
      rdata := BitVec.ofNat 32 s.clock.epoch.toNat } ∧
    exec .timeLoRead s = .next { s.setNum Reg.TMU.TIME_HI (s.clock.time.toNat / 2 ^ 32) with
      rdata := BitVec.ofNat 32 s.clock.time.toNat })

/-- Plan slots, loads, commits, cancels, slot configuration and stream deadlines, with their refusals (derived: R58,
R60, R72, R76, R85, R86). -/
def Obligations.PlanSlotsAndCommits : Prop :=
  (∀ (v : Word) (s : State), s.bus →
    ((List.range 16).all (fun i => s.slotState i != 1) = true → s.slotState (fld v 3 0) ≠ 4 →
      exec (.planLoad v) s = .next { s.setSlot (fld v 3 0) 1 0 with ple := { s.ple with loading := some (fld v 3 0) } }) ∧
    ((List.range 16).any (fun i => s.slotState i == 1) = true ∨ s.slotState (fld v 3 0) = 4 →
      exec (.planLoad v) s = .next (s.raise U.ple 4))) ∧
  (∀ (n : Nat) (s : State), s.on → s.ple.loading = some n →
    let r := s.readBeats U.ple (s.slotBase n) (s.loadBytes n)
    let done : State := { r with ple := { r.ple with loading := none } }
    (s.loadCheck n = 0 → exec .planLoadDone s = .next (done.setSlot n 2 0)) ∧
    (s.loadCheck n ≠ 0 → exec .planLoadDone s = .next ((done.setSlot n 3 (s.loadCheck n)).raise U.ple 11))) ∧
  (∀ (v : Word) (s : State), s.bus → tst v 8 = false →
    ((s.commitState = 0 ∨ 4 ≤ s.commitState) → s.slotState (fld v 3 0) = 2 →
      exec (.commit v) s = .next
        { ((s.setSlot (fld v 3 0) 4 0).setCommit 1).setFld Reg.PLE.COMMIT_STATUS 7 4 (fld v 3 0) with
          ple := { s.ple with checking := some (fld v 3 0, s.clock.phase, s.clock.epoch, true) } }) ∧
    (1 ≤ s.commitState → s.commitState ≤ 3 →
      exec (.commit v) s = .next ((s.setBit Reg.PLE.COMMIT_STATUS 28).raise U.ple 4))) ∧
  (∀ (n : Nat) (ph : BitVec 24) (ep : BitVec 40) (s : State), s.on → s.ple.checking = some (n, ph, ep, true) →
    ((s.planCheck (s.parsePlan n)).1 = 0 →
      ∃ t, exec .planCheckDone s = .next t ∧ t.ple.checking = none ∧
        t.ple.next = some (s.parsePlan n, ep + (if 0xFC0000 < ph.toNat then 2 else 1)) ∧
        (Regs.wf s = true → t.commitState = if 0xFC0000 < ph.toNat then 3 else 2)) ∧
    ((s.planCheck (s.parsePlan n)).1 ≠ 0 → Regs.wf s = true → n < 16 →
      ∃ t, exec .planCheckDone s = .next t ∧ t.ple.checking = none ∧ t.ple.next = s.ple.next ∧ t.commitState = 4 ∧
        t.slotState n = 2 ∧ t.rfld Reg.PLE.COMMIT_STATUS 15 8 = (s.planCheck (s.parsePlan n)).1 % 256 ∧
        t.rbit (pgErr U.ple) 11 = true)) ∧
  (∀ (v : Word) (p : Plan) (e : BitVec 40) (s : State), s.bus → s.ple.next = some (p, e) →
    (s.clock.epoch.toNat * 2 ^ 24 + s.clock.phase.toNat + 2 ^ 18 ≤ e.toNat * 2 ^ 24 →
      exec (.commitCancel v) s = .next
        { (s.setSlot p.slot 2 0).setCommit 5 with ple := { s.ple with next := none } }) ∧
    (e.toNat * 2 ^ 24 < s.clock.epoch.toNat * 2 ^ 24 + s.clock.phase.toNat + 2 ^ 18 →
      exec (.commitCancel v) s = .next (s.setBit Reg.PLE.COMMIT_STATUS 28))) ∧
  (∀ (slot : BitVec 4) (r : SlotReg) (v : Word) (s : State), s.bus →
    (s.slotState slot.toNat ≠ 1 → s.slotState slot.toNat ≠ 4 →
      exec (.slotConfigWrite slot r v) s =
        .next ((s.setReg (slotReg slot.toNat r).1 (v &&& (slotReg slot.toNat r).2)).setSlot slot.toNat 0 0)) ∧
    (s.slotState slot.toNat = 1 ∨ s.slotState slot.toNat = 4 →
      exec (.slotConfigWrite slot r v) s = .next (s.raise U.ple 4))) ∧
  (∀ (n : BitVec 8) (v : Word) (s : State), s.bus →
    (s.served n.toNat = false →
      exec (.streamDlWrite n v) s = .next (s.setReg (Reg.PLE.STREAM_DL n.toNat) (v &&& 0x03FFFFFF))) ∧
    (s.served n.toNat = true → exec (.streamDlWrite n v) s = .next (s.raise U.ple 4)))

/-- WINDOW_OPEN, WINDOW_FIRE and WINDOW_SKIP_LATEST move a window of the plan in effect as Table 2.4 says (derived:
R61, R62, R63, R64, R138). -/
def Obligations.WindowsOpenFireAndSkip : Prop :=
  ∀ (p : Plan) (w : BitVec 12) (e : PlanWindow) (s : State), s.wf = true → s.on → s.ple.plan = some p →
    p.windows[w.toNat]? = some e → s.running U.ple = true → s.ticking = true →
    let now := s.clock.phase.toNat
    ((s.win w.toNat).st = .waiting → e.start < 2 ^ 24 → s.calm (eventKey (Nat.max now e.start) w.toNat) →
      ∃ t, exec (.windowOpen w) s = .next t ∧ (t.win w.toNat).st = .open ∧
        t.clock.phase.toNat = Nat.max now e.start ∧ ∀ v, v ≠ w.toNat → t.win v = s.win v) ∧
    (s.fires p w.toNat e = true → s.calm (eventKey now w.toNat) →
      ∃ t, exec (.windowFire w) s = .next t ∧ (t.win w.toNat).fireAt = some s.clock.phase ∧
        (e.kind ≠ 0 ∨ e.srcFrame = true → (t.win w.toNat).st = .fired) ∧
        (e.kind = 0 → e.srcFrame = false → (t.win w.toNat).went .done = true ∧
          t.reg Reg.PLE.FIRED_CNT = addWrap (s.reg Reg.PLE.FIRED_CNT) 1) ∧
        ∀ v, v ≠ w.toNat → t.win v = s.win v) ∧
    ((s.win w.toNat).st = .open → (s.win w.toNat).blocked = false → s.fires p w.toNat e = false → e.latest + 1 < 2 ^ 24 →
      s.calm (eventKey (Nat.max now (e.latest + 1)) w.toNat) →
      ∃ t, exec (.windowSkipLatest w) s = .next t ∧ (t.win w.toNat).went .skipped = true ∧ e.latest < t.clock.phase.toNat ∧
        ∀ v f, p.windows[v]? = some f → (s.win v).st = .waiting ∨ (s.win v).st = .open → w.toNat ∈ f.deps →
          (t.win v).went .skipped = true)

/-- WINDOW_DONE, DEADLINE_FORCE and UNIT_ABORT_COMPLETE end a window; PLE_LOCKSTEP_MISMATCH faults PLE (derived: R61,
R64, R67, R70, R84). -/
def Obligations.WindowsEnd : Prop :=
  (∀ (p : Plan) (w : BitVec 12) (e : PlanWindow) (s : State), s.wf = true → s.on → s.ple.plan = some p →
    p.windows[w.toNat]? = some e → s.running U.ple = true → s.ticking = true →
    ((s.win w.toNat).st = .fired → s.workDone w.toNat e = true → s.clock.phase.toNat < e.deadline →
      s.calm (eventKey s.clock.phase.toNat w.toNat) →
      ∃ t, exec (.windowDone w) s = .next t ∧ (t.win w.toNat).went .done = true ∧
        ((s.win w.toNat).handed = true → (s.win w.toNat).left = [] → (t.win w.toNat).st = .closed)) ∧
    (((s.win w.toNat).st = .fired ∧ ¬(s.workDone w.toNat e = true ∧ s.clock.phase.toNat < e.deadline)) ∨
        ((s.win w.toNat).st = .open ∧ (s.win w.toNat).blocked = true) → e.deadline < 2 ^ 24 →
      s.calm (eventKey (Nat.max s.clock.phase.toNat e.deadline) w.toNat) →
      ∃ t, exec (.deadlineForce w) s = .next t ∧ (t.win w.toNat).went .forced = true ∧ e.deadline ≤ t.clock.phase.toNat ∧
        t.reg Reg.PLE.LAST_FORCED = BitVec.ofNat 32 (2 ^ 31 + w.toNat * 4096 + e.stream) ∧
        ∀ v f, p.windows[v]? = some f → (s.win v).st = .waiting ∨ ((s.win v).st = .open ∧ v ≠ w.toNat) → w.toNat ∈ f.deps →
          (t.win v).went .skipped = true) ∧
    ((s.win w.toNat).st = .forced → (s.win w.toNat).left ≠ [] →
      ∃ t, exec (.unitAbortComplete w) s = .next t ∧ (t.win w.toNat).left = [] ∧ (t.win w.toNat).went .forced = true ∧
        ((s.win w.toNat).handed = true → (t.win w.toNat).st = .closed))) ∧
  (∀ s : State, s.on → exec .pleLockstepMismatch s = .next (s.raise U.ple 8) ∧
    (s.wf = true → s.runState U.ple < 3 → (s.raise U.ple 8).runState U.ple = 3 ∧
      (s.raise U.ple 8).rbit (pgErr U.ple) 8 = true))

/-- NOP, END, STAGE, WAITCTR, EMITOBJ issue in order and have the effect of Table 9.3; a broken one stops the program
(derived: R235, R239, R240, R253, R255, R256). -/
def Obligations.ControlInstructionsIssue : Prop :=
  let keeps (s u : State) (t : Nat) : Prop :=
    (u.tileOf t).store = (s.tileOf t).store ∧ (u.tileOf t).vreg = (s.tileOf t).vreg ∧ u.dram = s.dram
  (∀ (x : TileInsn) (p : TileProg) (s : State), s.wf = true → s.issuesNow x 0 0 p → x.lo = 0 → noWords x = true →
    ∃ u, exec (.nop x) s = .next u ∧ s.advanced u x.tile.toNat p ∧ keeps s u x.tile.toNat) ∧
  (∀ (x : TileInsn) (p : TileProg) (s : State), s.wf = true → s.issuesNow x 0 0 p → x.lo ≠ 0 ∨ noWords x = false →
    ∃ u q, exec (.nop x) s = .next u ∧ keeps s u x.tile.toNat ∧ u.progOf x.tile.toNat = some q ∧ q.pc = p.pc ∧ q.halted = true ∧
      u.reg (Reg.TILE.LAST_INVALID x.tile.toNat) = BitVec.ofNat 32 (2 ^ 31 + 2 * 2 ^ 24 + p.win.toNat * 4096 + p.stream.toNat) ∧
      u.rbit (pgErr (U.tile x.tile.toNat)) 11 = true) ∧
  (∀ (x : TileInsn) (p : TileProg) (s : State), s.wf = true → s.issuesNow x 0 1 p → x.lo = 0 → noWords x = true →
    ∃ u q, exec (.endProg x) s = .next u ∧ s.advanced u x.tile.toNat p ∧ keeps s u x.tile.toNat ∧
      u.progOf x.tile.toNat = some q ∧ q.ended = true ∧
      ((s.tileOf x.tile.toNat).drained = true → u.rbit (Reg.TILE.PROG_STATE x.tile.toNat) 31 = false)) ∧
  (∀ (x : TileInsn) (p : TileProg) (s : State), s.wf = true → s.issuesNow x 0 2 p → x.lo.toNat ≤ 4 → noWords x = true →
    ∃ u q, exec (.stage x) s = .next u ∧ s.advanced u x.tile.toNat p ∧ keeps s u x.tile.toNat ∧
      u.progOf x.tile.toNat = some q ∧ q.kind = x.lo.toNat ∧ u.rfld (Reg.TILE.PROG_STATE x.tile.toNat) 30 28 = x.lo.toNat) ∧
  (∀ (x : TileInsn) (p : TileProg) (s : State), s.wf = true → s.issuesNow x 0 3 p → x.lo.toNat < 16 → x.w2 = 0 → x.w3 = 0 →
    ∃ u, exec (.waitctr x) s = .next u ∧ s.advanced u x.tile.toNat p ∧ keeps s u x.tile.toNat ∧
      (u.tileOf x.tile.toNat).waitCtr =
        if (s.reg (Reg.TILE.ARRIVAL x.tile.toNat x.lo.toNat)).toNat < x.w1.toNat then some (x.lo.toNat, x.w1) else none) ∧
  (∀ (t : BitVec 7) (p : TileProg) (k : Nat) (v : Word) (s : State), s.on → (U.tile t.toNat).ok = true →
    s.has (U.tile t.toNat) = true → s.progOf t.toNat = some p → s.tileWorks t.toNat p = true →
    (s.tileOf t.toNat).waitCtr = some (k, v) → v.toNat ≤ (s.reg (Reg.TILE.ARRIVAL t.toNat k)).toNat →
    exec (.waitctrRelease t) s = .next ((s.setTile t.toNat { s.tileOf t.toNat with waitCtr := none }).lookNext t.toNat)) ∧
  (∀ (x : TileInsn) (p : TileProg) (s : State), s.wf = true → s.issuesNow x 0 4 p → emitCheck x s x.tile.toNat p = 0 →
    let a := 64 * fld x.w1 31 16
    let n := s.objCount x.tile.toNat a
    ∃ u, exec (.emitobj x) s = .next u ∧ s.advanced u x.tile.toNat p ∧ keeps s u x.tile.toNat ∧
      (u.tileOf x.tile.toNat).emitting = true ∧
      (u.win p.win.toNat).objs = some (leBytes 4 n.1 ++ s.tileRd x.tile.toNat (a + 64) (48 * n.2)))

/-- LOAD, STORE and SEND queue a transfer; beats land block by block; completions take it off its queue (derived:
R235, R236, R241, R250, R252, R253). -/
def Obligations.TransfersMoveBlocks : Prop :=
  (∀ (x : TileInsn) (p : TileProg) (s : State), s.wf = true → s.issuesNow x 3 0 p → xferCheck x false p = 0 →
    ∃ u, exec (.load x) s = .next u ∧ s.advanced u x.tile.toNat p ∧ (u.tileOf x.tile.toNat).store = (s.tileOf x.tile.toNat).store ∧
      (u.tileOf x.tile.toNat).qXfer = (s.tileOf x.tile.toNat).qXfer ++ [⟨p.kind, .loadOp (xferAddr x p)
        (64 * fld x.w3 31 16) (fld x.w3 15 0) (if tst x.w1 19 then some (fld x.w1 23 20) else none)⟩]) ∧
  (∀ (x : TileInsn) (p : TileProg) (s : State), s.wf = true → s.issuesNow x 3 1 p → xferCheck x true p = 0 →
    ∃ u, exec (.store x) s = .next u ∧ s.advanced u x.tile.toNat p ∧ (u.tileOf x.tile.toNat).store = (s.tileOf x.tile.toNat).store ∧
      u.dram = s.dram ∧ (u.tileOf x.tile.toNat).qXfer = (s.tileOf x.tile.toNat).qXfer ++
        [⟨p.kind, .storeOp (xferAddr x p) (64 * fld x.w3 31 16) (fld x.w3 15 0)⟩]) ∧
  (∀ (t : BitVec 7) (p : TileProg) (k a ts left : Nat) (c : Option Nat) (s : State), s.wf = true →
    s.flying t.toNat 3 p ⟨k, .loadOp a ts left c⟩ → left ≠ 0 →
    ∃ u, exec (.beatLand (.load t)) s = .next u ∧
      u.tileRd t.toNat ts 64 = (if s.poisoned a 64 then List.replicate 64 0 else s.readMem a 64) ∧
      (∀ b, b < ts ∨ ts + 64 ≤ b → u.tileRd t.toNat b 1 = s.tileRd t.toNat b 1) ∧
      (∀ i, c = some i → i < 16 → u.reg (Reg.TILE.ARRIVAL t.toNat i) = addWrap (s.reg (Reg.TILE.ARRIVAL t.toNat i)) 1) ∧
      ((u.tileOf t.toNat).qXfer.head?.map (·.op)) = some (.loadOp (a + 64) (ts + 64) (left - 1) c)) ∧
  (∀ (t : BitVec 7) (p : TileProg) (k dest a b left c m i : Nat) (s : State), s.wf = true →
    s.flying t.toNat 4 p ⟨k, .sendOp dest a b left c m i⟩ → left ≠ 0 → s.mayTransmit p.win.toNat t.toNat = true → dest < 64 → c < 16 →
    ∃ u, exec (.beatLand (.fabric t)) s = .next u ∧ u.tileRd (s.physTile dest) b 64 = s.tileRd t.toNat a 64 ∧
      (∀ i, i < b ∨ b + 64 ≤ i → u.tileRd (s.physTile dest) i 1 = s.tileRd (s.physTile dest) i 1) ∧
      u.reg (Reg.TILE.ARRIVAL (s.physTile dest) c) = addWrap (s.reg (Reg.TILE.ARRIVAL (s.physTile dest) c)) 1 ∧
      u.reg Reg.PFB.BEATS = addWrap (s.reg Reg.PFB.BEATS) 1) ∧
  (∀ (t : BitVec 7) (p : TileProg) (k : Nat) (s : State),
    (∀ a ts c, s.flying t.toNat 3 p ⟨k, .loadOp a ts 0 c⟩ →
      exec (.xferComplete t) s = .next ((s.stageMark t.toNat).popUnit t.toNat 3)) ∧
    (∀ a ts n, s.flying t.toNat 3 p ⟨k, .storeOp a ts n⟩ →
      let m := s.stageMark t.toNat
      exec (.xferComplete t) s = .next ((m.writeMem (U.tile t.toNat) a (m.tileRd t.toNat ts (64 * n))).popUnit t.toNat 3))) ∧
  (∀ (x : TileInsn) (p : TileProg) (s : State), s.wf = true → s.issuesNow x 4 0 p → sendCheck x s p = 0 →
    ∃ u, exec (.send x) s = .next u ∧ s.advanced u x.tile.toNat p ∧ (u.tileOf x.tile.toNat).store = (s.tileOf x.tile.toNat).store ∧
      (u.tileOf x.tile.toNat).qFabric = (s.tileOf x.tile.toNat).qFabric ++ [⟨p.kind, .sendOp (fld x.w1 31 26)
        (64 * fld x.w2 31 16) (64 * fld x.w2 15 0) (fld x.w3 15 0) (fld x.w1 19 16) (fld x.w1 15 8)
        ((s.stageMark x.tile.toNat).tileCycles p)⟩]) ∧
  (∀ (t : BitVec 7) (p : TileProg) (k dest a b c m i : Nat) (s : State),
    s.flying t.toNat 4 p ⟨k, .sendOp dest a b 0 c m i⟩ →
    exec (.sendComplete t) s = .next (((s.stageMark t.toNat).popUnit t.toNat 4).collide t.toNat p.win.toNat))

/-- MOP queues a matrix operation that passes its checks; fused vectors enter; MOP_COMPLETE writes its output and takes it off
(derived: R254, R236, R242, R246, R266). The model's choices it rests on: log 59. -/
def Obligations.MatrixOperationsRun : Prop :=
  (∀ (x : TileInsn) (p : TileProg) (s : State), s.wf = true → s.issuesNow x 1 0 p → x.lo = 0 → dirty x.w1 15 0 = false →
    x.w2 = 0 → x.w3 = 0 →
    let m := s.stageMark x.tile.toNat
    let b := m.mopBytes x.tile.toNat x
    let d := m.mopDesc x.tile.toNat x
    let old := (s.tileOf x.tile.toNat).qMatrix
    mopCause b.1 b.2.1 b.2.2 = 0 →
    ∃ u, exec (.mop x) s = .next u ∧ s.advanced u x.tile.toNat p ∧
      (u.tileOf x.tile.toNat).store = (s.tileOf x.tile.toNat).store ∧
      (old ≠ [] → (u.tileOf x.tile.toNat).qMatrix = old ++ [⟨p.kind, .matrix d MopRun.start⟩]) ∧
      (old = [] → ∃ r, (u.tileOf x.tile.toNat).qMatrix = [⟨p.kind, .matrix d r⟩] ∧ r.entered = 0 ∧ r.pass = 0 ∧ r.vec = 0 ∧
        r.loads = 0 ∧ r.fronts ≤ 3 ∧ r.acc = [])) ∧
  (∀ (t : BitVec 7) (p : TileProg) (k : Nat) (d : MopDesc) (r : MopRun) (s : State), s.wf = true →
    s.flying t.toNat 1 p ⟨k, .matrix d r⟩ →
    (d.op.fuseEn = true → r.entered < vectorsOf d.passes →
      d.op.fuseNeed d.skip r.entered ≤ (s.reg (Reg.TILE.ARRIVAL t.toNat d.op.fuseCtr)).toNat →
      ∃ u, exec (.fusedVectorEntry t) s = .next u ∧
        u.reg (Reg.TILE.ARR_VEC_CNT t.toNat) = addWrap (s.reg (Reg.TILE.ARR_VEC_CNT t.toNat)) 1 ∧
        (u.tileOf t.toNat).qMatrix.head? = some ⟨k, .matrix d { r with entered := r.entered + 1 }⟩ ∧
        (u.tileOf t.toNat).store = (s.tileOf t.toNat).store) ∧
    ((d.op.fuseEn = true → r.entered = vectorsOf d.passes) →
      ∃ u, exec (.mopComplete t) s = .next u ∧
        (u.tileOf t.toNat).qMatrix.length = (s.tileOf t.toNat).qMatrix.length - 1 ∧
        (u.tileOf t.toNat).qMatrix.tail = (s.tileOf t.toNat).qMatrix.tail.tail) ∧
    ((d.op.fuseEn = true → r.entered = vectorsOf d.passes) → d.passes.length ≤ r.pass → (s.tileOf t.toNat).retrying = [] →
      ∃ q u, (s.stageMark t.toNat).progOf t.toNat = some q ∧ exec (.mopComplete t) s = .next u ∧
        (u.tileOf t.toNat).store = ((s.tileOf t.toNat).writeY d r).1.store ∧
        u.reg (Reg.TILE.SKIP_BLOCKS t.toNat) =
          addWrap (s.reg (Reg.TILE.SKIP_BLOCKS t.toNat)) (d.skip.filter (· < d.op.blocks)).length))

/-- SWAP_IN_DONE puts the newer complete copy or zeros into the swap region; SWAP_OUT_DONE writes the older copy and
its stamp (derived: R78, R80, R258, R259). -/
def Obligations.SwapMovesTileState : Prop :=
  (∀ (t : BitVec 7) (p : TileProg) (s : State), s.wf = true → s.on → (U.tile t.toNat).ok = true → s.has (U.tile t.toNat) = true →
    s.progOf t.toNat = some p → s.tileWorks t.toNat p = true → p.started = false → p.halted = false →
    exec (.swapInDone t) s = .next (((s.swapIn t.toNat p).setProg t.toNat { p with started := true }).lookNext t.toNat) ∧
    (s.newerState p = none → ∃ u, exec (.swapInDone t) s = .next u ∧
      u.tileRd t.toNat (64 * p.swapTs) (64 * p.swapUnits) = List.replicate (64 * p.swapUnits) 0 ∧
      u.reg (Reg.TILE.STATE_RESET_CNT t.toNat) = addWrap (s.reg (Reg.TILE.STATE_RESET_CNT t.toNat)) 1 ∧
      u.rbit (pgErr (U.tile t.toNat)) 13 = true) ∧
    (∀ j, s.newerState p = some j →
      let a := p.stateAddr + j * copySpan p.swapUnits
      let m := s.readStamps t.toNat p
      let d := m.readMem a (64 * p.swapUnits)
      m.poisoned a (64 * p.swapUnits) = false → crc32c d = leNat (m.readMem (a + 64 * p.swapUnits + 16) 4) →
      ∃ u, exec (.swapInDone t) s = .next u ∧ u.tileRd t.toNat (64 * p.swapTs) (64 * p.swapUnits) = d ∧
        u.reg (Reg.TILE.STATE_RESET_CNT t.toNat) = s.reg (Reg.TILE.STATE_RESET_CNT t.toNat))) ∧
  (∀ (t : BitVec 7) (p : TileProg) (e : PlanWindow) (s : State), s.wf = true → s.on → (U.tile t.toNat).ok = true →
    s.has (U.tile t.toNat) = true → s.progOf t.toNat = some p → s.planWin p.win.toNat = some e → s.tileWorks t.toNat p = true →
    p.ended = true → p.halted = false → (s.tileOf t.toNat).drained = true → s.owesSwapOut e t.toNat = true →
    exec (.swapOutDone t) s = .next (s.swapOut t.toNat p) ∧
    (∀ v, ((s.swapOut t.toNat p).tileOf v).store = (s.tileOf v).store) ∧
    ((s.swapOut t.toNat p).tileOf t.toNat).swappedOut = true)

/-- Lane-by-lane vector instructions write every lane of VD from the same lane of VA, VB and VC, and no other lane
(derived: R235, R237, R247). The model's choices it rests on: log 38, 61. -/
def Obligations.LaneArithmeticWritesVd : Prop :=
  ∀ (x : TileInsn) (p : TileProg) (s : State) (c : Instr) (op : Nat) (f : Word → Word → Word → Word),
    (c, op, f) ∈ [
      (Instr.add x, 0x04, fun a b _ => if vint x then a + b else f32Add a b),
      (Instr.sub x, 0x05, fun a b _ => if vint x then a - b else f32Sub a b),
      (Instr.mul x, 0x06, fun a b _ => if vint x then a * b else f32Mul a b),
      (Instr.fma x, 0x07, fun a b c => if vint x then a * b + c else f32Fma a b c),
      (Instr.max x, 0x08, fun a b _ => if vint x then (if a.toInt < b.toInt then b else a) else f32Max a b),
      (Instr.min x, 0x09, fun a b _ => if vint x then (if b.toInt < a.toInt then b else a) else f32Min a b),
      (Instr.cmplt x, 0x0A, fun a b _ => if vint x then (if a.toInt < b.toInt then 1 else 0)
        else (if f32Lt a b then 0x3F800000 else 0)),
      (Instr.sel x, 0x0B, fun a b c => if c = 0 ∨ (vint x = false ∧ c = 0x80000000) then b else a),
      (Instr.exp x, 0x0C, fun a _ _ => f32Exp a),
      (Instr.rcp x, 0x0D, fun a _ _ => f32Rcp a),
      (Instr.rsqrt x, 0x0E, fun a _ _ => f32Rsqrt a),
      (Instr.cvt x, 0x0F, fun a _ _ => if vint x then f32ToI32 a else i32ToF32 a)] →
    s.wf = true → s.issuesNow x 2 op p → x.lo.toNat % 2 ^ 17 = 0 → fld x.w3 15 0 = 0 →
    (op = 0x0C ∨ op = 0x0D ∨ op = 0x0E → vint x = false) →
    let t := x.tile.toNat
    let y := s.tileOf t
    ∃ u, exec c s = .next u ∧ s.advanced u t p ∧ (u.tileOf t).store = y.store ∧
      (∀ i, i < 256 → (u.tileOf t).lane (vdOf x) i = f (y.lane (vaOf x) i) (y.lane (vbOf x) i) (y.lane (vcOf x) i)) ∧
      (∀ r i, r ≠ vdOf x → i < 256 → (u.tileOf t).lane r i = y.lane r i) ∧
      (u.tileOf t).qVector = y.qVector ++ [⟨p.kind, .vector⟩]

/-- LD, LDX, GATHER, IMM and LANE write VD; ST, STX and SCATTER write tile store (derived: R235, R247, R201, R202). -/
def Obligations.VectorLoadsAndStores : Prop :=
  let clean (x : TileInsn) : Prop := x.lo.toNat % 2 ^ 17 = 0 ∧ fld x.w3 15 0 = 0
  let fills (s u : State) (x : TileInsn) (p : TileProg) (v : Nat → Word) : Prop :=
    s.advanced u x.tile.toNat p ∧ (u.tileOf x.tile.toNat).store = (s.tileOf x.tile.toNat).store ∧
      ∀ i, i < 256 → (u.tileOf x.tile.toNat).lane (vdOf x) i = v i
  let stores (s u : State) (x : TileInsn) (p : TileProg) (b : Bytes) : Prop :=
    s.advanced u x.tile.toNat p ∧ (u.tileOf x.tile.toNat).vreg = (s.tileOf x.tile.toNat).vreg ∧
      u.tileRd x.tile.toNat (vts x) b.length = b ∧
      ∀ a, a < vts x ∨ vts x + b.length ≤ a → u.tileRd x.tile.toNat a 1 = s.tileRd x.tile.toNat a 1
  ∀ (x : TileInsn) (p : TileProg) (s : State), s.wf = true → clean x →
    let y := s.tileOf x.tile.toNat
    (s.issuesNow x 2 0x00 p → vts x + 1024 ≤ 0x400000 →
      ∃ u, exec (.ld x) s = .next u ∧ fills s u x p fun i => y.rdW (vts x + 4 * i)) ∧
    (s.issuesNow x 2 0x01 p → vts x + 1024 ≤ 0x400000 →
      ∃ u, exec (.st x) s = .next u ∧ stores s u x p ((y.lanes (vaOf x)).flatMap fun w => leBytes 4 w.toNat)) ∧
    (s.issuesNow x 2 0x02 p → vts x + fmtBytes (vfmt x) 256 ≤ 0x400000 →
      ∃ u v, exec (.ldx x) s = .next u ∧ fills s u x p v ∧ ∀ i, i < 256 →
        let q := ldxWord (vfmt x) (codeAt (vfmt x) (s.tileRd x.tile.toNat (vts x) (fmtBytes (vfmt x) 256)) i)
        q.2.2 = true → v i = q.1) ∧
    (s.issuesNow x 2 0x03 p → vts x + fmtBytes (vfmt x) 256 ≤ 0x400000 → vzp x = 0 ∨ fmtZp (vfmt x) = true →
      ∃ u, exec (.stx x) s = .next u ∧ stores s u x p (packCodes (vfmt x)
        ((y.lanes (vaOf x)).map fun w => (requant (vfmt x) (f32 w) (f32 x.w2) (vzp x)).1))) ∧
    (s.issuesNow x 2 0x15 p →
      ∃ u, exec (.gather x) s = .next u ∧ fills s u x p fun i =>
        let a := vts x + 4 * (y.lane (vaOf x) i).toNat
        if a + 4 ≤ 0x400000 then y.rdW a else 0) ∧
    (s.issuesNow x 2 0x16 p →
      ∃ u, exec (.scatter x) s = .next u ∧ s.advanced u x.tile.toNat p ∧ (u.tileOf x.tile.toNat).vreg = y.vreg ∧
        (u.tileOf x.tile.toNat).store = (((s.stageMark x.tile.toNat).tileOf x.tile.toNat).scatter (vts x)
          (y.lanes (vaOf x)) (y.lanes (vbOf x))).store) ∧
    (s.issuesNow x 2 0x10 p → ∃ u, exec (.imm x) s = .next u ∧ fills s u x p fun _ => x.w2) ∧
    (s.issuesNow x 2 0x11 p → ∃ u, exec (.lane x) s = .next u ∧ fills s u x p fun i => BitVec.ofNat 32 i)

/-- RSUM, RMAX and ARGMAX fill VD; TOPK, NMS, ASSIGN, LNSTAT and SKIPMASK store their results; VECTOR_COMPLETE drains
the unit (derived: R235, R236, R247, R248, R257). The model's choices it rests on: log 61. -/
def Obligations.ReductionsAndComposites : Prop :=
  let clean (x : TileInsn) : Prop := x.lo.toNat % 2 ^ 17 = 0 ∧ fld x.w3 15 0 = 0
  let fills (s u : State) (x : TileInsn) (p : TileProg) (v : Word) : Prop :=
    s.advanced u x.tile.toNat p ∧ (u.tileOf x.tile.toNat).store = (s.tileOf x.tile.toNat).store ∧
      ∀ i, i < 256 → (u.tileOf x.tile.toNat).lane (vdOf x) i = v
  let stores (s u : State) (x : TileInsn) (p : TileProg) (a : Nat) (b : Bytes) : Prop :=
    s.advanced u x.tile.toNat p ∧ (u.tileOf x.tile.toNat).vreg = (s.tileOf x.tile.toNat).vreg ∧
      (u.tileOf x.tile.toNat).store = ((s.tileOf x.tile.toNat).wr a b).store
  (∀ (x : TileInsn) (p : TileProg) (s : State), s.wf = true → clean x →
    let l := (s.tileOf x.tile.toNat).lanes (vaOf x)
    (s.issuesNow x 2 0x12 p → ∃ u, exec (.rsum x) s = .next u ∧
      fills s u x p (pairSum (if vint x then (· + ·) else f32Add) l)) ∧
    (s.issuesNow x 2 0x13 p → ∃ u, exec (.rmax x) s = .next u ∧
      fills s u x p (pairSum (if vint x then (fun a b => if a.toInt < b.toInt then b else a) else f32Max) l)) ∧
    (s.issuesNow x 2 0x14 p → vint x = true ∨ l.any isNan = false → ∃ u, exec (.argmax x) s = .next u ∧
      fills s u x p (BitVec.ofNat 32 (argmaxOf (if vint x then i32Lt else f32Lt) l))) ∧
    (s.issuesNow x 2 0x14 p → vint x = false → l.any isNan = true → ∃ u v, exec (.argmax x) s = .next u ∧ fills s u x p v)) ∧
  (∀ (x : TileInsn) (p : TileProg) (s : State), s.wf = true → clean x → vts x + 64 ≤ 0x400000 →
    let m := s.stageMark x.tile.toNat
    let w := m.param x.tile.toNat x
    let word := m.tileW x.tile.toNat
    let src := 64 * bitsOf (w 0) 31 16
    let dst := 64 * bitsOf (w 0) 15 0
    let hi := bitsOf (w 1) 31 16
    let lo := bitsOf (w 1) 15 0
    (s.issuesNow x 2 0x20 p → m.paramsFrom x.tile.toNat x 3 = false → 1 ≤ w 1 → w 1 ≤ 65536 → 1 ≤ w 2 → w 2 ≤ min (w 1) 4096 →
      src + 4 * w 1 ≤ 0x400000 → dst + 8 * w 2 ≤ 0x400000 →
      ∃ u, exec (.topk x) s = .next u ∧ stores s u x p dst
        ((topk ((List.range (w 1)).map fun i => word (src + 4 * i)) (w 2)).flatMap fun e => leBytes 4 e.1 ++ leBytes 4 e.2.toNat)) ∧
    (s.issuesNow x 2 0x21 p → m.paramsFrom x.tile.toNat x 4 = false → w 3 ≤ 1 → w 1 ≤ 4096 → src + 32 * w 1 ≤ 0x400000 →
      dst + 4 + w 1 ≤ 0x400000 →
      let keep := nmsKeep (BitVec.ofNat 32 (w 2)) (bitOf (w 3) 0) ((List.range (w 1)).map fun i =>
        (word (src + 32 * i), word (src + 32 * i + 4), word (src + 32 * i + 8), word (src + 32 * i + 12), word (src + 32 * i + 20)))
      ∃ u, exec (.nms x) s = .next u ∧ stores s u x p dst
        (leBytes 4 (keep.filter id).length ++ keep.map fun b => if b then 1 else 0)) ∧
    (s.issuesNow x 2 0x22 p → m.paramsFrom x.tile.toNat x 3 = false → hi ≤ 1024 → lo ≤ 1024 →
      src + hi * roundUp (4 * lo) 64 ≤ 0x400000 → dst + 4 * hi ≤ 0x400000 →
      let pairs := assignPairs (fun r c => word (src + r * roundUp (4 * lo) 64 + 4 * c)) (BitVec.ofNat 32 (w 2)) (min hi lo)
        (List.range hi) (List.range lo)
      ∃ u, exec (.assign x) s = .next u ∧ stores s u x p dst ((List.range hi).flatMap fun r =>
        leBytes 4 (match pairs.find? (·.1 == r) with | some q => q.2 | none => 0xFFFFFFFF))) ∧
    (s.issuesNow x 2 0x23 p → m.paramsFrom x.tile.toNat x 3 = false → src + 4 * hi * lo ≤ 0x400000 → dst + 8 * hi ≤ 0x400000 →
      ∃ u, exec (.lnstat x) s = .next u ∧ stores s u x p dst ((List.range hi).flatMap fun i =>
        let r := lnstat ((List.range lo).map fun j => word (src + 4 * (i * lo + j))) (BitVec.ofNat 32 (w 2))
        leBytes 4 r.1.toNat ++ leBytes 4 r.2.toNat)) ∧
    (s.issuesNow x 2 0x24 p → p.kind = 4 → m.paramsFrom x.tile.toNat x 4 = false → w 2 % 65536 = 0 → w 3 % 65536 = 0 →
      let q := m.skipParams x.tile.toNat x
      let d := m.cxDims x.tile.toNat q
      let e := (s.planWin p.win.toNat).getD default
      let cap := wrapN 40 ((s.clock.epoch.toNat : Int) - (e.lag : Int))
      q.flog2 ≤ 6 → q.margin ≤ 7 → 1 ≤ q.refresh → q.stats + 64 ≤ 0x400000 →
      (m.skipHeaderOk x.tile.toNat q cap e.sub = true → q.cx + 2 * m.cxPitch x.tile.toNat q * d.2 ≤ 0x400000) →
      q.out + ceilDiv q.blocks 8 ≤ 0x400000 →
      ∃ u, exec (.skipmask x) s = .next u ∧ stores s u x p q.out
        (m.skipMap x.tile.toNat q (m.skipHeaderOk x.tile.toNat q cap e.sub) (4 * cap + e.sub)))) ∧
  (∀ (t : BitVec 7) (p : TileProg) (g : Flight) (s : State), s.flying t.toNat 2 p g →
    exec (.vectorComplete t) s = .next ((s.stageMark t.toNat).popUnit t.toNat 2))

/-- A failed SUM, DUP or LOAD check starts a replay; the replay's verdict is TRANSIENT or REPEATED, after which checks
are UNRETRIED; what an attempt gave is kept unless it is replayed (derived: R262, R263, R264, R265, R266, R268, R269, R271, R281). -/
def Obligations.CheckVerdictsDecideReplay : Prop :=
  ∀ (t : BitVec 7) (pass vec : BitVec 32) (cu : ColUpset) (lu : LoadUpset) (p : TileProg) (kind : Nat) (d : MopDesc) (r : MopRun)
    (P : Pass) (k : Retained) (s : State) (c : Instr) (check at' : Nat) (v : Verdict),
    let o := d.op
    let x := s.tileOf t.toNat
    let b := (x.streamVec o (Prd.ofBytes d.prd) P vec.toNat).map (·.vs)
    let ys := upsetCols (o.columns P vec.toNat (o.valuesOf k.cells) b) cu
    let vv := o.vectorVerdict P pass.toNat vec.toNat (o.valuesOf k.operand) b ys cu
    (c, check, at', v) ∈ [
      (Instr.sumCheckVerdict t pass vec cu, 0, vec.toNat, vv),
      (Instr.loadCheckVerdict t pass lu, 1, 0, o.frontVerdict k lu),
      (Instr.dupCheckVerdict t pass vec cu, 2, vec.toNat, vv)] →
    s.wf = true → s.flying t.toNat 1 p ⟨kind, .matrix d r⟩ → s.nextCheck t.toNat = some (check, pass.toNat, at') →
    d.passes[pass.toNat]? = some P → r.kept.find? (fun k => k.pass == pass.toNat) = some k →
    let up (u : State) (r : Nat) : Prop := u.reg r = addSat (s.reg r) 1
    let waits (u : State) : Prop := u.mopOf t.toNat = some (d, r)
    let taken (u : State) : Prop := ∃ r', u.mopOf t.toNat = some (d, r') ∧
      (check = 1 → r'.loads = pass.toNat + 1 ∧ r'.acc = r.acc) ∧
      (check ≠ 1 → r'.acc = o.enterAcc P vec.toNat ys r.acc ∧
        (r'.pass, r'.vec) = (if P.vecs ≤ vec.toNat + 1 then (pass.toNat + 1, 0) else (r.pass, vec.toNat + 1)))
    (x.replayOf (check, pass.toNat, at') = none → x.inj = none →
      (v.pass = true → ∃ u, exec c s = .next u ∧ (u.tileOf t.toNat).retrying = x.retrying ∧ taken u ∧
        u.reg (Reg.TILE.MISMATCH_CNT t.toNat) = s.reg (Reg.TILE.MISMATCH_CNT t.toNat)) ∧
      (v.pass = false → x.repeated = false → ∃ u, exec c s = .next u ∧
        (u.tileOf t.toNat).retrying = ⟨check, pass.toNat, at', false, false, false⟩ :: x.retrying ∧ waits u ∧
        up u (Reg.TILE.MISMATCH_CNT t.toNat) ∧ u.rbit (pgErr (U.tile t.toNat)) 14 = true) ∧
      (v.pass = false → x.repeated = true → ∃ u, exec c s = .next u ∧ (u.tileOf t.toNat).retrying = x.retrying ∧ taken u ∧
        up u (Reg.TILE.MISMATCH_CNT t.toNat) ∧ up u (Reg.TILE.UNRETRIED_CNT t.toNat))) ∧
    (∀ pe nr, x.replayOf (check, pass.toNat, at') = none → x.inj = some ⟨check, 0, pe, nr⟩ → check = 1 ∨ at' = 0 →
      x.repeated = false → ∃ u, exec c s = .next u ∧ u.rbit (Reg.TILE.MIRROR_INJ t.toNat) 31 = false ∧ waits u ∧
        (u.tileOf t.toNat).inj = none ∧ up u (Reg.TILE.MISMATCH_CNT t.toNat) ∧
        (u.tileOf t.toNat).retrying = ⟨check, pass.toNat, at', true, pe, nr⟩ :: x.retrying) ∧
    (∀ q rest, x.retrying = q :: rest → (q.check, q.pass, q.vec) = (check, pass.toNat, at') →
      (v.pass = true → q.persist = false → ∃ u, exec c s = .next u ∧ (u.tileOf t.toNat).retrying = rest ∧
        up u (Reg.TILE.TRANSIENT_CNT t.toNat) ∧
        u.rfld (Reg.TILE.TRANS_LEVEL t.toNat) 7 0 = min 255 (s.rfld (Reg.TILE.TRANS_LEVEL t.toNat) 7 0 + 1)) ∧
      (v.pass = false ∨ q.persist = true → ∃ u, exec c s = .next u ∧ (u.tileOf t.toNat).retrying = rest ∧
        (u.tileOf t.toNat).repeated = true ∧ up u (Reg.TILE.REPEAT_CNT t.toNat) ∧
        u.rbit (pgErr (U.tile t.toNat)) 15 = true ∧ (q.noRetire = false → u.flagged t.toNat = true)) ∧
      (x.replayOf (check, pass.toNat, at') = some q))

/-- REPAIR retires a flagged tile and moves its row's gap there, or marks the row BLOCKED; TRANS_DECAY, MIRROR_INJ,
REPAIR_REQ (derived: R273, R276, R277, R280, R281, R285). -/
def Obligations.RowRepairMovesTheGap : Prop :=
  (∀ s : State, s.wf = true → s.on → s.atBoundary = true → s.autoRepair = true → s.fabric.rows.length = 8 →
    (∀ r, r < 8 → (s.row r).gap ≤ 8) →
    ∃ u, exec .repair s = .next u ∧ ∀ r c, r < s.fuses.rows → c < 9 → c ≠ (s.row r).gap →
      s.flagActs s.clock.epoch.toNat (9 * r + c) = true →
      ((s.row r).spareFree = true → s.flagged (9 * r + (s.row r).gap) = false →
        (∀ d, d < 9 → d ≠ c → s.flagActs s.clock.epoch.toNat (9 * r + d) = false) →
        u.row r = { s.row r with gap := c, spareFree := false } ∧ u.runState (U.tile (9 * r + c)) = 4) ∧
      ((s.row r).spareFree = false → (u.row r).blocked = true)) ∧
  (∀ (t : BitVec 7) (s : State), s.on → (U.tile t.toNat).ok = true → s.has (U.tile t.toNat) = true → s.atBoundary = true →
    let due := s.clock.epoch.toNat % Nat.max 1 (s.rfld (Reg.TILE.RETRY_CFG t.toNat) 31 16) = 0 ∧
      (s.tileOf t.toNat).decayed ≠ some s.clock.epoch ∧ s.rfld (Reg.TILE.TRANS_LEVEL t.toNat) 7 0 ≠ 0
    (due → exec (.transDecay t) s =
      .next ((s.setTile t.toNat { s.tileOf t.toNat with decayed := some s.clock.epoch }).setNum
        (Reg.TILE.TRANS_LEVEL t.toNat) (s.rfld (Reg.TILE.TRANS_LEVEL t.toNat) 7 0 - 1))) ∧
    (¬due → exec (.transDecay t) s = .next s)) ∧
  (∀ (t : BitVec 7) (v : Word) (s : State), s.wf = true → s.bus → s.live? (U.tile t.toNat) →
    (s.rbit (Reg.TILE.MIRROR_INJ t.toNat) 31 = true → exec (.mirrorInj t v) s = .next (s.raise (U.tile t.toNat) 4)) ∧
    (s.rbit (Reg.TILE.MIRROR_INJ t.toNat) 31 = false → tst v 31 = true →
      ∃ u, exec (.mirrorInj t v) s = .next u ∧ u.rbit (Reg.TILE.MIRROR_INJ t.toNat) 31 = true ∧
        (u.tileOf t.toNat).inj = some ⟨fld v 27 26, fld v 15 0, tst v 30, tst v 29⟩)) ∧
  (∀ (v : Word) (s : State), s.bus →
    let t := fld v 6 0
    (fld v 31 24 = 0xA5 → t < 72 → s.has (U.tile t) = true → s.flagged t = false → s.runState (U.tile t) ≠ 4 →
      exec (.repairReq v) s = .next (s.flagTile t 4) ∧ (s.wf = true → (s.flagTile t 4).flagged t = true)) ∧
    (fld v 31 24 ≠ 0xA5 ∨ 72 ≤ t ∨ s.has (U.tile t) = false ∨ s.flagged t = true ∨ s.runState (U.tile t) = 4 →
      exec (.repairReq v) s = .next (s.raise U.pfb 4)))

/-- FRAME_RX sorts received frames; POLICE_REFILL, the timeouts, NACK_SEND, RR_SEND and SSRC_CHANGE act on stream
contexts (derived: R88, R89, R96, R100, R101, R103, R110, R112). -/
def Obligations.FramesAndPolicing : Prop :=
  (∀ (port : BitVec 4) (frame : Bytes) (s : State), s.wf = true → s.on → port.toNat < 12 → s.has (U.nix port.toNat) = true →
    s.running (U.nix port.toNat) = true → s.linkUp port.toNat = true →
    let n := port.toNat
    let f := parseEth frame
    let big := s.rfld (Reg.NIX.MAX_FRAME n) 13 0 < frame.length ∨ twoTags frame = true
    let got := s.incW (Reg.NIX.RX_FRAMES n)
    let sc := s.reg Reg.TMU.SYNC_CFG
    let pc := s.reg Reg.DEVCTL.PAIR_CFG
    (fcsOk frame = false → exec (.frameRx port frame) s = .next (s.incW (Reg.NIX.RX_FCS_ERR n))) ∧
    (fcsOk frame = true → big → exec (.frameRx port frame) s = .next (s.incW (Reg.NIX.RX_REJECT n))) ∧
    (fcsOk frame = true → ¬big → f.etype = 0x88F7 → n = fld sc 19 16 ∨ (tst sc 31 = true ∧ n = fld sc 27 24) →
      exec (.frameRx port frame) s = .next
        { got with sync := { s.sync with inbox := s.sync.inbox ++ [(port, f.body, s.clock.time)] } }) ∧
    (fcsOk frame = true → ¬big → f.etype = 0x88B5 → tst pc 31 = true → n = fld pc 27 24 →
      exec (.frameRx port frame) s = .next { got with pair := { s.pair with inbox := s.pair.inbox ++ [f.body] } }) ∧
    (fcsOk frame = true → ¬big → f.etype ≠ 0x88F7 → f.etype ≠ 0x88B5 → s.running U.ing = true →
      exec (.frameRx port frame) s = .next (got.ingest n f))) ∧
  (∀ (j : BitVec 8) (s : State), s.wf = true → s.on → s.ticking = true → s.clock.refilled = j.toNat →
    s.calmFor (fun s => s.toPhase (j.toNat * 65536)) →
    ∃ u, exec (.policeRefill j) s = .next u ∧ u.clock.refilled = j.toNat + 1 ∧ ∀ n, n < 256 → s.streamState n ≠ 0 →
      (u.scxOf n).bucket = min (s.reg (Reg.SCX.POLICE_BURST n)).toNat
        ((s.scxOf n).bucket + refillStep (s.reg (Reg.SCX.POLICE_RATE n)).toNat j.toNat)) ∧
  (∀ rate : Nat, (List.range 256).foldl (fun a j => a + refillStep rate j) 0 = rate) ∧
  (∀ (n : BitVec 8) (s due : State), s.on →
    (∀ p, firstHeld (s.scxOf n.toNat).held = some p →
      s.afterPu p.epoch p.phase (s.rfld Reg.ING.REORDER_TIMEOUT 23 0) = some due →
      s.calm (eventKey due.clock.phase.toNat 0) → exec (.reorderTimeout n) s = .next (State.loseMissing n.toNat 65536 due)) ∧
    (∀ a, (s.scxOf n.toNat).asm = some a → (s.scxOf n.toNat).held = [] →
      s.afterPu a.lastEpoch a.lastPhase (s.rfld Reg.ING.REORDER_TIMEOUT 23 0) = some due →
      s.calm (eventKey due.clock.phase.toNat 0) → exec (.auTimeout n) s = .next (due.endAu n.toNat true) ∧
      (s.wf = true → ((due.endAu n.toNat true).scxOf n.toNat).asm = none))) ∧
  (∀ (n : BitVec 8) (s : State), s.wf = true → s.on → tst (s.streamCfg n.toNat) 7 = true → (s.scxOf n.toNat).gaps ≠ [] →
    (s.rtcpPort n.toNat = none →
      exec (.nackSend n) s = .next (s.setScx n.toNat { s.scxOf n.toNat with gaps := [] })) ∧
    (∀ d, s.rtcpPort n.toNat = some d → ∃ u f, exec (.nackSend n) s = .next u ∧ (u.scxOf n.toNat).gaps = [] ∧
      u.out = s.out ++ [.eth d.port.toNat f] ∧
      u.reg (Reg.SCX.NACK_SENT n.toNat) = addWrap (s.reg (Reg.SCX.NACK_SENT n.toNat)) 1)) ∧
  (∀ (n : BitVec 8) (d : RtcpDest) (s : State), s.wf = true → s.on → s.streamState n.toNat ≠ 0 →
    0 < s.rfld Reg.ING.RTCP_CFG 23 16 →
    s.rfld Reg.ING.RTCP_CFG 23 16 ≤ s.clock.epoch.toNat - (s.scxOf n.toNat).lastRr.toNat → s.rtcpPort n.toNat = some d →
    ∃ u f, exec (.rrSend n) s = .next u ∧ (u.scxOf n.toNat).lastRr = s.clock.epoch ∧ u.out = s.out ++ [.eth d.port.toNat f]) ∧
  (∀ (n : BitVec 8) (ssrc : Word) (s : State), s.wf = true → s.on → s.ssrcCandidate n.toNat = some ssrc →
    s.streamState n.toNat ≠ 0 → s.clock.phase = 0 →
    ∃ u, exec (.ssrcChange n) s = .next u ∧ u.reg (Reg.SCX.SSRC_LATCHED n.toNat) = ssrc ∧ (u.scxOf n.toNat).held = [] ∧
      (u.scxOf n.toNat).asm = none ∧ (u.scxOf n.toNat).aus = [] ∧ (u.scxOf n.toNat).gaps = [] ∧
      (s.streamState n.toNat = 2 ∨ s.streamState n.toNat = 3 → u.streamState n.toNat = 3 ∧ u.holdReason n.toNat = 2))

/-- ADMIT, RELEASE and CANCEL move a stream context as Table 3.9 says, and are refused with PG_ERR.PROTOCOL otherwise
(derived: R92, R93, R94, R100, R369). -/
def Obligations.StreamCommandsMoveStates : Prop :=
  ∀ (n : BitVec 8) (s : State), s.bus → s.live? (U.scx n.toNat) →
    let st := s.streamState n.toNat
    let sound := s.running (U.scx n.toNat) = true ∧ s.isSealed = true ∧ s.tpe n.toNat % s.phi n.toNat = 0 ∧
      s.rfld (Reg.SCX.MAX_AU n.toNat) 23 0 ≠ 0
    (s.wf = true → st = 0 → sound → ∃ u, exec (.admitStream n) s = .next u ∧ u.streamState n.toNat = 1 ∧
      (u.scxOf n.toNat).bucket = (s.reg (Reg.SCX.POLICE_BURST n.toNat)).toNat ∧ u.reg (Reg.EGR.STREAM_SEQ n.toNat) = 0 ∧
      u.reg (Reg.EGR.STREAM_GEN n.toNat) = 0) ∧
    (¬(st = 0 ∧ sound) → exec (.admitStream n) s = .next (s.raise (U.scx n.toNat) 4)) ∧
    (st = 2 ∨ st = 3 → exec (.release n) s = .next (s.setNum (Reg.SCX.STATE n.toNat) 4)) ∧
    (st ≠ 2 → st ≠ 3 → exec (.release n) s = .next (s.raise (U.scx n.toNat) 4)) ∧
    (s.wf = true → st = 1 → s.served n.toNat = false → ∃ u, exec (.cancel n) s = .next u ∧ u.streamState n.toNat = 0 ∧
      u.reg (Reg.SCX.SSRC_LATCHED n.toNat) = 0 ∧ u.scxOf n.toNat = { Scx.free with lastPli := (s.scxOf n.toNat).lastPli }) ∧
    (st ≠ 1 ∨ s.served n.toNat = true → exec (.cancel n) s = .next (s.raise (U.scx n.toNat) 4))

/-- TRAINING_ATTEMPT, TRAINING_FAIL, AN_COMPLETE, LINK_UP and LINK_DOWN step a port's link (derived: R90, R91, R447).
-/
def Obligations.PortLinksTrain : Prop :=
  ∀ (port : BitVec 4) (s : State), s.wf = true → s.on → port.toNat < 12 → s.has (U.nix port.toNat) = true →
    let n := port.toNat
    let st := s.linkState n
    let failed (u : State) (code : Nat) : Prop :=
      u.linkState n = 4 ∧ u.rfld (Reg.NIX.TRAIN_LOG n) 7 0 = st * 16 + code ∧ u.rbit (pgErr (U.nix n)) 9 = true
    (s.running (U.nix n) = true → st = 0 ∨ st = 4 →
      exec (.trainingAttempt port) s = .next ((s.incHi (Reg.NIX.TRAIN_LOG n)).setLink n (if s.autoNeg n then 1 else 2))) ∧
    (st = 1 ∨ st = 2 → ∃ u, exec (.trainingFail port .noSignal) s = .next u ∧ failed u 1) ∧
    (s.portClockLost n = false → st = 1 → ∀ e ∈ [(TrainCause.anTimeout, 2), (.partnerMismatch, 6)],
      ∃ u, exec (.trainingFail port e.1) s = .next u ∧ failed u e.2) ∧
    (s.portClockLost n = false → st = 2 → ∀ e ∈ [(TrainCause.trainTimeout, 3), (.blockLock, 4), (.fecLock, 5)],
      ∃ u, exec (.trainingFail port e.1) s = .next u ∧ failed u e.2) ∧
    (s.portClockLost n = false → st = 1 → exec (.anComplete port true) s = .next (s.setLink n 2) ∧
      ∃ u, exec (.anComplete port false) s = .next u ∧ failed u 6) ∧
    (s.portClockLost n = false → st = 2 → exec (.linkUp port) s = .next (s.setLink n 3)) ∧
    (st = 3 → ∃ u, exec (.linkDown port) s = .next u ∧ u.linkState n = 0 ∧
      u.rfld (Reg.NIX.LINK_STATUS n) 31 16 = min 0xFFFF (s.rfld (Reg.NIX.LINK_STATUS n) 31 16 + 1) ∧
      u.rfld (Reg.NIX.TRAIN_LOG n) 31 16 = 0 ∧ u.rbit (pgErr (U.nix n)) 8 = true)

/-- ALLOC_REQ and ALLOC_DONE give out class buffers, FREE_ADDR_LO and chain returns take back, each with its checks
(derived: R117, R122, R125, R127, R128, R129, R460). -/
def Obligations.CellPoolGrantsAndReturns : Prop :=
  (∀ (v : Word) (s : State), s.bus →
    (s.running U.cpm = true → s.rfld Reg.CPM.ALLOC_STATUS 2 0 ≠ 1 →
      let t : State := { s with cpm := { s.cpm with req := some (fld v 20 0) } }
      exec (.allocReq v) s = .next (t.setFld Reg.CPM.ALLOC_STATUS 2 0 1)) ∧
    (s.running U.cpm = true → s.rfld Reg.CPM.ALLOC_STATUS 2 0 = 1 →
      exec (.allocReq v) s = .next ((s.setBit Reg.CPM.ALLOC_STATUS 6).raise U.cpm 4)) ∧
    (s.running U.cpm = false → exec (.allocReq v) s = .next (s.raise U.cpm 4))) ∧
  (∀ (n : Nat) (s : State), s.wf = true → s.on → s.cpm.req = some n →
    let free (k i : Nat) : Prop := i < s.classCount k ∧ s.bufOwner k i = 0
    ∃ u, exec .allocDone s = .next u ∧ u.cpm.req = none ∧
      (n = 0 → u.rfld Reg.CPM.ALLOC_STATUS 2 0 = 5 ∧ u.cpm.bufs = s.cpm.bufs) ∧
      (1048576 < n → u.rfld Reg.CPM.ALLOC_STATUS 2 0 = 4 ∧ u.cpm.bufs = s.cpm.bufs) ∧
      (0 < n → n ≤ 1048576 → (∀ i, ¬free (classFor n) i) → u.rfld Reg.CPM.ALLOC_STATUS 2 0 = 3 ∧ u.cpm.bufs = s.cpm.bufs) ∧
      (0 < n → n ≤ 1048576 → ∀ i, free (classFor n) i → (∀ j, j < i → ¬free (classFor n) j) →
        let k := classFor n
        u.rfld Reg.CPM.ALLOC_STATUS 2 0 = 2 ∧ u.rfld Reg.CPM.ALLOC_STATUS 5 4 = k ∧
        u.bufOwner k i = s.rfld Reg.CPM.ALLOC_TAG 11 0 + 1 ∧
        (∀ k' j, k' < 4 → j < 4096 → i < 4096 → ¬(k' = k ∧ j = i) → u.bufOwner k' j = s.bufOwner k' j) ∧
        u.reg (Reg.CPM.CLASS_FREE k) = BitVec.ofNat 32 (s.rfld (Reg.CPM.CLASS_FREE k) 12 0 - 1) ∧
        u.reg Reg.CPM.ALLOC_ADDR_LO = BitVec.ofNat 32 (s.cellAddr (s.classStart k + i * classCells k)))) ∧
  (∀ (v : Word) (s : State), s.bus → s.running U.cpm = true →
    let a := v.toNat + 2 ^ 32 * fld s.cpm.freeHi 4 0
    (∀ k i, k < 4 → i < s.classCount k → s.bufOwner k i ≠ 0 → a = s.cellAddr (s.classStart k + i * classCells k) →
      exec (.freeAddrLo v) s = .next ((s.setBuf k i 0).setNum (Reg.CPM.CLASS_FREE k)
        (s.rfld (Reg.CPM.CLASS_FREE k) 12 0 + 1))) ∧
    (a < s.poolBase ∨ s.cellAddr s.chainStart ≤ a → exec (.freeAddrLo v) s = .next (s.rejectReturn 1 0 0 a))) ∧
  (∀ (r : ChainRet) (rest : List ChainRet) (s : State), s.on → s.cpm.asked = r :: rest → s.cpm.walking = [] →
    s.running U.cpm = true →
    let t : State := { s with cpm := { s.cpm with asked := rest } }
    let w := t.walk r.stream 131072 r.first []
    ∃ u, exec .chainReturn s = .next u ∧ u.cpm = { t.cpm with
      walking := [(r, w.1, if w.1 = 0 then w.2 else w.2.filter s.cellAlloc)] }) ∧
  (∀ (r : ChainRet) (cause : Nat) (cells : List Nat) (s : State), s.wf = true → s.on → s.cpm.walking = [(r, cause, cells)] →
    s.running U.cpm = true →
    ∃ u, exec .chainReturnDone s = .next u ∧ u.cpm.walking = [] ∧
      (cause = 0 → u.cpm.free = s.cpm.free ++ cells ∧ ∀ i, u.cellAlloc i = (s.cellAlloc i && !cells.contains i)) ∧
      (cause ≠ 0 → u.cpm.free = s.cpm.free ∧ u.cpm.alloc = s.cpm.alloc ∧
        u.reg Reg.CPM.REJECT_CNT = addSat (s.reg Reg.CPM.REJECT_CNT) 1 ∧
        u.reg Reg.CPM.LEAKED = addSat (s.reg Reg.CPM.LEAKED) cells.length))

/-- DECODE_CHARGE_STOP, DECODE_ELAPSED_ABANDON and DECODE_CORE_COMPLETE end a core's work on its picture; WINDOW_DONE
hands it on (derived: R134, R142, R144, R145, R147). -/
def Obligations.DecodeCoresStopAndFinish : Prop :=
  ∀ (core : BitVec 5) (j : DecJob) (e : PlanWindow) (q : PicRun) (s : State), s.wf = true → s.on → (U.dec core.toNat).ok = true →
    s.has (U.dec core.toNat) = true → s.decAt core.toNat = some (j, e, q) → e.stream < 256 →
    let n := core.toNat
    let w := j.win.toNat
    (j.overrun = true → j.stopped = false → j.done = false →
      ∃ u, exec (.decodeChargeStop core) s = .next u ∧ u.decOf n = some { j with stopped := true } ∧
        (u.win w).pic = some { q with abandoned := true } ∧ (u.win w).flags = (s.win w).flags ||| bit1 5) ∧
    (j.done = false → q.elapsed = false →
      ∃ u r, exec (.decodeElapsedAbandon core) s = .next u ∧ (u.win w).pic = some r ∧ r.abandoned = true ∧ r.elapsed = true ∧
        (∀ i, r.units.getD i 0 ≤ q.units.getD i 0) ∧ (u.win w).flags = (s.win w).flags ||| bit1 5 ∧
        ∀ m k, m < 24 → s.decOf m = some k → k.win = j.win → u.decOf m = some { k with stopped := true } ∧
          u.reg (Reg.DEC.ABANDONED m) = addWrap (s.reg (Reg.DEC.ABANDONED m)) 1) ∧
    (∀ (elapsed : Word), j.done = false → j.overrun = false ∨ j.stopped = true →
      let t := (s.setDec n (some { j with done := true, elapsed := elapsed.toNat })).noteCharge n (q.chargeOf j.part) elapsed.toNat
      exec (.decodeCoreComplete core elapsed) s = .next t ∧ t.reg (Reg.DEC.LAST_ELAPSED n) = elapsed ∧
        t.decOf n = some { j with done := true, elapsed := elapsed.toNat }) ∧
    (∀ (p : Plan) (au : AccessUnit), s.ple.plan = some p → s.running U.ple = true → s.ticking = true →
      (s.win w).st = .fired → e.kind = 0 → (s.win w).au = some au → s.workDone w e = true → s.clock.phase.toNat < e.deadline →
      s.calm (eventKey s.clock.phase.toNat w) →
      ∃ u, exec (.windowDone j.win) s = .next u ∧ u.dram = (s.finishPicture w e au q).dram ∧ (u.win w).went .done = true)

/-- AUG_READ_DONE and AUG_READ_TIMEOUT settle an engine's parameters; LENS_PROGRAM_COMPLETE writes its outputs and
counts (derived: R166, R172, R173, R182). -/
def Obligations.LensEnginesFinish : Prop :=
  ∀ (i : BitVec 3) (j : LnsJob) (p : Plan) (w : PlanWindow) (q : PlanProgram) (d : LnsDesc) (s : State), s.wf = true → s.on →
    (U.lns i.toNat).ok = true → s.has (U.lns i.toNat) = true → s.lensAt i.toNat = some (j, p, w, q, d) →
    let n := i.toNat
    let identity (u : State) : Prop :=
      u.lnsOf n = some { j with tag := none, raw := none, settled := true, aug := [] } ∧
        u.reg (Reg.LNS.LAST_AUG n) = BitVec.ofNat 32 (2 ^ 31 + 2 ^ 16 + w.stream * 256) ∧
        u.reg (Reg.LNS.AUG_DEFAULT n) = addWrap (s.reg (Reg.LNS.AUG_DEFAULT n)) 1 ∧
        (u.win j.win.toNat).flags = (s.win j.win.toNat).flags ||| bit1 8
    (j.settled = false → s.augPending j = false → exec (.augReadDone i) s = .next (s.augAct n j w d.ring) ∧
      (j.raw = none → identity (s.augAct n j w d.ring))) ∧
    (j.settled = false → s.augPending j = true → ∃ u, exec (.augReadTimeout i) s = .next u ∧ identity u) ∧
    (∀ elapsed : Word, j.settled = true → j.done = false →
      let src := match j.src, s.storeGeometry p w.stream with
        | some x, some g =>
          some { addr := p.refAddr ((p.refsOf q).getD 1 default) + x.buffer * g.bufBytes, geo := g, ent := x : LnsSrc }
        | _, _ => none
      let r := d.outs.zipIdx.foldl (fun (a : Nat × State) x =>
        let b := a.2.lensOutput n p q d j src x.2 x.1
        (a.1 + b.1, b.2)) (0, s)
      ∃ u, u.tiles = r.2.tiles ∧ u.reg (Reg.LNS.LAST_SAT n) = BitVec.ofNat 32 r.1 ∧ exec (.lensProgramComplete i elapsed) s = .next u ∧ u.lnsOf n = some { j with done := true } ∧
        u.reg (Reg.LNS.FRAMES n) = addWrap (s.reg (Reg.LNS.FRAMES n)) 1 ∧
        u.reg (Reg.LNS.LAST_CHARGE n) = BitVec.ofNat 32 d.charge ∧ u.reg (Reg.LNS.LAST_ELAPSED n) = elapsed)

/-- RECORD_ACCEPT hands a window's record over; RING_DELIVERY and SINK_SEND deliver or discard; SINK_CFG_WRITE takes
settings up (derived: R295, R296, R299, R301, R303, R305, R306). The model's choices it rests on: logs 44, 167. -/
def Obligations.RecordsReachDestinations : Prop :=
  (∀ (p : Plan) (w : BitVec 12) (e : PlanWindow) (s : State), s.wf = true → s.on → s.ple.plan = some p →
    p.windows[w.toNat]? = some e → s.running U.ple = true → s.ticking = true → s.recordDue e = true → (s.win w.toNat).handed = false →
    ((s.win w.toNat).st = .done ∨ (s.win w.toNat).st = .skipped ∨ (s.win w.toNat).st = .forced →
      ∃ u, exec (.recordAccept w) s = .next u ∧ (u.win w.toNat).handed = true ∧
        ((s.win w.toNat).left = [] → (u.win w.toNat).st = .closed)) ∧
    (∀ t, (s.win w.toNat).st = .fired → e.kind = 2 → s.emitter e = some t →
      ∃ u, exec (.recordAccept w) s = .next u ∧ (u.win w.toNat).handed = true ∧ (u.win w.toNat).st = .fired ∧
        (u.tileOf t).emitting = false)) ∧
  (∀ (r : BitVec 13) (x : Rec) (s : State), s.on → s.owedRing r = some x →
    let gone (t : State) : State := t.storeTake (fun y => y.ring == some r) fun y => { y with ring := none }
    (s.egrStopped = true → exec (.ringDelivery r) s = .next (gone (s.setDropBefore x.stream.toNat r.toNat true))) ∧
    (s.egrStopped = false → s.hostState ≠ 0 ∨ s.hostLinkUp = false →
      exec (.ringDelivery r) s = .next (gone ((s.incS Reg.EGR.HOSTLOSS_DROP_CNT).setDropBefore x.stream.toNat r.toNat true))) ∧
    (s.egrStopped = false → s.hostState = 0 → s.canIssue = true → s.hostLinkUp = true →
      exec (.ringDelivery r) s = .next (gone (s.deliver r.toNat x)) ∧
      (s.ringState r.toNat ≠ 1 ∨ s.ringKind r.toNat ≠ 0 →
        s.deliver r.toNat x = ((s.incS Reg.EGR.RING_DROP_CNT).raise U.egr 9).setDropBefore x.stream.toNat r.toNat true))) ∧
  (∀ (k : BitVec 6) (r : Rec) (s : State), s.on → s.owedSink k.toNat = some r →
    let x := s.sinkOf k.toNat
    let port := fld x.phy 19 16
    let up := s.running (U.nix port) && s.linkUp port
    let gone (t : State) : State :=
      t.storeTake (fun y => y.sinks.contains k.toNat) fun y => { y with sinks := y.sinks.filter fun i => i != k.toNat }
    (s.egrStopped = false → tst x.cfg 31 = true → up = true → exec (.sinkSend k) s = .next (gone
      (((x.frames (s.portMac port) r).foldl (fun t f => t.transmit port f) s).incW (Reg.EGR.SINK_TX k.toNat)))) ∧
    (s.egrStopped = false → tst x.cfg 31 = true → up = false → exec (.sinkSend k) s = .next (gone ((s.incS (Reg.EGR.SINK_DROP k.toNat)).raise U.egr 10))) ∧
    (tst x.cfg 31 = false ∨ s.egrStopped = true → exec (.sinkSend k) s = .next (gone s))) ∧
  (∀ (k : BitVec 6) (v : Word) (s : State), s.bus → s.live? U.egr →
    let t := s.setReg (Reg.EGR.SINK_CFG k.toNat) v
    exec (.sinkCfgWrite k v) s = .next
      { t with egr := { t.egr with sinks := t.egr.sinks.set (fun _ => SinkSet.reset) k.toNat (t.sinkRegs k.toNat v) } })

/-- A read beat returns the bytes last written, from DRAM, the write queue, or both; WRITE_DRAIN drains the oldest
entries; a controller that accepts no request holds it (derived: R313, R318, R319, R320, R321, R322, R327, R332, R459). The
model's choices it rests on: logs 22, 162. -/
def Obligations.DramBeatsReadWhatWasWritten : Prop :=
  (∀ (unit unit' : Inst) (addr : BitVec 37) (data : Bytes) (mask : BitVec 64) (s : State), s.wf = true → s.on →
    addr.toNat < s.usable →
    let b := addr.toNat / 64
    let x := s.spot (b * 64)
    let q := (s.dmcOf x.ctl).queue (s.chanOf x)
    let ch := s.readRank x / 2
    let now := overlay (s.readBlock b).1 (sliceB data 0 64) mask
    s.memReady x.ctl = true → s.deadRank x = false → (q.length < 64 ∨ q.any (fun e => e.block = b) = true) →
    (s.readBlock b).2 = false ∨ mask = fullMask →
    ∃ u, exec (.dramWrite unit addr [(data, mask)]) s = .next u ∧ u.readBlock b = (now, false) ∧
      ((s.dmcOf x.ctl).reads ch = [] →
        ∃ v, exec (.dramRead [⟨unit', addr, 0⟩] (BitVec.ofNat 4 x.ctl) (BitVec.ofNat 3 ch) 0 0) u = .next v ∧
          v.dram.beat = now ∧ v.dram.beatPoison = false ∧ v.dram.beatFor = some unit')) ∧
  (∀ (unit : Inst) (addr : BitVec 37) (errs fails : Nat) (s : State), s.wf = true → s.on → addr.toNat < s.usable →
    let b := addr.toNat / 64
    let x := s.spot (b * 64)
    let c := x.ctl
    let ch := s.readRank x / 2
    let e := (s.blockFaults b).1 + errs
    let dead := linkDead ((s.blockFaults b).2 + fails)
    let q := (s.dmcOf c).queue (s.chanOf x)
    s.memReady c = true → s.deadRank x = false → s.queued b = none → (s.dmcOf c).reads ch = [] → s.dram.held = [] →
    ∃ u, exec (.dramRead [⟨unit, addr, 0⟩] (BitVec.ofNat 4 c) (BitVec.ofNat 3 ch) errs fails) s = .next u ∧
      u.dram.beat = s.stored b ∧ u.dram.beatPoison = (s.marked b || decide (2 ≤ e) || dead) ∧
      (dead = false → s.marked b = true →
        u.reg (Reg.DMC.POISON_READ_CNT c) = addSat (s.reg (Reg.DMC.POISON_READ_CNT c)) 1) ∧
      (dead = false → s.marked b = false → 2 ≤ e → u.reg (Reg.DMC.UE_CNT c) = addSat (s.reg (Reg.DMC.UE_CNT c)) 1) ∧
      (dead = false → s.marked b = false → e = 1 → q.length < 64 →
        u.reg (Reg.DMC.CE_CNT c) = addSat (s.reg (Reg.DMC.CE_CNT c)) 1 ∧
        (u.dmcOf c).queue (s.chanOf x) = q ++ [{ block := b, data := s.stored b, mask := fullMask, mark := false }])) ∧
  (∀ (c : BitVec 4) (ch : BitVec 3) (m : MemRead) (s : State), s.wf = true → s.on → s.dram.held = [] → s.nextRead c.toNat ch.toNat = some m →
    let d := s.dmcOf c.toNat
    let q := d.reads ch.toNat
    ((∃ k ∈ q, d.age < s.clock.up - k.time) → d.age < s.clock.up - m.time) ∧
    ((∀ k ∈ q, s.clock.up - k.time ≤ d.age) → ∀ k ∈ q, d.prioOf k.unit ≤ d.prioOf m.unit) ∧
    ∃ u, exec (.dramRead [] c ch 0 0) s = .next u ∧ (u.dmcOf c.toNat).reads ch.toNat = q.erase m ∧
      (m.drop = true → u.dram.beat = s.dram.beat ∧ u.dram.beatFor = s.dram.beatFor) ∧
      (m.drop = false → u.dram.beatFor = some m.unit ∧ u.dram.beat = (s.readBlock m.block).1 ∧
        u.dram.beatPoison = (s.readBlock m.block).2)) ∧
  (∀ (unit : Inst) (addr : BitVec 37) (data : Bytes) (mask : BitVec 64) (s : State), s.on → addr.toNat < s.usable →
    s.memReady (s.spot (addr.toNat / 64 * 64)).ctl = false →
    exec (.dramWrite unit addr [(data, mask)]) s = .next
      (s.holdReq (.write unit { block := addr.toNat / 64, data := sliceB data 0 64, mask := mask, mark := false }))) ∧
  (∀ (c : BitVec 4) (ch : BitVec 3) (upsets : List Upset) (s : State), s.on → s.dram.held = [] →
    let d := s.dmcOf c.toNat
    let q := d.queue ch.toNat
    (d.initDone = true → 48 < q.length ∨ d.reads ch.toNat = [] →
      ∃ u, exec (.writeDrain c ch upsets) s = .next u ∧ (u.dmcOf c.toNat).queue ch.toNat = q.drop (Nat.max 1 (q.length - 16))) ∧
    (d.initDone = false ∨ (q.length ≤ 48 ∧ d.reads ch.toNat ≠ []) →
      exec (.writeDrain c ch upsets) s = .next (s.upsets upsets)))

/-- REFRESH, the rate poll, the row-hammer window, SCRUB_READ, migration, BAL_INTERVAL and DRAM_INIT_DONE (derived:
R316, R323, R324, R325, R329, R330, R331, R333, R459). The model's choices it rests on: logs 22, 162. -/
def Obligations.DramMaintenance : Prop :=
  (∀ (c rank : BitVec 4) (pair : BitVec 3) (upsets : List Upset) (s : State), s.on →
    let owed := s.owes c.toNat rank.toNat pair.toNat
    let may := 8 ≤ owed ∨ (-8 < owed ∧ s.pairBusy c.toNat rank.toNat pair.toNat = false)
    owed ≤ 8 ∧
    (s.wf = true → (s.dmcOf c.toNat).initDone = true → may →
      ∃ u, exec (.refresh c rank pair upsets) s = .next u ∧ u.owes c.toNat rank.toNat pair.toNat = owed - 1 ∧
        (∀ b, b = pair.toNat ∨ b = pair.toNat + 8 →
          (u.dmcOf c.toNat).openRow.get (fun _ => none) (rank.toNat * 16 + b) = none) ∧
        u.reg (Reg.DMC.FORCED_REF_CNT c.toNat) =
          if owed = 8 then addWrap (s.reg (Reg.DMC.FORCED_REF_CNT c.toNat)) 1 else s.reg (Reg.DMC.FORCED_REF_CNT c.toNat)) ∧
    ((s.dmcOf c.toNat).initDone = false ∨ ¬may → exec (.refresh c rank pair upsets) s = .next (s.upsets upsets))) ∧
  (∀ (c : BitVec 4) (rate : BitVec 2) (s : State), s.wf = true → s.on →
    ∃ u, exec (.refreshRatePoll c rate) s = .next u ∧ u.rfld (Reg.DMC.REFRESH_STATUS c.toNat) 1 0 = rate.toNat ∧
      (rate = 3 → u.rbit (pgErr (U.dmc c.toNat)) 15 = true)) ∧
  (∀ (c : BitVec 4) (s : State), s.wf = true → s.on →
    ∃ u, exec (.hammerWindowReset c) s = .next u ∧ ∀ k, (u.dmcOf c.toNat).hammer.get (fun _ => []) k =
      ((s.dmcOf c.toNat).hammer.get (fun _ => []) k).map fun r => (r.1, 0)) ∧
  (∀ (c rank : BitVec 4) (block : BitVec 23) (errs : Nat) (s : State), s.wf = true → s.on → (s.dmcOf c.toNat).initDone = true →
    (s.dmcOf c.toNat).hours ≠ 0 → block.toNat < 4 * rankGranules → s.rankState c.toNat rank.toNat ≠ 4 →
    let k := blockPlace c.toNat rank.toNat (block.toNat / 4) (block.toNat % 4)
    let e := (s.faultsAt k).1 + errs
    linkDead (s.faultsAt k).2 = false →
    (s.dram.poison.get noPoison k = true → ∃ u, exec (.scrubRead c rank block errs) s = .next u ∧
      u.reg (Reg.DMC.POISON_READ_CNT c.toNat) = addSat (s.reg (Reg.DMC.POISON_READ_CNT c.toNat)) 1) ∧
    (s.dram.poison.get noPoison k = false →
      (e = 0 → (s.faultsAt k).2 = 0 →
        exec (.scrubRead c rank block errs) s = .next (s.touch c.toNat rank.toNat (block.toNat / 4))) ∧
      (e = 1 → ∃ u, exec (.scrubRead c rank block errs) s = .next u ∧ u.dram.poison.get noPoison k = false ∧
        (∀ blk, s.deviceBlock c.toNat rank.toNat block.toNat = some blk → (s.spot (blk * 64)).ctl = c.toNat →
          ((s.dmcOf c.toNat).queue (s.chanOf (s.spot (blk * 64)))).length < 64 →
          u.reg (Reg.DMC.CE_CNT c.toNat) = addSat (s.reg (Reg.DMC.CE_CNT c.toNat)) 1 ∧ (u.queued blk).isSome = true)) ∧
      (2 ≤ e → ∃ u, exec (.scrubRead c rank block errs) s = .next u ∧ u.dram.poison.get noPoison k = true ∧
        u.reg (Reg.DMC.UE_CNT c.toNat) = addSat (s.reg (Reg.DMC.UE_CNT c.toNat)) 1))) ∧
  (∀ (c : BitVec 4) (upsets : List Upset) (s : State), s.wf = true → s.on → s.migrating c.toNat = true →
    let st := Reg.DMC.MIG_STATUS c.toNat
    let f := s.rfld st 27 24
    let t := s.rfld st 23 20
    let seg := s.rfld st 17 0
    let sound := ∀ k, k < 60 → linkDead ((s.upsets upsets).faultsAt (blockPlace c.toNat t (seg * 15 + k / 4) (k % 4))).2 = false
    (f ≠ t → sound → seg + 1 < rankSegments →
      ∃ u, exec (.migrationSegmentCopy c upsets false) s = .next u ∧ u.rfld st 17 0 = seg + 1 ∧
        ∀ o, o < 15 * 256 → u.dram.cells.get dram0 (bytePlace c.toNat t (seg * 15) o) =
          s.dram.cells.get dram0 (bytePlace c.toNat f (seg * 15) o)) ∧
    (f ≠ t → sound → seg + 1 = rankSegments →
      ((s.dmcOf c.toNat).queue (f / 2)).length + ((s.dmcOf c.toNat).queue (t / 2)).length ≤ 64 →
      ∃ u, exec (.migrationSegmentCopy c upsets false) s = .next u ∧
        u.rankState c.toNat f = 4 ∧ u.rankState c.toNat t = 0 ∧ u.rfld st 31 30 = 2) ∧
    exec (.migrationSegmentCopy c upsets true) s = .next ((s.upsets upsets).rankFault c.toNat t)) ∧
  (∀ (s : State), s.wf = true → s.on →
    ∃ u, exec .balInterval s = .next u ∧ ∀ c, c < 16 →
      let beats (i : Nat) := (s.dmcOf c).chanBeats.get (fun _ => 0) i
      (u.dmcOf c).chanBeats = [] ∧ (u.dmcOf c).portBeats = [] ∧
      u.reg (Reg.DMC.CTRL_LOAD c) = BitVec.ofNat 32 (((List.range 8).map beats).foldl (· + ·) 0) ∧
      ∀ i, i < 8 → u.reg (Reg.DMC.CHAN_LOAD c i) = BitVec.ofNat 32 (beats i)) ∧
  (∀ (c : BitVec 4) (failed : BitVec 16) (s : State), s.wf = true → s.on → (s.dmcOf c.toNat).initDone = false →
    s.dram.held = [] →
    ∃ u, exec (.dramInitDone c failed) s = .next u ∧ (u.dmcOf c.toNat).initDone = true ∧
      (u.dmcOf c.toNat).badRanks = maskList failed.toNat 16 ∧
      (∀ k, u.dram.cells.get dram0 k = if ofCtl c.toNat 256 k then 0 else s.dram.cells.get dram0 k) ∧
      (∀ k, u.dram.poison.get noPoison k = if ofCtl c.toNat 4 k then false else s.dram.poison.get noPoison k) ∧
      (s.runState (U.dmc c.toNat) = 0 → u.runState (U.dmc c.toNat) = 1 ∧ u.rbit (pgCtrl (U.dmc c.toNat)) 0 = true))

/-- The PCIe link trains up the ladder, comes up, goes down as host loss, and enters and leaves its low-power states
(derived: R339, R343, R344, R360, R362). -/
def Obligations.PcieLinkTrainsAndSleeps : Prop :=
  ∀ s : State, s.on →
    let st := s.pcieState
    (s.running U.pep = true → st = 0 ∨ st = 4 →
      let t : State := { s with pep := { s.pep with attempt := s.pep.attempt + 1 } }
      exec .pcieTrainingAttempt s = .next ((t.incHi Reg.PEP.TRAIN_LOG).setFld Reg.PEP.LINK_STATUS 3 0 2)) ∧
    (∀ cause last : BitVec 4, st = 2 →
      let t := s.setFld Reg.PEP.TRAIN_LOG 15 0 (last.toNat * 256 + ladderRate s.pep.attempt * 16 + cause.toNat)
      exec (.pcieTrainingFail cause last) s = .next ((t.setFld Reg.PEP.LINK_STATUS 3 0 4).raise U.pep 11)) ∧
    (∀ (rate width : BitVec 4) (flit : Bool),
      let may := s.pcieClkLost = false ∧ 4 ≤ rate.toNat ∧ rate.toNat ≤ ladderRate s.pep.attempt ∧ width.toNat ≤ 4 ∧
        (flit = true ∨ rate.toNat ≤ 5)
      (st = 2 → may → exec (.pcieLinkUp rate width flit) s = .next
        (s.setFld Reg.PEP.LINK_STATUS 15 0 (b2n flit * 2 ^ 15 + width.toNat * 256 + rate.toNat * 16 + 3))) ∧
      (st ≠ 2 ∨ ¬may → exec (.pcieLinkUp rate width flit) s = .next s)) ∧
    (s.wf = true → st = 3 → s.hostState = 0 → ∃ u, exec .pcieLinkDown s = .next u ∧ u.pcieState = 0 ∧
      u.rfld Reg.PEP.LINK_STATUS 31 16 = min 0xFFFF (s.rfld Reg.PEP.LINK_STATUS 31 16 + 1) ∧
      u.rfld Reg.PEP.TRAIN_LOG 31 16 = 0 ∧ u.hostState = (if s.allOnes then 2 else 1) ∧
      u.rfld Reg.PEP.HOSTLOSS_STATUS 7 4 = 1 ∧ u.pep.reads = [] ∧ u.pep.inta = false) ∧
    (let idle := st = 3 ∧ s.pep.reads = []
     (idle → s.pep.cfg.prog.l1En = true → s.rbit Reg.PEP.PM_CTRL 0 = true → s.linkPm < 2 →
      exec (.l1Entry .l1) s = .next (s.setFld Reg.PEP.LINK_STATUS 14 12 2)) ∧
     (idle → s.pep.cfg.prog.l11En = true → s.rbit Reg.PEP.PM_CTRL 1 = true → s.linkPm = 2 →
      exec (.l1Entry .l11) s = .next (s.setFld Reg.PEP.LINK_STATUS 14 12 3)) ∧
     (idle → s.pep.cfg.prog.l12En = true → s.pep.cfg.prog.l12Threshold ≤ 50000 → s.rbit Reg.PEP.PM_CTRL 1 = true → s.linkPm = 3 →
      exec (.l1Entry .l12) s = .next (s.setFld Reg.PEP.LINK_STATUS 14 12 4))) ∧
    (2 ≤ s.linkPm → s.linkPm ≤ 4 → exec .l1Exit s = .next (s.setFld Reg.PEP.LINK_STATUS 14 12 0)) ∧
    (st = 3 → s.rbit Reg.PEP.LINK_STATUS 15 = true → s.linkPm = 0 → s.pep.cfg.prog.l0pEn = true → s.rbit Reg.PEP.PM_CTRL 2 = true →
      exec .l0pEntry s = .next (s.setFld Reg.PEP.LINK_STATUS 14 12 1)) ∧
    (s.linkPm = 1 → exec .l0pExit s = .next (s.setFld Reg.PEP.LINK_STATUS 14 12 0))

/-- Host resets and D3hot are host loss while a stream is in use; BUS_MASTER_ENABLE and HOSTLOSS_RELEASE end it
(derived: R356, R361, R362, R363, R364). -/
def Obligations.HostLossFreezesTheHostSide : Prop :=
  (∀ s : State, s.wf = true → s.on → s.hostState = 0 →
    let lost (u : State) (cause : Nat) : Prop :=
      u.hostState = (if s.allOnes then 2 else 1) ∧ u.rfld Reg.PEP.HOSTLOSS_STATUS 7 4 = cause ∧ u.rbit (pgErr U.pep) 10 = true ∧
        u.pep.cfg.busMaster = false ∧ u.pep.reads = [] ∧ (∀ e ∈ u.pep.uploads, Upload.kept e.2 = true) ∧ u.pep.idxOwed = [] ∧ u.pep.fenceOwed = []
    (∃ u, exec .hotReset s = .next u ∧ lost u 2 ∧ u.hostLinkUp = false) ∧
    (∃ u, exec .linkDisable s = .next u ∧ lost u 5 ∧ u.hostLinkUp = false) ∧
    (s.streamsInUse = true → (∃ u, exec .perst s = .next u ∧ lost u 3 ∧ u.hostLinkUp = false) ∧
      (∃ u, exec .flr s = .next u ∧ lost u 4) ∧ ∃ u, exec .d3hotEntry s = .next u ∧ lost u 6 ∧ u.pep.cfg.d3hot = true)) ∧
  (∀ s : State, s.wf = true → s.on → s.streamsInUse = false →
    let reset (u : State) : Prop := u.power.warm = true ∧ u.rbit Reg.DEVCTL.RESET_CAUSE 3 = true ∧ u.pep.cfg.busMaster = false
    (∃ u, exec .perst s = .next u ∧ reset u) ∧ (∃ u, exec .flr s = .next u ∧ reset u) ∧
    (∃ u, exec .d3hotEntry s = .next u ∧ u.pep.cfg.d3hot = true ∧ u.rfld Reg.PEP.LINK_STATUS 14 12 = 5 ∧
      u.hostState = s.hostState)) ∧
  (∀ s : State, s.on → s.pep.cfg.d3hot = true →
    let t : State := { s with pep := { s.pep with cfg := { s.pep.cfg with d3hot := false } } }
    exec .d3hotExit s = .next (t.setFld Reg.PEP.LINK_STATUS 14 12 0).updInta) ∧
  (∀ (c : HostCfg) (s : State), s.wf = true → s.on → ∃ u, exec (.busMasterEnable c) s = .next u ∧
    u.pep.cfg.busMaster = true ∧ (u.hostState = if s.hostState = 2 then 0 else s.hostState) ∧
    u.pep.cfg.prog = { c with bar2Log2 := if 30 ≤ c.bar2Log2 ∧ c.bar2Log2 ≤ 37 then c.bar2Log2 else s.pep.cfg.prog.bar2Log2 }) ∧
  (∀ (v : Word) (s : State), s.bus →
    (s.wf = true → s.hostState = 1 → fld v 15 0 = 0x6F3A → ∃ u, exec (.hostlossRelease v) s = .next u ∧ u.hostState = 0 ∧
      u.rbit Reg.PEP.ATTN_STATUS 3 = true) ∧
    (s.hostState ≠ 1 ∨ fld v 15 0 ≠ 0x6F3A → exec (.hostlossRelease v) s = .next (s.raise U.pep 4))) ∧
  (∀ (on : Bool) (s : State), s.on →
    let t : State := { s with pep := { s.pep with cfg := { s.pep.cfg with intDisable := on } } }
    exec (.interruptDisableWrite on) s = .next t.updInta)

/-- BAR2 accesses reach DRAM below U or are held, TLP errors set their AER bit and are reported, completions are used,
discarded or fault their ring (derived: R39, R341, R342, R357, R358, R359, R459, R461). The model's choices it rests on: logs 8,
22, 168. -/
def Obligations.PcieTrafficIsAnswered : Prop :=
  (∀ (off : BitVec 37) (acc : Bar2Acc) (s : State), s.on →
    let v := s.leaveL1.when (accBad acc) fun s => s.aerUnc 12
    let a := v.bar2Base + off.toNat
    let k := v.bar2Inside off.toNat (accLen acc)
    (2 ^ s.pep.cfg.prog.bar2Log2 ≤ off.toNat → exec (.bar2Access off acc) s = .next s) ∧
    (off.toNat < 2 ^ s.pep.cfg.prog.bar2Log2 →
      (v.bar2Ready off acc = false → exec (.bar2Access off acc) s = .next (v.holdReq (.bar2 off acc))) ∧
      (v.bar2Ready off acc = true →
        (∀ len : Nat, acc = .read len →
          let w := v.readBeats U.pep a k
          exec (.bar2Access off acc) s = .next ((if k < len then w.bar2Beyond (off.toNat + k) else w).emit
            (.completion (v.readMemZ a k ++ List.replicate (len - k) 0) (v.poisoned a k)))) ∧
        (∀ (data : Bytes) (en : List Bool) (bad : Bool), acc = .write data en bad →
          let w := v.writeBytes U.pep a (data.take k) en bad
          exec (.bar2Access off acc) s = .next (if k < data.length then w.bar2Beyond (off.toNat + k) else w))))) ∧
  (∀ s : State, s.on →
    let c := s.pep.cfg
    let reported (mask : Bool) (level : Nat) : List Out :=
      if s.hostLinkUp && s.hostState == 0 && !mask then [.errMsg level] else []
    let noted (u : State) (cor unc : Word) (out : List Out) : Prop :=
      u.pep.cfg = { c with aerCor := c.aerCor ||| cor, aerUnc := c.aerUnc ||| unc } ∧ u.out = s.out ++ out
    (∀ e ∈ [(AerError.receiverError, 0), (.badTlp, 6), (.badDllp, 7), (.replayRollover, 8), (.replayTimeout, 12)],
      ∃ u, exec (.tlpError e.1) s = .next u ∧ noted u (bit1 e.2) 0 (reported (tst c.prog.aerCorMask e.2) 0)) ∧
    (∀ req, ∃ u, exec (.tlpError (.advisoryNonFatal req)) s = .next u ∧
      noted u (bit1 13) 0 (reported (tst c.prog.aerCorMask 13) 0 ++ [.unsupported req])) ∧
    (∀ e ∈ [(AerError.unexpectedCompletion, 16), (.malformed, 18), (.receiverOverflow, 17), (.flowControl, 13), (.dlProtocol true, 4)],
      ∃ u, exec (.tlpError e.1) s = .next u ∧
        noted u 0 (bit1 e.2) (reported (tst c.prog.aerUncMask e.2) (if tst c.prog.aerUncSev e.2 then 2 else 1))) ∧
    exec (.tlpError (.dlProtocol false)) s = .next (s.aerUnc 4).pcieLost ∧
    (∀ off data, exec (.tlpError (.poisonedWrite off data)) s = exec (.bar2Access off (.write data [] true)) s) ∧
    (∀ tag, exec (.tlpError (.poisonedCompletion tag)) s = exec (.hostCompletion tag .poisoned []) s) ∧
    exec (.tlpError .correctedInternal) s = .next ((s.aerCor 14).raise U.pep 2) ∧
    exec (.tlpError .uncorrectableInternal) s = .next ((s.aerUnc 22).raise U.pep 3)) ∧
  (∀ (tag : Nat) (st : CplStatus) (data : Bytes) (s : State), s.on →
    (s.pep.reads.find? (fun r => r.tag = tag) = none → exec (.hostCompletion tag st data) s = .next (s.aerUnc 16)) ∧
    (∀ r, s.pep.reads.find? (fun r => r.tag = tag) = some r →
      (s.gaveUp r = true → exec (.hostCompletion tag st data) s = .next (s.endRead tag)) ∧
      (s.gaveUp r = false →
        exec (.hostCompletion tag .success data) s = .next ((s.endRead tag).readDone r data) ∧
        exec (.hostCompletion tag .poisoned data) s =
          .next ((((s.endRead tag).aerUnc 12).readLost r .poisoned data).ringFault r.by'.ring 2) ∧
        (st = .unsupported ∨ st = .completerAbort →
          exec (.hostCompletion tag st data) s = .next (((s.endRead tag).readLost r st []).ringFault r.by'.ring 7))))) ∧
  (∀ (tag : Nat) (r : HostRead) (s : State), s.wf = true → s.on → s.pep.reads.find? (fun r => r.tag = tag) = some r →
    let t := s.endRead tag
    let due := r.time.toNat + ctoNs s.pep.cfg.prog.ctoCode.toNat
    t.calmFor (fun s => s.toTime due) →
    (r.dropped = true → exec (.cplTimeout tag) s = .next (t.toTime due)) ∧
    (r.dropped = false → ∃ u, exec (.cplTimeout tag) s = .next u ∧ u.pep.reads = s.pep.reads.filter (fun r => r.tag != tag) ∧
      u.reg Reg.PEP.CPL_TO_CNT = addSat (s.reg Reg.PEP.CPL_TO_CNT) 1 ∧ u.rbit (pgErr U.pep) 8 = true))

/-- RING_ENABLE, RING_DISABLE, RING_STOPPED, RING_CONFIG_WRITE, HOST_IDX_WRITE and INDEX_MIRROR_WRITE (derived: R347,
R348, R349, R350, R351, R372). -/
def Obligations.RingsAreSetUpAndRung : Prop :=
  ∀ (r : BitVec 13) (s : State), s.bus →
    let n := r.toNat
    (∀ v : Word, s.wf = true → 6 ≤ fld v 28 24 → fld v 28 24 ≤ 16 → s.ringState n = 0 → s.isSealed = true →
      ∃ u, exec (.ringEnable r v) s = .next u ∧ u.ringState n = 1 ∧ u.hostIdx n = 0 ∧ u.devIdx n = 0 ∧
        u.reg (Reg.RING.FAULT_IDX n) = 0 ∧ u.rbit (Reg.RING.CFG n) 31 = true ∧
        u.rfld (Reg.RING.CFG n) 30 22 = fld v 30 22) ∧
    (∀ v : Word, s.wf = true → 6 ≤ fld v 28 24 → fld v 28 24 ≤ 16 → s.ringState n = 1 ∨ s.ringState n = 2 →
      ∃ u, exec (.ringDisable r v) s = .next u ∧ u.ringState n = 3 ∧ u.idxOwed n = false ∧ u.rbit (Reg.RING.CFG n) 31 = false) ∧
    (s.wf = true → s.ringState n = 3 → ∃ u, exec (.ringStopped r) s = .next u ∧ u.ringState n = 0 ∧ u.upload n = none ∧
      u.pep.reads = s.pep.reads.map (fun x => if x.by'.ring = n then { x with dropped := true } else x) ∧
      ∀ i j, i < 8 → s.lnsOf i = some j → j.settled = false → j.ring = some n →
        u.lnsOf i = some { j with tag := none, raw := none }) ∧
    (s.ringState n ≠ 3 → exec (.ringStopped r) s = .next s) ∧
    (∀ v : Word, ∀ e ∈ [(RingReg.baseLo, Reg.RING.BASE_LO n, (0xFFFFF000 : Word)), (.baseHi, Reg.RING.BASE_HI n, 0xFFFFFFFF),
        (.mirrorLo, Reg.RING.MIRROR_LO n, 0xFFFFFFFC), (.mirrorHi, Reg.RING.MIRROR_HI n, 0xFFFFFFFF)],
      (s.ringState n = 0 → exec (.ringConfigWrite r e.1 v) s = .next (s.setReg e.2.1 (v &&& e.2.2))) ∧
      (s.ringState n ≠ 0 → exec (.ringConfigWrite r e.1 v) s = .next (s.setBit (Reg.RING.STATUS n) 8))) ∧
    (∀ v : Word, (s.ringState n = 0 → s.ringSecure n = true ∨ s.fenceSecure (fld v 12 0) = false →
        exec (.ringConfigWrite r .bind v) s = .next (s.setReg (Reg.RING.BIND n) (v &&& 0xFF001FFF))) ∧
      (s.ringState n ≠ 0 ∨ (s.ringSecure n = false ∧ s.fenceSecure (fld v 12 0) = true) →
        exec (.ringConfigWrite r .bind v) s = .next (s.setBit (Reg.RING.STATUS n) 8))) ∧
    (∀ v : Word,
      let room := (s.devIdx n + BitVec.ofNat 32 (if s.hostProduced n then s.ringSize n else 0) - s.hostIdx n).toNat
      (s.ringState n = 1 → (v - s.hostIdx n).toNat ≤ room →
        exec (.hostIdxWrite r v) s = .next (s.setReg (Reg.RING.HOST_IDX n) v)) ∧
      (s.ringState n = 1 → room < (v - s.hostIdx n).toNat → exec (.hostIdxWrite r v) s = .next (s.ringFault n 5)) ∧
      (s.ringState n ≠ 1 → exec (.hostIdxWrite r v) s = .next (s.setBit (Reg.RING.STATUS n) 8))) ∧
    (s.idxOwed n = true → s.ringState n = 1 →
      (s.hostState ≠ 0 → exec (.indexMirrorWrite r) s = .next ((s.setIdxOwed n false).incS Reg.PEP.OUT_DROP_CNT)) ∧
      (let a := fld (s.reg (Reg.RING.MIRROR_LO n)) 31 2 * 4 + 2 ^ 32 * (s.reg (Reg.RING.MIRROR_HI n)).toNat
       s.wf = true → s.canIssue = true → s.winOk (s.ringClass n) true a 4 = true →
        ∃ u, exec (.indexMirrorWrite r) s = .next u ∧ u.out = s.out ++ [.hostWrite a (leBytes 4 (s.devIdx n).toNat) false] ∧
          u.idxOwed n = false))

/-- An UPLOAD descriptor is fetched, checked, copied and completed; fences count, are set, mirrored and read (derived:
R352, R353, R354, R355, R371). -/
def Obligations.UploadsAndFencesComplete : Prop :=
  (∀ (r : BitVec 13) (s : State), s.on → s.ringState r.toNat = 1 →
    let n := r.toNat
    (s.ringKind n = 2 → s.upload n = none → s.canRead = true → s.hostIdx n ≠ s.devIdx n → s.pep.uploads.length < 4 →
      let a := s.entryAddr n (s.devIdx n)
      s.winOk (s.ringClass n) false a 64 = true →
      exec (.uploadDescriptorFetch r) s = .next ((s.setUpload n (some (Upload.fetching s.pep.nextTag))).hostRead (.descriptor r) a 64)) ∧
    (∀ (u : Upload) (d : Bytes), s.upload n = some u →
      (s.ringKind n = 2 → u.raw = some d → u.checked = false → exec (.uploadDescriptorFetch r) s =
        .next (if s.uploadOk n d then s.setUpload n (some (Upload.ofBytes d)) else s.ringFault n 6)) ∧
      (s.canRead = true → u.checked = true → u.finished = false → u.op = 0 →
        u.tag = none →
        exec (.copyIn r) s = .next (if s.winOk (s.copyClass n) false u.hostAddr u.length
          then (s.setUpload n (some { u with tag := some s.pep.nextTag })).hostRead (.copyIn r) u.hostAddr u.length
          else (s.winFail (s.copyClass n) false false n).ringFault n 3)) ∧
      (s.canIssue = true → u.checked = true → u.finished = false → u.op = 1 →
        s.winOk (s.copyClass n) true u.hostAddr u.length = true → s.poisoned u.devAddr u.length = false →
        exec (.copyOut r) s = .next (((s.readBeats U.pep u.devAddr u.length).hostWrite u.hostAddr
          (s.readMemZ u.devAddr u.length)).setUpload n (some { u with finished := true }))) ∧
      (u.checked = true → u.op = 2 → exec (.fenceOnly r) s = .next (s.setUpload n (some { u with finished := true }))) ∧
      (s.wf = true → u.finished = true → ∃ t, exec (.uploadComplete r) s = .next t ∧ t.devIdx n = s.devIdx n + 1 ∧
        t.upload n = none ∧ (s.rbit (Reg.RING.CFG n) 23 = false →
          (u.fence = none → t.pep.fences = s.pep.fences) ∧
          (∀ f, u.fence = some f → s.fenceEn f.toNat = true → t.fenceVal f.toNat = s.fenceVal f.toNat + 1))))) ∧
  (∀ (f : BitVec 13) (v : Word) (s : State), s.wf = true → s.bus →
    let n := f.toNat
    (s.fenceEn n = true → ∃ u, exec (.fenceInc f v) s = .next u ∧ u.fenceVal n = s.fenceVal n + BitVec.ofNat 64 v.toNat ∧
      ∀ m, m ≠ n → u.fenceVal m = s.fenceVal m) ∧
    (s.fenceEn n = false → exec (.fenceInc f v) s = .next s ∧
      exec (.fenceSet f v) s = .next (s.setFence n (BitVec.ofNat 64 ((s.reg (Reg.FENCE.SET_HI n)).toNat * 2 ^ 32 + v.toNat)))) ∧
    (s.fenceEn n = true → exec (.fenceSet f v) s = .next s) ∧
    (s.fenceOwed n = false → exec (.fenceMirrorWrite f) s = .next s) ∧
    (s.fenceOwed n = true →
      (s.hostState ≠ 0 → exec (.fenceMirrorWrite f) s = .next ((s.setFenceOwed n false).incS Reg.PEP.OUT_DROP_CNT)) ∧
      (let a := fld (s.reg (Reg.FENCE.MIRROR_LO n)) 31 3 * 8 + 2 ^ 32 * (s.reg (Reg.FENCE.MIRROR_HI n)).toNat
       s.canIssue = true → s.winOk (if s.fenceSecure n then 0 else 1) true a 8 = true →
        ∃ u before, exec (.fenceMirrorWrite f) s = .next u ∧
          u.out = s.out ++ before ++ [.hostWrite a (leBytes 8 (s.fenceVal n).toNat) false] ∧ u.fenceOwed n = false ∧
          (s.pep.idxOwed = [] → before = []) ∧
          ∀ r ∈ s.liveRings, s.ringState r = 1 → s.idxOwed r = true → s.ringKind r = 2 → u.idxOwed r = false)) ∧
    exec (.valueLoRead f) s = .next ((s.setNum (Reg.FENCE.VALUE_HI n) ((s.fenceVal n).toNat / 2 ^ 32)).answer
      (BitVec.ofNat 32 (s.fenceVal n).toNat)))

/-- The boot ROM boots the first image whose checks pass; SEAL checks Table 14.4 and takes effect; the follow-on makes
READY (derived: R366, R367, R368, R370, R375). -/
def Obligations.BootImagesAndSeal : Prop :=
  (∀ (ok : Bool) (s : State), s.wf = true → s.on → s.stage = 0 → s.power.straps = 0 →
    let slot := s.stw.trySlot
    let im := s.flashImage slot
    let c := if ok then s.imageCheck im.1 im.2 none else 1
    ∃ u, exec (.bootImageCheckDone ok) s = .next u ∧
      (c = 0 → u.stage = 3 ∧ u.stw.image = some ⟨BitVec.ofNat 8 (imgSvn im.1), slot⟩ ∧
        u.reg Reg.STW.ENTRY = BitVec.ofNat 32 (imgEntry im.1)) ∧
      (c ≠ 0 → u.rfld Reg.STW.BOOT_STATUS 15 8 = c ∧ u.rbit (pgErr U.stw) 10 = true ∧ u.stw.image = s.stw.image ∧
        (slot = 0 → u.stage = 0 ∧ u.stw.trySlot = 1) ∧ (slot ≠ 0 → u.stage = 1))) ∧
  (∀ (ok : Bool) (n : Nat) (s : State), s.wf = true → s.on → s.stage = 2 → s.stw.hostTry = some n →
    let h := s.readMem 0 512
    (List.range 16).all s.memReady = true → s.poisoned 0 (Nat.max 512 (min (imgSize h) 1572864)) = false →
    let c := s.imageCheck h (s.readMem 0 (min (imgSize h) 1572864)) (some n)
    ∃ u, exec (.bootImageCheckDone ok) s = .next u ∧ (c = 0 → u.stage = 3 ∧ u.stw.image = some ⟨BitVec.ofNat 8 (imgSvn h), 2⟩) ∧
      (c ≠ 0 → u.stage = 15 ∧ u.stw.hostFailed = true ∧ u.rfld Reg.STW.BOOT_STATUS 15 8 = c)) ∧
  (∀ (ok : Bool) (s : State), s.on → s.stage = 2 → (List.range 16).all s.memReady = false →
    exec (.bootImageCheckDone ok) s = .next s) ∧
  (∀ (v : Word) (s : State), s.bus → s.stage = 1 ∨ (s.stage = 15 ∧ s.stw.hostFailed = true) →
    let t : State := { s with stw := { s.stw with hostTry := some (fld v 20 0) } }
    exec (.hostBoot v) s = .next ((t.setFld Reg.STW.BOOT_STATUS 27 26 2).setFld Reg.STW.BOOT_STATUS 31 28 2)) ∧
  (∀ (v : Word) (s : State), s.bus →
    (s.isSealed = true → exec (.seal v) s = .next (s.access U.sec)) ∧
    (s.isSealed = false → s.stw.sealing = false → tst v 0 = true →
      (s.sealCheck v = 0 → exec (.seal v) s = .next { s with stw := { s.stw with sealing := true } }) ∧
      (s.sealCheck v ≠ 0 → exec (.seal v) s = .next ((s.setFld Reg.SEC.SEAL_STATUS 7 0 (s.sealCheck v)).raise U.sec 9)))) ∧
  (∀ s : State, s.wf = true → s.on → s.stw.sealing = true → s.queuesEmpty = true →
    ∃ u, exec .sealComplete s = .next u ∧ u.isSealed = true ∧ u.stage = 4 ∧ u.stw.sealing = false ∧
      u.dram.seed = BitVec.ofNat 64 (s.reg64 Reg.SEC.SEED_LO Reg.SEC.SEED_HI) ∧ u.dram.na = 16 - s.spares) ∧
  (∀ s : State, s.on → s.stw.sealing = true → s.queuesEmpty = false → exec .sealComplete s = .next s) ∧
  (∀ s : State, s.wf = true → s.on → s.stw.followOn = true → s.stw.asleep = false → s.stw.image.isSome = true →
    let due := s.stw.fwLog ++ [s.reg Reg.DEVCTL.RESET_CAUSE]
    ∃ u, exec .bootFollowOn s = .next u ∧ u.stage = 5 ∧ u.stw.followOn = false ∧
      u.stw.fwLog = (if s.spillRing.isSome then due.tail else due) ∧
      ∀ t, t ∈ s.savedRepairs → s.has (U.tile t) = true → s.runState (U.tile t) ≠ 4 → u.flagged t = true)

/-- The steward domain sleeps unless a wake event is pending, wakes on one, and resets alone on watchdog, lockstep or
request (derived: R373, R374, R375, R381). The model's choices it rests on: logs 30, 169. -/
def Obligations.StewardDomainSleepsAndResets : Prop :=
  (∀ s : State, s.on → s.stw.asleep = false → s.stw.image.isSome = true →
    (s.rfld Reg.STW.WAKE_STATUS 4 0 = 0 → exec .stewardSleep s = .next { s with stw := { s.stw with asleep := true } }) ∧
    (s.rfld Reg.STW.WAKE_STATUS 4 0 ≠ 0 → exec .stewardSleep s =
      let t := ((s.clrBit Reg.STW.WAKE_STATUS 1).clrBit Reg.STW.WAKE_STATUS 3).clrBit Reg.STW.WAKE_STATUS 4
      .next (if s.mbxWaiting then t else t.clrBit Reg.STW.WAKE_STATUS 0))) ∧
  (∀ s : State, s.on → s.stw.asleep = true → s.rfld Reg.STW.WAKE_STATUS 4 0 ≠ 0 →
    let t : State := { s with stw := { s.stw with asleep := false } }
    exec .stewardWake s = .next (t.incW Reg.STW.WAKE_CNT)) ∧
  (∀ s : State, s.on → exec .wakeTimer s = .next (s.setBit Reg.STW.WAKE_STATUS 4)) ∧
  (∀ s : State, s.on → s.stw.asleep = false → s.rbit Reg.STW.WDT_CFG 31 = true →
    exec .watchdogExpiry s = .next
      ((((s.incHi Reg.STW.STW_RESET_CNT).setBit Reg.DEVCTL.RESET_CAUSE 2).raise U.stw 9).stewardDomainReset)) ∧
  (∀ s : State, s.on → exec .stewardLockstep s = .next (((s.setFld Reg.STW.STW_RESET_CNT 15 0
    (min 0xFFFF (s.rfld Reg.STW.STW_RESET_CNT 15 0 + 1))).raise U.stw 8).stewardDomainReset)) ∧
  (∀ s : State, s.wf = true →
    let clean (u : State) : Prop :=
      (∀ a, u.stw.sram.get sram0 a = if a < s.rfld Reg.STW.CODE_LIMIT 20 12 * 4096 then s.stw.sram.get sram0 a else 0) ∧
      u.stw.asleep = false ∧ u.stw.followOn = true ∧ u.stw.flash = s.stw.flash ∧ u.stw.svn = s.stw.svn ∧
      u.dram.cells = s.dram.cells ∧ u.dram.poison = s.dram.poison ∧ u.tiles = s.tiles ∧ u.clock = s.clock ∧
      ∀ n, n < 32 → u.mbxState n = if s.mbxState n = 2 then 4 else s.mbxState n
    clean s.stewardDomainReset ∧
    (s.bus → ∃ u, exec .stewardReset s = .next u ∧ clean u ∧ u.runState U.stw = 0))

/-- A mailbox is locked, unlocked and lapses; a request goes IDLE, PENDING, BUSY, DONE and back to IDLE (derived:
R376, R377, R378, R379). -/
def Obligations.MailboxesCarryRequests : Prop :=
  ∀ (src : Stamp) (b : BitVec 5) (s : State), s.bus →
    let n := b.toNat
    let m := s.mbxOf n
    (m.owner = 0 → exec (.mbxLockRead src b) s = .next
      ((s.setMbx n { m with owner := src, lastWrite := s.clock.time.toNat }).answer 0)) ∧
    (m.owner ≠ 0 → m.owner = src → exec (.mbxLockRead src b) s = .next (s.answer 0)) ∧
    (m.owner ≠ 0 → m.owner ≠ src → exec (.mbxLockRead src b) s = .next (s.answer (m.owner.setWidth 32))) ∧
    (∀ v : Word, tst v 0 = true →
      (m.owner ≠ 0 → m.owner = src → exec (.mbxUnlock src b v) s = .next (s.setMbx n { m with owner := 0 })) ∧
      (m.owner ≠ src → exec (.mbxUnlock src b v) s = .next (s.raise (U.mbx n) 4))) ∧
    (∀ v : Word, tst v 0 = false → exec (.mbxUnlock src b v) s = .next (s.mbxTouch n src)) ∧
    (m.owner ≠ 0 → s.mbxState n ≠ 1 → s.mbxState n ≠ 2 → s.calmFor (fun s => s.toTime (m.lastWrite + 10 ^ 9)) →
      exec (.mbxLockLapse b) s = .next ((s.toTime (m.lastWrite + 10 ^ 9)).setMbx n { m with owner := 0 })) ∧
    (s.wf = true → s.isSealed = true → s.mbxBarred n src = false → s.mbxState n = 0 →
      ∃ u, exec (.mbxSend src b) s = .next u ∧ u.mbxState n = 1 ∧ u.reg (Reg.MBX.REQ_STAMP n) = BitVec.ofNat 32 src.toNat ∧
        u.rbit (Reg.MBX.STATUS n) 3 = s.mbxSecure n src ∧ u.rbit Reg.STW.WAKE_STATUS 0 = true) ∧
    (s.isSealed = false ∨ s.mbxBarred n src = true ∨ s.mbxState n ≠ 0 →
      exec (.mbxSend src b) s = .next ((s.mbxTouch n src).raise (U.mbx n) 4)) ∧
    (s.wf = true → s.mbxState n = 1 → s.stw.asleep = false →
      ∃ u, exec (.mbxTake b) s = .next u ∧ u.mbxState n = 2 ∧ (u.mbxOf n).result = none) ∧
    (∀ r, s.wf = true → s.mbxState n = 2 → s.stw.asleep = false →
      (knownCmd (s.reqCmd n) = true ∧ m.result = some r) ∨ (knownCmd (s.reqCmd n) = false ∧ r = (if s.rbit (Reg.MBX.STATUS n) 3 then 1 else 2, [])) →
      ∃ u, exec (.mbxReply b) s = .next u ∧ u.mbxState n = 3 ∧ u.rbit Reg.PEP.ATTN_STATUS 2 = true ∧
        u.reg (Reg.MBX.REPLY n 0) = BitVec.ofNat 32 (r.1 * 2 ^ 16 + (r.2.length + 4))) ∧
    (s.mbxBarred n src = false → 3 ≤ s.mbxState n →
      exec (.mbxAck src b) s = .next ((s.mbxTouch n src).setFld (Reg.MBX.STATUS n) 3 0 0)) ∧
    (s.mbxBarred n src = true → exec (.mbxAck src b) s = .next (s.raise (U.mbx n) 4) ∧
      ∀ i, i < 64 → s.readAs src (Reg.MBX.REQ n i) = 0 ∧ s.readAs src (Reg.MBX.REPLY n i) = 0)

/-- Firmware serves the BUSY request of a mailbox with the effect and reply of Tables 14.6 and 15.8, or DENIED
(derived: R376, R379, R403). The model's choices it rests on: log 32. -/
def Obligations.StewardCommandsAreServed : Prop :=
  ∀ (b : BitVec 5) (s : State), s.on → s.mbxState b.toNat = 2 → (s.mbxOf b.toNat).result = none → s.stw.asleep = false →
    let n := b.toNat
    let reply (t : State) (code : Nat) (d : Bytes) : Host.Outcome State Fault Refusal :=
      .next (t.setMbx n { t.mbxOf n with result := some (code, d) })
    (∀ e ∈ [(Instr.repairSave b, 0x10), (.repairClear b, 0x11), (.flashWrite b, 0x20), (.svnCommit b, 0x21), (.dumpInfo b, 0x30),
        (.dumpRearm b, 0x31), (.dumpNow b, 0x32)],
      s.reqCmd n = e.2 → s.rbit (Reg.MBX.STATUS n) 3 = false → exec e.1 s = reply s 2 []) ∧
    (fld (s.req n 0) 15 0 ≤ 256 →
      (s.reqCmd n = 1 → exec (.ping b) s = reply s 0 (wordsBytes ((List.range 63).map fun i => s.req n (i + 1)))) ∧
      (s.reqCmd n = 2 → exec (.status b) s = reply s 0 (wordsBytes [s.reg Reg.STW.BOOT_STATUS, s.reg Reg.STW.FW_VER,
        s.reg Reg.DEVCTL.RESET_CAUSE, s.stw.svn.setWidth 32, (match s.stw.image with | some i => i.svn.setWidth 32 | none => 0)])) ∧
      (s.rbit (Reg.MBX.STATUS n) 3 = true →
        (s.reqCmd n = 0x10 → exec (.repairSave b) s = reply (s.flashStore repairList
          (s.stw.retired.map (BitVec.ofNat 8) ++ List.replicate (4096 - s.stw.retired.length) 0xFF)) 0 []) ∧
        (s.reqCmd n = 0x11 → exec (.repairClear b) s = reply (s.flashStore repairList (List.replicate 4096 0xFF)) 0 []) ∧
        (s.reqCmd n = 0x20 →
          let a := (s.req n 1).toNat + 2 ^ 32 * (s.req n 2).toNat
          let len := (s.req n 3).toNat
          let img := s.readMem a (min len 1572864)
          let v := s.readBeats U.stw a (min len 1572864)
          let good := a + len ≤ s.usable ∧ s.poisoned a (min len 1572864) = false ∧
            s.imageCheck (s.readMem a 512) img (some len) = 0
          (good → ∀ i, s.stw.image = some i →
            exec (.flashWrite b) s = reply (v.flashStore (flashSlot (if i.slot = 0 then 1 else 0)) img) 0 []) ∧
          (¬good → exec (.flashWrite b) s = reply v 4 [])) ∧
        (∀ i, s.reqCmd n = 0x21 → s.stw.image = some i → exec (.svnCommit b) s =
          if s.stw.svn.toNat < i.svn.toNat then reply { s with stw := { s.stw with svn := i.svn } } 0 [] else reply s 0 []) ∧
        (s.reqCmd n = 0x30 → exec (.dumpInfo b) s = reply
          (match s.erc.dump with | some d => s.mediumBeats U.stw d 0 64 | none => s) 0 (leBytes 4 (s.reg Reg.ERC.DUMP_STATUS).toNat ++
          (match s.erc.dump with | some d => s.mediumRd d 0 64 | none => List.replicate 64 0))) ∧
        (s.reqCmd n = 0x31 → exec (.dumpRearm b) s = reply s.dumpRearm (if s.dumpState < 2 then 4 else 0) []) ∧
        (s.reqCmd n = 0x32 → s.dumpState ≠ 0 → exec (.dumpNow b) s = reply s 4 []) ∧
        (s.reqCmd n = 0x32 → s.dumpState = 0 →
          let t := s.setFld Reg.ERC.DUMP_STATUS 2 0 1
          exec (.dumpNow b) s = reply { t with erc := { t.erc with dump := some ⟨false, [], false, [], 0, s.clock.time.toNat, true⟩ } } 0 [])))

/-- ERC_REPORT logs the next report, FATAL_ERROR records the first fatal error, and the log and table are freed by
command (derived: R387, R389, R390, R391, R392, R393, R396, R464). The model's choices it rests on: log 169. -/
def Obligations.ErrorCollectorTakesReports : Prop :=
  (∀ (r : Report) (s : State), s.wf = true → s.on → s.nextReport = some r → s.erc.reset = false → r.unit.ok = true → r.cls ≤ 3 →
    ∃ u, exec .ercReport s = .next u ∧ u.rbit Reg.ERC.CLASS_SUM r.cls = true ∧
      (s.logRoom r.cls = true → u.reg Reg.ERC.LOG_TAIL = s.reg Reg.ERC.LOG_TAIL + 1 ∧ ∀ j, j < 8 →
        u.reg (Reg.ERC.LOG ((s.reg Reg.ERC.LOG_TAIL).toNat % 1024) j) =
          BitVec.ofNat 32 ((logWords r (s.reg Reg.ERC.LOG_TAIL)).getD j 0)) ∧
      (s.logRoom r.cls = false → u.reg Reg.ERC.LOG_TAIL = s.reg Reg.ERC.LOG_TAIL ∧
        u.reg Reg.ERC.OVERFLOW_CNT = addSat (s.reg Reg.ERC.OVERFLOW_CNT) 1)) ∧
  (∀ (f : FatalNote) (rest : List FatalNote) (s : State), s.wf = true → s.on → s.erc.fatalPend = f :: rest →
    let t : State := { s with erc := { s.erc with fatalPend := rest, fatalCount := s.erc.fatalCount + 1 } }
    (s.rbit Reg.ERC.FATAL_STATUS 31 = true → exec .fatalError s = .next t) ∧
    (s.rbit Reg.ERC.FATAL_STATUS 31 = false → ∃ u, exec .fatalError s = .next u ∧ u.erc.fatalPend = rest ∧
      u.erc.fatalCount = s.erc.fatalCount + 1 ∧ u.erc.dump = some ⟨false, [], false, [], 0, f.time.toNat, false⟩ ∧
      u.rfld Reg.ERC.DUMP_STATUS 2 0 = 1 ∧ u.rbit Reg.STW.WAKE_STATUS 2 = true ∧ u.reg Reg.ERC.FATAL_SEQ = f.seq ∧
      u.reg Reg.ERC.FATAL_STATUS = BitVec.ofNat 32 (2 ^ 31 + b2n f.logged * 2 ^ 30 + f.unit.blk.code * 2 ^ 16 +
        f.unit.idx % 256 * 256 + f.bit % 32))) ∧
  (∀ (v : Word) (s : State), s.bus →
    let ok := s.rbit Reg.ERC.CTRL 30 = false ∧ (v - s.reg Reg.ERC.LOG_HEAD).toNat ≤ s.logHeld
    (ok → exec (.logHeadWrite v) s = .next (s.setReg Reg.ERC.LOG_HEAD v)) ∧
    (¬ok → exec (.logHeadWrite v) s = .next (s.raise U.erc 4))) ∧
  (∀ (r : Nat) (s : State), s.on → s.spillRing = some r → 0 < s.logHeld →
    let head := s.reg Reg.ERC.LOG_HEAD
    let t := s.publish r (s.logBytes (head.toNat % 1024) ++ List.replicate 32 0) 1
    exec .logSpill s = .next (if t.ringState r = 1 then t.setReg Reg.ERC.LOG_HEAD (head + 1) else t)) ∧
  (∀ (r : Nat) (cause : Word) (rest : List Word) (s : State), s.on → s.spillRing = some r → s.logHeld = 0 →
    s.stw.asleep = false → s.stw.fwLog = cause :: rest →
    let t : State := { s with stw := { s.stw with fwLog := rest } }
    exec .logSpill s = .next (t.publish r (List.replicate 32 0 ++ [2, 0, 0, 0] ++
      leBytes 28 (Config.firmwareMsg (s.reg Reg.STW.FW_VER) cause).toNat) 1)) ∧
  (∀ s : State, s.wf = true → s.bus → ∃ u, exec .coalClear s = .next u ∧ u.reg Reg.ERC.COAL_USED = 0 ∧
    ∀ i j, i < 256 → j < 8 → u.reg (Reg.ERC.COAL i j) = 0)

/-- DUMP_WRITE writes the dump to its medium, DUMP_COMPLETE and DUMP_TIMEOUT end it, DUMP_CTRL_REARM rearms, the
window reads it (derived: R397, R398, R401, R402, R403). The model's choices it rests on: logs 37, 170. -/
def Obligations.DumpIsWrittenAndRead : Prop :=
  (∀ (d : DumpRun) (s : State), s.wf = true → s.on → s.erc.dump = some d → s.dumpState = 1 →
    let v := match s.ple.plan with | some p => s.readBeats U.stw p.base p.imageSize | none => s
    (s.fwRuns = true → d.written = false → ∃ u run, exec .dumpWrite s = .next u ∧ u.erc.dump = some run ∧
      run.written = true ∧ run.fallback = !s.dumpToDram ∧ u.rfld Reg.ERC.DUMP_STATUS 2 2 = b2n (!s.dumpToDram) ∧
      run.table = sectionTable 4096 (s.dumpSections (!s.dumpToDram)) ∧
      (s.dumpToDram = true → u.tiles = s.tiles ∧ u.dram = (v.writeMem U.stw s.dumpBase (pad4k (s.dumpHeader run 1) ++
        (s.dumpSections false).flatMap fun e => pad4k e.2)).dram) ∧
      (s.dumpToDram = false → u.dram = s.dram)) ∧
    (s.fwRuns = true → d.written = true → d.fallback = true ∨ s.dumpToDram = true →
      ∃ u, exec .dumpComplete s = .next u ∧ u.dumpState = 2 ∧ u.rbit Reg.PEP.ATTN_STATUS 5 = true ∧
        u.rbit Reg.STW.WAKE_STATUS 2 = false) ∧
    (d.now = false → s.calmFor (fun s => s.toTime (d.began + 10 ^ 9)) → d.began + 10 ^ 9 ≤ (s.toTime (d.began + 10 ^ 9)).clock.time.toNat →
      ∃ u, exec .dumpTimeout s = .next u ∧ u.dumpState = 3 ∧ u.rbit Reg.PEP.ATTN_STATUS 5 = true)) ∧
  (∀ s : State, s.bus →
    (s.wf = true → 2 ≤ s.dumpState → ∃ u, exec .dumpCtrlRearm s = .next u ∧ u.dumpState = 0 ∧ u.erc.dump = none ∧ u.rbit Reg.ERC.DUMP_CTRL 0 = true ∧
      u.reg Reg.ERC.FATAL_STATUS = 0 ∧ u.reg Reg.ERC.FATAL_SEQ = 0 ∧ u.reg Reg.ERC.FATAL_TIME_LO = 0) ∧
    (s.dumpState < 2 → exec .dumpCtrlRearm s = .next (s.raise U.erc 4))) ∧
  (∀ (off : BitVec 26) (s : State), s.bus →
    (s.erc.dump = none → exec (.dumpWindowRead off) s = .next (s.answer 0)) ∧
    (∀ d, s.erc.dump = some d → d.total ≠ 0 →
      let o := off.toNat / 4 * 4
      let o := if d.fallback then o else s.rfld Reg.ERC.DUMP_WIN 1 0 * 2 ^ 26 + o
      exec (.dumpWindowRead off) s = .next ((s.mediumBeats U.pep d o 4).answer (BitVec.ofNat 32 (leNat (s.mediumRd d o 4))))))

/-- Edges count by who leads; forward counts of CH0 pay the backlog and then credit K0's millimetres, reverse counts
build it (stated: R408, R409). -/
def Obligations.WheelCountsMoveDistance : Prop :=
  (∀ old new : BitVec 2, (quadStep old new = some 1 ↔ (old.toNat, new.toNat) ∈ [(0, 2), (2, 3), (3, 1), (1, 0)]) ∧
    (quadStep old new = some (-1) ↔ (new.toNat, old.toNat) ∈ [(0, 2), (2, 3), (3, 1), (1, 0)]) ∧
    (quadStep old new = none ↔ (old ^^^ new) = 3)) ∧
  ∀ (ch1 a b : Bool) (s : State), s.meter.stopped = false → 0 < s.meter.params.k0 →
    let m := s.meter
    let new : BitVec 2 := BitVec.ofNat 2 (2 * a.toNat + b.toNat)
    let old := if ch1 then m.ch1.ab else m.ch0.ab
    ∃ u : Meter, exec (.quadratureCount ch1 a b) s = .next { s with meter := u } ∧
      (if ch1 then u.ch1.ab else u.ch0.ab) = new ∧
      (quadStep old new = none →
        u = if ch1 then { m with ch1 := { m.ch1 with ab := new, seqErr := m.ch1.seqErr + 1 } }
            else { m with ch0 := { m.ch0 with ab := new, seqErr := m.ch0.seqErr + 1 } }) ∧
      (quadStep old new = some 0 → u.distance = m.distance ∧ u.backlog = m.backlog ∧ u.residue = m.residue) ∧
      (ch1 = true → u.distance = m.distance ∧ u.backlog = m.backlog ∧ u.residue = m.residue) ∧
      (ch1 = false → quadStep old new = some (-1) →
        u.backlog = m.backlog + 1 ∧ u.distance = m.distance ∧ u.residue = m.residue) ∧
      (ch1 = false → quadStep old new = some 1 →
        (0 < m.backlog → u.backlog = m.backlog - 1 ∧ u.distance = m.distance ∧ u.residue = m.residue) ∧
        (m.backlog = 0 → u.backlog = 0 ∧ u.residue < m.params.k0 ∧
          ∃ mm, mm * m.params.k0 + u.residue = m.residue + 1000000 ∧ u.distance = m.distance + BitVec.ofNat 48 mm))

/-- SPEED_UPDATE sets SPEED and MOTION from the last 250 ms; a failed check on a count or a Z period holds MOTION at
FAULT (derived: R410, R411, R406). The model's choices it rests on: log 36. -/
def Obligations.SpeedAndFaultOfTheMeter : Prop :=
  (∀ s : State, s.meter.stopped = false → 0 < s.meter.params.k0 →
    let m := s.meter
    let last := (m.slice :: m.recent).take 250
    let n : Int := last.foldl (· + ·) 0
    exec .speedUpdate s = .next { s with meter := { m with
      recent := last, slice := 0, time := m.time + 1,
      speed := BitVec.ofNat 16 (min 65535 (400000 * n.natAbs / m.params.k0)),
      motion := if m.fault then 3 else if n = 0 then 0 else if 0 < n then 1 else 2 } }) ∧
  (∀ (ch1 : Bool) (s : State), s.meter.stopped = false →
    let m := s.meter
    let q := if ch1 then m.ch1 else m.ch0
    let ppr := if ch1 then m.params.ppr1 else m.params.ppr0
    ∃ u : Meter, exec (.zPeriod ch1) s = .next { s with meter := u } ∧
      (if ch1 then u.ch1 else u.ch0) = { q with
        zCount := 0, zSeen := true,
        zBad := if q.zSeen = false then q.zBad
                else if 4 * ppr ≤ q.zCount.natAbs + 2 ∧ q.zCount.natAbs ≤ 4 * ppr + 2 then 0 else q.zBad + 1 } ∧
      (u.crossBad = true ∨ (u.params.ppr0 ≠ 0 ∧ 3 ≤ u.ch0.zBad) ∨ (u.params.ppr1 ≠ 0 ∧ 3 ≤ u.ch1.zBad) →
        u.motion = 3 ∧ u.fault = true ∧ u.clean = 0) ∧
      (u.crossBad = false → u.zFault = false → u.fault = (m.fault && decide (m.clean < m.hundred)) ∧ u.motion = m.motion) ∧
      u.distance = m.distance ∧ u.time = m.time ∧ u.speed = m.speed ∧ u.sealCnt = m.sealCnt ∧ u.paramVer = m.paramVer) ∧
  (∀ (a b : Bool) (s : State), s.meter.stopped = false →
    let m := s.meter
    let new : BitVec 2 := BitVec.ofNat 2 (2 * a.toNat + b.toNat)
    quadStep m.ch0.ab new = some 1 ∨ quadStep m.ch0.ab new = some (-1) →
    ∃ u : Meter, exec (.quadratureCount false a b) s = .next { s with meter := u } ∧
      (u.crossBad = true ∨ u.zFault = true → u.motion = 3 ∧ u.fault = true) ∧
      (u.crossBad = false → u.zFault = false → u.fault = (m.fault && decide (m.clean + 1 < m.hundred)) ∧ u.motion = m.motion))

/-- The service UART is heard only with the seal open; what it loads takes effect at SEAL_CLOSE, which counts
PARAM_VER once (derived: R407, R412, R413, R414). -/
def Obligations.SealAndServiceUart : Prop :=
  ∀ s : State, s.meter.stopped = false →
    let m := s.meter
    let gives (u : Meter) : Host.Outcome State Fault Refusal := .next { s with meter := u }
    let runs (i : Option MeterImage) : Bool := i.any fun i => Config.ecdsaP256 s.fuses.meterKeyHash i.data
    (m.sealOpen = false → exec .sealOpen s = gives { m with sealOpen := true, sealCnt := m.sealCnt + 1 }) ∧
    (m.sealOpen = true → exec .sealOpen s = .next s) ∧
    (m.sealOpen = true → m.battery = false →
      (∀ p, paramsOk p = true → exec (.paramSet p) s = gives { m with newParams := some p }) ∧
      (∀ t, exec (.timeSet t) s = gives { m with time := t, timeValid := true }) ∧
      (∀ k, exec (.keyLoad k) s = gives { m with newKey := some k }) ∧
      (∀ i, exec (.firmwareLoad i) s = gives { m with newImage := some i })) ∧
    (m.sealOpen = false ∨ m.battery = true →
      (∀ p, exec (.paramSet p) s = .next s) ∧ (∀ t, exec (.timeSet t) s = .next s) ∧
      (∀ k, exec (.keyLoad k) s = .next s) ∧ (∀ i, exec (.firmwareLoad i) s = .next s)) ∧
    (m.sealOpen = false → exec .sealClose s = .next s) ∧
    (m.sealOpen = true →
      let u : Meter := { m with
        sealOpen := false, params := m.newParams.getD m.params, key := m.newKey.or m.key,
        newParams := none, newKey := none, newImage := none }
      (runs m.newImage = false → exec .sealClose s =
        gives { u with paramVer := if m.newParams.isSome ∨ m.newKey.isSome then m.paramVer + 1 else m.paramVer }) ∧
      (∀ i, m.newImage = some i → runs m.newImage = true → exec .sealClose s =
        gives { u with paramVer := m.paramVer + 1, prevImage := m.image, image := some i, running := true, fwVer := i.ver })) ∧
    (∀ i, m.image = some i → runs m.image = true → exec .meterBoot s = gives { m with running := true, fwVer := i.ver }) ∧
    (∀ i, runs m.image = false → m.prevImage = some i → runs m.prevImage = true →
      exec .meterBoot s = gives { m with image := some i, running := true, fwVer := i.ver }) ∧
    (runs m.image = false → runs m.prevImage = false → exec .meterBoot s = gives { m with running := false })

/-- The indicator frame, the TIME_ADJ it answers, battery operation, the stop and restart on loss of supply, and the
meter reset (derived: R407, R415, R416, R417, R418, R419). The model's choices it rests on: log 35. -/
def Obligations.MeterLinksPowerAndReset : Prop :=
  (∀ s : State, (s.meter.stopped = false ∧ s.meter.battery = false ∧ s.meter.running = true) →
    let m : Meter := { s.meter with frameCtr := s.meter.frameCtr + 1 }
    exec .indicatorFrame s = .next { s with meter := m, out := s.out ++ [.indicator m.indFrame] }) ∧
  (∀ s : State, s.meter.linked = false → exec .indicatorFrame s = .next s) ∧
  (∀ m : Meter, m.indFrame.length = 40 ∧
    m.indFrame.take 12 = leBytes 6 m.distance.toNat ++ leBytes 2 m.speed.toNat ++ leBytes 4 m.time.toNat ∧
    (m.key = none → (m.indFrame.drop 12).take 8 = List.replicate 8 0) ∧
    (∀ k, m.key = some k → ∀ i : Fin 8, m.indFrame[12 + i.val]? =
      some (Config.aesCmac k (leBytes 6 m.distance.toNat ++ leBytes 2 m.speed.toNat ++ leBytes 4 m.time.toNat) (Fin.ofNat 16 i.val)))) ∧
  (∀ (adj : Int) (ctr mac : Word) (s : State), s.meter.stopped = false →
    let m := s.meter
    let good := m.linked = true ∧ m.key.isSome = true ∧ -1000 ≤ adj ∧ adj ≤ 1000 ∧ leNat (m.adjCode adj ctr) = mac.toNat ∧
      ctr = m.frameCtr ∧ m.sealOpen = false ∧ ∀ t, m.lastAdj = some t → 86400000 ≤ (m.time - t).toNat
    let t := BitVec.ofInt 48 (m.time.toNat + adj)
    (good → exec (.timeAdj adj ctr mac) s = .next { s with meter := { m with time := t, lastAdj := some t } }) ∧
    (¬good → exec (.timeAdj adj ctr mac) s = .next s)) ∧
  (∀ s : State, s.meter.stopped = false →
    let m := s.meter
    exec .meterBatterySwitch s = .next { s with meter := { m with battery := true, latched := none } } ∧
    exec .meterPowerFail s = .next { s with meter := { m with
      stopped := true, timeValid := false, latched := none, recent := [], slice := 0 } } ∧
    exec .meterReset s = .next { s with meter := { m with
      recent := [], slice := 0, latched := none,
      ch0 := { m.ch0 with zCount := 0, zSeen := false }, ch1 := { m.ch1 with zCount := 0, zSeen := false } } }) ∧
  (∀ s : State, exec .vddMetReturn s = .next { s with meter := { s.meter with stopped := false, battery := false } }) ∧
  (∀ (c : Instr) (s : State), s.meter.stopped = true → c.ofMeter = true → c ≠ .vddMetReturn →
    ∃ t, exec c s = .next t ∧ t.meter = s.meter)

/-- The strobe latches the meter die, frames cross the bridge with a CRC, and MET keeps snapshots, misses, absence and
time (derived: R420, R421, R422, R423, R424). -/
def Obligations.BridgeFramesReachMet : Prop :=
  (∀ s : State, s.power.strobe = true →
    let m := s.meter
    exec .snapshotRequest s = .next { s with
      power := { s.power with strobe := false },
      meter := if m.linked then { m with latched := some (m.bridgeFrame 1) } else m }) ∧
  (∀ s : State, s.on → s.meter.linked = true →
    (∀ f, s.meter.latched = some f → exec .strobeFrameSend s = .next { s with
      meter := { s.meter with latched := none }, met := { s.met with line := s.met.line ++ [f] } }) ∧
    (s.meter.latched = none → exec .periodicFrameSend s =
      .next { s with met := { s.met with line := s.met.line ++ [s.meter.bridgeFrame 0] } })) ∧
  (∀ (m : Meter) (kind : Nat), (m.bridgeFrame kind).length = 36 ∧ bridgeOk (m.bridgeFrame kind) = true) ∧
  (∀ (noise f0 : Bytes) (rest : List Bytes) (s : State), s.wf = true → s.on → s.met.line = f0 :: rest →
    let f := (List.range f0.length).map fun i => f0.getD i 0 ^^^ noise.getD i 0
    ∃ u, exec (.bridgeFrameRx noise) s = .next u ∧ u.met.line = rest ∧ u.meter = s.meter ∧
      (bridgeOk f = false → u.reg Reg.MET.LINK_ERR_CNT = addSat (s.reg Reg.MET.LINK_ERR_CNT) 1 ∧
        u.rbit (pgErr U.met) 11 = true ∧ u.met = { s.met with line := rest }) ∧
      (bridgeOk f = true → u.reg Reg.MET.SNAP_CNT = addWrap (s.reg Reg.MET.SNAP_CNT) 1) ∧
      (bridgeOk f = true → leAt f 23 1 = 1 →
        (s.met.awaiting = none → u.met = { s.met with line := rest }) ∧
        (∀ e t, s.met.awaiting = some (e, t) → u.snapSlot (e.toNat % 4) = (f.take 20, e, true) ∧ u.met.awaiting = none ∧
          u.met.newest = s.met.newest)) ∧
      (bridgeOk f = true → leAt f 23 1 = 0 →
        u.met.newest = some (f, s.clock.time.toNat) ∧ u.rbit Reg.MET.STATUS 31 = true ∧
        u.rbit Reg.MET.STATUS 30 = (leAt f 22 1).testBit 2 ∧ u.rbit Reg.MET.STATUS 29 = (leAt f 22 1).testBit 3 ∧
        u.rfld Reg.MET.STATUS 25 24 = leAt f 22 1 % 4 ∧ (∀ w, w < 5 → u.snapWord 4 w = BitVec.ofNat 32 (wordAt f w)) ∧
        (∀ g t, s.met.newest = some (g, t) → leAt g 28 4 ≠ leAt f 28 4 ∨ leAt g 24 2 ≠ leAt f 24 2 →
          u.rbit (pgErr U.met) 9 = true) ∧
        (leAt f 22 1 % 4 = 3 → s.rfld Reg.MET.STATUS 25 24 ≠ 3 → u.rbit (pgErr U.met) 8 = true))) ∧
  (∀ (e : BitVec 40) (t : Nat) (s : State), s.wf = true → s.on → s.met.awaiting = some (e, t) →
    s.calmFor (fun s => s.toTime (t + 1000000)) → t + 1000000 ≤ (s.toTime (t + 1000000)).clock.time.toNat →
    ∃ u, exec .strobeMiss s = .next u ∧ u.met.awaiting = none ∧ u.snapSlot (e.toNat % 4) = ([], e, false) ∧
      u.reg Reg.MET.STROBE_MISS_CNT = addSat (s.reg Reg.MET.STROBE_MISS_CNT) 1) ∧
  (∀ s : State, s.wf = true → s.on → s.met.absent = false →
    s.calmFor (fun s => s.toTime (s.metSince + 10000000)) → s.metSince + 10000000 ≤ (s.toTime (s.metSince + 10000000)).clock.time.toNat →
    ∃ u, exec .meterAbsent s = .next u ∧ u.met.absent = true ∧ u.rbit Reg.MET.STATUS 31 = false ∧
      u.rbit (pgErr U.met) 10 = true) ∧
  (∀ (f : Bytes) (t : Nat) (s : State), s.wf = true → s.on → s.met.newest = some (f, t) → s.rbit Reg.MET.STATUS 31 = true →
    s.calm (eventKey s.clock.phase.toNat 0) → (s.clock.time.toNat % 1000000000 = 0 → s.met.cmpSec ≠ s.clock.time.toNat / 1000000000 →
      let now := s.clock.time.toNat
      let d : Int := (now / 1000000 : Nat) - (leAt f 8 4 + 2 ^ 32 * leAt f 20 2 + (now - t) / 1000000 : Nat)
      let bad := (s.reg Reg.MET.TIME_BOUND).toNat < d.natAbs ∨ (leAt f 22 1).testBit 2 = false
      ∃ u, exec .meterTimeCompare s = .next u ∧ u.met.cmpSec = now / 1000000000 ∧
        u.reg Reg.MET.TIME_DIFF = BitVec.ofInt 32 (max (-2147483648) (min 2147483647 d)) ∧
        (bad → u.met.diffFail = true ∧ u.rbit (pgErr U.met) 12 = true ∧ u.rbit Reg.STW.WAKE_STATUS 3 = true ∧
          u.reg Reg.MET.TIME_DIFF_CNT = addSat (s.reg Reg.MET.TIME_DIFF_CNT) 1) ∧
        (¬bad → u.met.diffFail = false ∧ u.reg Reg.MET.TIME_DIFF_CNT = s.reg Reg.MET.TIME_DIFF_CNT))) ∧
  (∀ (f : Bytes) (t : Nat) (s : State), s.wf = true → s.bus → s.met.newest = some (f, t) →
    ∃ u, exec .metStatusRead s = .next u ∧ u.rdata = u.reg Reg.MET.STATUS ∧ u.rfld Reg.MET.STATUS 15 0 = s.metAge ∧
      u.reg Reg.MET.DISTANCE_LO = BitVec.ofNat 32 (leAt f 0 4) ∧ u.reg Reg.MET.DISTANCE_HI = BitVec.ofNat 32 (leAt f 4 2) ∧
      u.reg Reg.MET.SPEED = BitVec.ofNat 32 (leAt f 6 2) ∧ u.reg Reg.MET.METER_TIME_LO = BitVec.ofNat 32 (leAt f 8 4) ∧
      u.reg Reg.MET.METER_TIME_HI = BitVec.ofNat 32 (leAt f 20 2) ∧ u.reg Reg.MET.SEAL_CNT = BitVec.ofNat 32 (leAt f 28 4)) ∧
  (∀ (i : Fin 5) (s : State), s.wf = true → s.bus →
    ∃ u, exec (.snapshotWord0Read i) s = .next u ∧ u.rdata = s.snapWord i 0 ∧ u.met = s.met ∧
      ∀ w : Fin 8, u.reg (Reg.MET.STROBE_SNAP i w) = s.snapWord i w)

/-- Heartbeats are sent once per epoch and checked; a claim falls due at a boundary and falls to a peer claim that
outranks it (stated: R432, R433). -/
def Obligations.PairHeartbeatsAndPrimacy : Prop :=
  (∀ s : State, s.on → s.rbit Reg.DEVCTL.PAIR_CFG 31 = true → s.ticking = true →
    (s.pair.sentEpoch = some s.clock.epoch → exec .heartbeatSend s = .next s) ∧
    (s.pair.sentEpoch ≠ some s.clock.epoch →
      let n := s.rfld Reg.DEVCTL.PAIR_CFG 27 24
      let v := s.reg Reg.DEVCTL.HB_VLAN
      let t := s.toPhase (s.rfld Reg.DEVCTL.HB_PHASE 23 0)
      let sent : State := { t with pair := { t.pair with sentEpoch := some t.clock.epoch } }
      s.calmFor (fun s => s.toPhase (s.rfld Reg.DEVCTL.HB_PHASE 23 0)) → t.reached (s.rfld Reg.DEVCTL.HB_PHASE 23 0) = true → t.running (U.nix n) = true → t.linkUp n = true →
        exec .heartbeatSend s = .next (sent.transmit n (buildEth
          (beBytes 2 (s.rfld Reg.DEVCTL.HB_MAC_HI 15 0) ++ beBytes 4 (s.reg Reg.DEVCTL.HB_MAC_LO).toNat) (s.portMac n)
          (if tst v 31 then some (fld v 30 28, fld v 11 0) else none) 0x88B5 t.heartbeat)))) ∧
  (∀ s : State, s.heartbeat.length = 32 ∧ s.heartbeat.take 3 = [0x42, 0x48, 1] ∧
    leAt s.heartbeat 4 2 = s.rfld Reg.DEVCTL.NODE 15 0 ∧ leAt s.heartbeat 8 4 = (s.reg Reg.DEVCTL.PRIMACY_TERM).toNat ∧
    leAt s.heartbeat 12 5 = s.clock.epoch.toNat ∧ leAt s.heartbeat 20 4 = (s.reg Reg.PLE.ACTIVE_PLAN_ID).toNat ∧
    leAt s.heartbeat 28 4 = crc32c (s.heartbeat.take 28)) ∧
  (∀ (b : Bytes) (rest : List Bytes) (s : State), s.wf = true → s.on → s.pair.inbox = b :: rest →
    ∃ u, exec .heartbeatRx s = .next u ∧ u.pair.inbox = rest ∧ u.reg Reg.DEVCTL.PRIMACY = s.reg Reg.DEVCTL.PRIMACY ∧
      (s.hbValid b = true → u.reg Reg.DEVCTL.PEER_TERM = BitVec.ofNat 32 (leAt b 8 4) ∧
        u.reg Reg.DEVCTL.HB_RX_CNT = addWrap (s.reg Reg.DEVCTL.HB_RX_CNT) 1 ∧
        u.rbit Reg.DEVCTL.PEER_STATUS 30 = (leAt b 3 1).testBit 0 ∧
        u.rbit Reg.DEVCTL.PEER_STATUS 29 = decide (leAt b 12 5 ≠ s.clock.epoch.toNat) ∧
        u.rbit Reg.DEVCTL.PEER_STATUS 28 = decide (leAt b 20 4 ≠ (s.reg Reg.PLE.ACTIVE_PLAN_ID).toNat) ∧
        (leAt b 12 5 ≠ s.clock.epoch.toNat → u.rbit (pgErr U.devctl) 9 = true)) ∧
      (s.hbValid b = false → u.reg Reg.DEVCTL.HB_BAD_CNT = addSat (s.reg Reg.DEVCTL.HB_BAD_CNT) 1 ∧
        u.rbit (pgErr U.devctl) 8 = true ∧ u.reg Reg.DEVCTL.PEER_TERM = s.reg Reg.DEVCTL.PEER_TERM)) ∧
  (∀ s : State, s.wf = true → s.on → s.pair.lostOwed = true →
    ∃ u, exec .peerLost s = .next u ∧ u.pair.lostOwed = false ∧ u.rbit Reg.DEVCTL.PEER_STATUS 31 = false ∧
      u.rbit (pgErr U.devctl) 10 = true) ∧
  (∀ (v : Word) (s : State), s.bus → s.live? U.devctl →
    let term := s.reg Reg.DEVCTL.PRIMACY_TERM_REQ
    let low := tst v 31 = true ∧ (term < s.reg Reg.DEVCTL.PRIMACY_TERM ∨ term < s.reg Reg.DEVCTL.PEER_TERM)
    (low → exec (.primacyReq v) s = .next (s.raise U.devctl 4)) ∧
    (¬low → ∃ u, exec (.primacyReq v) s = .next u ∧ u.pair.due = some ⟨tst v 31, term,
      s.clock.epoch + (if s.clock.phase ≤ 0xFC0000 then 1 else 2)⟩ ∧ u.pair.ended = s.pair.ended)) ∧
  (∀ s : State, s.wf = true → s.on → s.atBoundary = true → s.pair.updated ≠ some s.clock.epoch →
    ∃ u, exec .primacyUpdate s = .next u ∧ u.pair.updated = some s.clock.epoch ∧
      (let own : Bool × Word := match s.pair.due with
        | some d => if d.epoch ≤ s.clock.epoch then (d.claim, d.term) else (s.claim, s.reg Reg.DEVCTL.PRIMACY_TERM)
        | none => (s.claim, s.reg Reg.DEVCTL.PRIMACY_TERM)
      let beaten := ∃ t n, s.pair.ended = some (true, t, n) ∧ (own.2 < t ∨ (own.2 = t ∧ n.toNat < s.node))
      u.reg Reg.DEVCTL.PRIMACY_TERM = own.2 ∧
      (beaten → u.claim = false ∧ (own.1 = true → u.rbit (pgErr U.devctl) 11 = true)) ∧ (¬beaten → u.claim = own.1)))

/-- No command of the core die changes the meter die, and nothing of the core die but the strobe bears on what the
meter die does (stated: R8). -/
def Obligations.MeterDieStandsApart : Prop :=
  (∀ (c : Instr) (s t : State), c.ofMeter = false → exec c s = .next t → t.meter = s.meter) ∧
  (∀ (c : Instr) (s s' : State), c.ofMeter = true →
    s'.meter = s.meter → s'.power.strobe = s.power.strobe → s'.fuses.meterKeyHash = s.fuses.meterKeyHash →
    ∃ t t', exec c s = .next t ∧ exec c s' = .next t' ∧ t'.meter = t.meter ∧
      t = { s with meter := t.meter, power := { s.power with strobe := t.power.strobe },
                   met := { s.met with line := t.met.line }, out := t.out })

/-- Every well-formed command answers a next state; none is refused; each keeps the queue, the fuses and the fused
security version (derived: R4, R33, R379, 95_what_each_step_holds.md). -/
def Obligations.EveryCommandAnswers : Prop :=
  ∀ (c : Instr) (s : State),
    (c.wf = true → ∃ t, exec c s = .next t) ∧ (∀ r, exec c s ≠ .refused r) ∧
      ∀ t, exec c s = .next t → t.pending = s.pending ∧ t.fuses = s.fuses ∧ s.stw.svn ≤ t.stw.svn

/-- Every step keeps the registers, the memories and the state of every block in their canonical form (derived: R314,
R459, R10). -/
def Obligations.StepKeepsCanonicalForm : Prop :=
  ∀ s t : State, s.wf = true → step s = .next t → t.wf = true

/-- After reset every register reads the reset value of its table, nothing waits, and everything is in canonical form
(derived: R445, R16, R366, R424). The model's choices it rests on: log 3, 7. -/
def Obligations.ResetStateHolds : Prop :=
  State.reset.wf = true ∧ State.reset.pending = [] ∧ State.reset.out = [] ∧ State.reset.on ∧ State.reset.power.straps = 0 ∧
    State.reset.stage = 0 ∧ State.reset.dram.cells = [] ∧ State.reset.tiles = [] ∧ State.reset.stw.sram = [] ∧
    (∀ a, State.reset.reg a = resetOf a) ∧
    (∀ e ∈ [(pgErrEn U.tmu, (0x1E : Word)), (Reg.TMU.PERIOD_NS, 0x01FCA055), (Reg.LNS.SAT_THRESH 7, 65536), (Reg.TILE.SAT_THRESH 71, 4096),
        (Reg.DMC.RANK_MAP_LO 15, 0x76543210), (Reg.DMC.RANK_MAP_HI 0, 0xFEDCBA98), (Reg.MET.TIME_BOUND, 1000), (Reg.MET.STATUS, 0xFFFF)],
      State.reset.reg e.1 = e.2) ∧
    State.reset.rfld (Reg.DMC.BAL_CFG 9) 31 16 = 1000 ∧ State.reset.rfld Reg.DEVCTL.PAIR_CFG 23 16 = 3

/-- R311's controller, logical rank and rank-local granule of a device address, and that the mapping is a bijection
(stated: R311). -/
def Obligations.DeviceAddressesMapOneToOne : Prop :=
  (∀ (seed : BitVec 64) (na : Nat), 0 < na → na ≤ 16 →
    let bits (x : Nat) := (List.range 64).filter fun i => x.testBit i
    let key (k : Nat) := (seed.rotateRight (k % 64)).toNat % 16
    (∀ g, g < 16 * na * 1966080 →
      let L := g / 16
      let x := mapGranule seed na g
      x.ctl = (bits L).foldl (fun c i => c ^^^ key (5 * i))
        ((g % 16) ^^^ (List.range 16).foldl (fun c k => c ^^^ (L / 16 ^ k % 16)) 0) ∧
      x.r = L / na ∧ x.q = (L % na + (bits x.r).foldl (fun o i => o + key (5 * i + 32)) 0) % na) ∧
    (∀ c q r, c < 16 → q < na → r < 1966080 →
      ∃ g, g < 16 * na * 1966080 ∧ mapGranule seed na g = ⟨c, q, r⟩ ∧
        ∀ h, h < 16 * na * 1966080 → mapGranule seed na h = ⟨c, q, r⟩ → h = g)) ∧
  (∀ (c q : Nat) (s : State), q < 16 →
    s.rankMap c q = s.reg64 (Reg.DMC.RANK_MAP_LO c) (Reg.DMC.RANK_MAP_HI c) / 16 ^ q % 16) ∧
  (∀ (a : Nat) (s : State), s.spot a = mapGranule s.dram.seed s.dram.na (a / 256))

/-- DRAM, the tile stores and the steward's flash and SRAM change only by the commands that write them (derived: R314,
R241, R379, 95_what_each_step_holds.md). -/
def Obligations.MemoriesChangeOnlyByTheirWriters : Prop :=
  ∀ (c : Instr) (s t : State), exec c s = .next t →
    (c.mayWriteDram = false → t.dram.cells = s.dram.cells ∧ t.dram.poison = s.dram.poison) ∧
    (c.mayWriteStore = false → ∀ n, (t.tileOf n).store = (s.tileOf n).store) ∧
    (c.mayWriteSteward = false → t.stw.flash = s.stw.flash ∧ t.stw.sram = s.stw.sram)
end

