-- ==== Sys2Proof/Laws/SMap.lean ====
section
/-!
SUPPORT. Sparse maps: what a read gives after a write, and that every write keeps the canonical form.
-/
namespace Sys2Proof.Machine

variable {α : Type}

/-! ### The canonical form, unfolded once -/

theorem SMap.above_mono {b c : Nat} {m : SMap α} (h : b ≤ c) (hm : SMap.above c m = true) : SMap.above b m = true := by
  induction m with
  | nil => rfl
  | cons e m ih =>
    simp only [SMap.above, Bool.and_eq_true, decide_eq_true_eq] at hm ⊢
    exact ⟨Nat.lt_of_le_of_lt h hm.1, hm.2⟩

theorem SMap.rising_of_above {b : Nat} {m : SMap α} (h : SMap.above b m = true) : SMap.rising m = true := by
  cases m with
  | nil => rfl
  | cons e m =>
    simp only [SMap.above, Bool.and_eq_true] at h
    exact h.2

theorem SMap.rising_tail {e : Nat × α} {m : SMap α} (h : SMap.rising (e :: m) = true) : SMap.rising m = true :=
  SMap.rising_of_above h

/-- Below every listed key, a map reads as unlisted. -/
theorem SMap.get_of_above {d : Nat → α} {b k : Nat} {m : SMap α} (hm : SMap.above b m = true) (hk : k ≤ b) :
    SMap.get d m k = d k := by
  cases m with
  | nil => rfl
  | cons e m =>
    simp only [SMap.above, Bool.and_eq_true, decide_eq_true_eq] at hm
    have h1 : k ≠ e.1 := by omega
    have h2 : k < e.1 := by omega
    simp [SMap.get, h1, h2]

/-! ### Reading after a write -/

theorem SMap.get_insert (d : Nat → α) (m : SMap α) (k j : Nat) (v : α) :
    SMap.get d (SMap.insert m k v) j = if j = k then v else SMap.get d m j := by
  induction m with
  | nil => simp only [SMap.insert, SMap.get]; split <;> simp_all
  | cons e m ih =>
    simp only [SMap.insert]
    split
    · rename_i h; subst h
      simp only [SMap.get]; split <;> rfl
    · split
      · rename_i h1 h2
        simp only [SMap.get]
        split
        · rfl
        · split
          · rename_i h3 h4
            have : j ≠ e.1 := by omega
            have : j < e.1 := by omega
            simp [*]
          · rfl
      · rename_i h1 h2
        simp only [SMap.get, ih]
        split
        · rename_i h3
          have : j ≠ k := by omega
          simp [this]
        · split
          · rename_i h3 h4
            have : j ≠ k := by omega
            simp [this]
          · rfl

theorem SMap.get_erase (d : Nat → α) {m : SMap α} (hm : SMap.rising m = true) (k j : Nat) :
    SMap.get d (SMap.erase m k) j = if j = k then d k else SMap.get d m j := by
  induction m with
  | nil => simp only [SMap.erase, SMap.get]; split <;> simp_all
  | cons e m ih =>
    have hab : SMap.above e.1 m = true := hm
    simp only [SMap.erase]
    split
    · rename_i h; subst h
      simp only [SMap.get]
      split
      · rename_i h; subst h; exact SMap.get_of_above hab (Nat.le_refl _)
      · split
        · exact SMap.get_of_above hab (by omega)
        · rfl
    · split
      · rename_i h1 h2
        simp only [SMap.get]
        by_cases h3 : j = e.1
        · have : j ≠ k := by omega
          simp [h3, show e.1 ≠ k by omega]
        · by_cases h4 : j < e.1
          · simp only [h3, h4, if_true, if_false]; split <;> simp_all
          · have : j ≠ k := by omega
            simp [h3, h4, this]
      · rename_i h1 h2
        simp only [SMap.get, ih (SMap.rising_tail hm)]
        split
        · rename_i h3
          have : j ≠ k := by omega
          simp [this]
        · split
          · rename_i h3 h4
            have : j ≠ k := by omega
            simp [this]
          · rfl

/-- A read after a write to the same key gives the value written; other keys read as before. -/
theorem SMap.get_set [DecidableEq α] (d : Nat → α) {m : SMap α} (hm : SMap.rising m = true) (k j : Nat) (v : α) :
    SMap.get d (SMap.set d m k v) j = if j = k then v else SMap.get d m j := by
  unfold SMap.set
  split
  · rename_i h
    rw [SMap.get_erase d hm]
    split <;> simp_all
  · exact SMap.get_insert d m k j v

/-! ### Every write keeps the canonical form -/

theorem SMap.above_insert {b k : Nat} {v : α} {m : SMap α} (hm : SMap.above b m = true) (hk : b < k) :
    SMap.above b (SMap.insert m k v) = true := by
  induction m generalizing b with
  | nil => simp [SMap.insert, SMap.above, hk]
  | cons e m ih =>
    simp only [SMap.above, Bool.and_eq_true, decide_eq_true_eq] at hm
    simp only [SMap.insert]
    split
    · rename_i h; subst h; simp [SMap.above, hk, hm.2]
    · split
      · rename_i h; simp [SMap.above, hk, h, hm.2]
      · simp only [SMap.above, Bool.and_eq_true, decide_eq_true_eq]
        exact ⟨hm.1, ih hm.2 (by omega)⟩

theorem SMap.above_erase {b : Nat} (k : Nat) {m : SMap α} (hm : SMap.above b m = true) :
    SMap.above b (SMap.erase m k) = true := by
  induction m generalizing b with
  | nil => rfl
  | cons e m ih =>
    simp only [SMap.above, Bool.and_eq_true, decide_eq_true_eq] at hm
    simp only [SMap.erase]
    split
    · exact SMap.above_mono (Nat.le_of_lt hm.1) hm.2
    · split
      · simp [SMap.above, hm.1, hm.2]
      · simp only [SMap.above, Bool.and_eq_true, decide_eq_true_eq]
        exact ⟨hm.1, ih hm.2⟩

theorem SMap.rising_insert (k : Nat) (v : α) {m : SMap α} (hm : SMap.rising m = true) :
    SMap.rising (SMap.insert m k v) = true := by
  cases m with
  | nil => rfl
  | cons e m =>
    have hab : SMap.above e.1 m = true := hm
    simp only [SMap.insert]
    split
    · rename_i h; subst h; exact hab
    · split
      · rename_i h; simp [SMap.rising, SMap.above, h, hab]
      · exact SMap.above_insert hab (by omega)

theorem SMap.rising_erase (k : Nat) {m : SMap α} (hm : SMap.rising m = true) : SMap.rising (SMap.erase m k) = true := by
  cases m with
  | nil => rfl
  | cons e m =>
    have hab : SMap.above e.1 m = true := hm
    simp only [SMap.erase]
    split
    · exact SMap.rising_of_above hab
    · split
      · exact hab
      · exact SMap.above_erase k hab

theorem SMap.lean_insert [DecidableEq α] {d : Nat → α} {k : Nat} {v : α} {m : SMap α} (hm : SMap.lean d m = true)
    (hv : v ≠ d k) : SMap.lean d (SMap.insert m k v) = true := by
  induction m with
  | nil => simp [SMap.insert, SMap.lean, hv]
  | cons e m ih =>
    simp only [SMap.lean, Bool.and_eq_true, decide_eq_true_eq] at hm
    simp only [SMap.insert]
    split
    · simp [SMap.lean, hv, hm.2]
    · split
      · simp [SMap.lean, hv, hm.1, hm.2]
      · simp only [SMap.lean, Bool.and_eq_true, decide_eq_true_eq]
        exact ⟨hm.1, ih hm.2⟩

theorem SMap.lean_erase [DecidableEq α] {d : Nat → α} (k : Nat) {m : SMap α} (hm : SMap.lean d m = true) :
    SMap.lean d (SMap.erase m k) = true := by
  induction m with
  | nil => rfl
  | cons e m ih =>
    simp only [SMap.lean, Bool.and_eq_true, decide_eq_true_eq] at hm
    simp only [SMap.erase]
    split
    · exact hm.2
    · split
      · simp [SMap.lean, hm.1, hm.2]
      · simp only [SMap.lean, Bool.and_eq_true, decide_eq_true_eq]
        exact ⟨hm.1, ih hm.2⟩

/-- Writing one key keeps the canonical form. -/
theorem SMap.wf_set [DecidableEq α] {d : Nat → α} {m : SMap α} (hm : SMap.wf d m = true) (k : Nat) (v : α) :
    SMap.wf d (SMap.set d m k v) = true := by
  simp only [SMap.wf, Bool.and_eq_true] at hm ⊢
  unfold SMap.set
  split
  · exact ⟨SMap.rising_erase k hm.1, SMap.lean_erase k hm.2⟩
  · rename_i h; exact ⟨SMap.rising_insert k v hm.1, SMap.lean_insert hm.2 h⟩

/-- Changing one key keeps the canonical form. -/
theorem SMap.wf_upd [DecidableEq α] {d : Nat → α} {m : SMap α} (hm : SMap.wf d m = true) (k : Nat) (f : α → α) :
    SMap.wf d (SMap.upd d m k f) = true := SMap.wf_set hm k _

/-- Writing a range of keys keeps the canonical form. -/
theorem SMap.wf_setRange [DecidableEq α] {d : Nat → α} (vs : List α) {m : SMap α} (hm : SMap.wf d m = true) (k : Nat) :
    SMap.wf d (SMap.setRange d m k vs) = true := by
  induction vs generalizing m k with
  | nil => exact hm
  | cons v vs ih => exact ih (SMap.wf_set hm k v) (k + 1)

theorem SMap.above_filter {b : Nat} (p : Nat × α → Bool) {m : SMap α} (hm : SMap.above b m = true) :
    SMap.above b (m.filter p) = true := by
  induction m generalizing b with
  | nil => rfl
  | cons e m ih =>
    simp only [SMap.above, Bool.and_eq_true, decide_eq_true_eq] at hm
    rw [List.filter_cons]
    split
    · simp only [SMap.above, Bool.and_eq_true, decide_eq_true_eq]
      exact ⟨hm.1, ih hm.2⟩
    · exact ih (SMap.above_mono (Nat.le_of_lt hm.1) hm.2)

/-- Dropping entries keeps the canonical form. -/
theorem SMap.wf_filter [DecidableEq α] {d : Nat → α} (p : Nat × α → Bool) {m : SMap α} (hm : SMap.wf d m = true) :
    SMap.wf d (m.filter p) = true := by
  simp only [SMap.wf, Bool.and_eq_true] at hm ⊢
  constructor
  · cases m with
    | nil => rfl
    | cons e m =>
      have hab : SMap.above e.1 m = true := hm.1
      rw [List.filter_cons]
      split
      · exact SMap.above_filter p hab
      · exact SMap.rising_of_above (SMap.above_filter p hab)
  · have hl := hm.2
    clear hm
    induction m with
    | nil => rfl
    | cons e m ih =>
      simp only [SMap.lean, Bool.and_eq_true, decide_eq_true_eq] at hl
      rw [List.filter_cons]
      split
      · simp only [SMap.lean, Bool.and_eq_true, decide_eq_true_eq]
        exact ⟨hl.1, ih hl.2⟩
      · exact ih hl.2

theorem SMap.rising_of_wf [DecidableEq α] {d : Nat → α} {m : SMap α} (hm : SMap.wf d m = true) : SMap.rising m = true := by
  simp only [SMap.wf, Bool.and_eq_true] at hm; exact hm.1

/-! ### Ranges -/

/-- A key outside the range written reads as before. -/
theorem SMap.get_setRange_outside [DecidableEq α] (d : Nat → α) (vs : List α) {m : SMap α} (hm : SMap.wf d m = true)
    (k j : Nat) (h : j < k ∨ k + vs.length ≤ j) : SMap.get d (SMap.setRange d m k vs) j = SMap.get d m j := by
  induction vs generalizing m k with
  | nil => rfl
  | cons v vs ih =>
    simp only [List.length_cons] at h
    rw [SMap.setRange, ih (SMap.wf_set hm k v) (k + 1) (by omega), SMap.get_set d (SMap.rising_of_wf hm)]
    have : j ≠ k := by omega
    simp [this]

/-- A key of the range written reads the byte written there. -/
theorem SMap.get_setRange_inside [DecidableEq α] (d : Nat → α) (vs : List α) {m : SMap α} (hm : SMap.wf d m = true)
    (k i : Nat) (h : i < vs.length) : SMap.get d (SMap.setRange d m k vs) (k + i) = vs[i] := by
  induction vs generalizing m k i with
  | nil => simp at h
  | cons v vs ih =>
    rw [SMap.setRange]
    cases i with
    | zero =>
      rw [SMap.get_setRange_outside d vs (SMap.wf_set hm k v) (k + 1) (k + 0) (by omega),
        SMap.get_set d (SMap.rising_of_wf hm)]
      simp
    | succ i =>
      have h' : i < vs.length := by simpa using h
      have := ih (SMap.wf_set hm k v) (k + 1) i h'
      rw [show k + (i + 1) = k + 1 + i by omega, this]
      simp

/-- Reading back a range just written gives what was written. -/
theorem SMap.getRange_setRange [DecidableEq α] (d : Nat → α) (vs : List α) {m : SMap α} (hm : SMap.wf d m = true) (k : Nat) :
    SMap.getRange d (SMap.setRange d m k vs) k vs.length = vs := by
  apply List.ext_getElem
  · simp [SMap.getRange]
  · intro i h1 h2
    simp only [SMap.getRange, List.getElem_map, List.getElem_range]
    exact SMap.get_setRange_inside d vs hm k i h2

end Sys2Proof.Machine
end

