-- ==== Sys2Proof/Laws/State.lean ====
section
/-!
SUPPORT. One lemma for each field that each basic update leaves alone, true by unfolding, so that no proof unfolds a record
update; and what the updates of the register file do to it.
-/
namespace Sys2Proof.Machine

/-! ### setReg -/

@[simp] theorem State.setReg_pending (s : State) (a : Nat) (v : Word) : (s.setReg a v).pending = s.pending := rfl
@[simp] theorem State.setReg_fuses (s : State) (a : Nat) (v : Word) : (s.setReg a v).fuses = s.fuses := rfl
@[simp] theorem State.setReg_power (s : State) (a : Nat) (v : Word) : (s.setReg a v).power = s.power := rfl
@[simp] theorem State.setReg_live (s : State) (a : Nat) (v : Word) : (s.setReg a v).live = s.live := rfl
@[simp] theorem State.setReg_clock (s : State) (a : Nat) (v : Word) : (s.setReg a v).clock = s.clock := rfl
@[simp] theorem State.setReg_sync (s : State) (a : Nat) (v : Word) : (s.setReg a v).sync = s.sync := rfl
@[simp] theorem State.setReg_ple (s : State) (a : Nat) (v : Word) : (s.setReg a v).ple = s.ple := rfl
@[simp] theorem State.setReg_scx (s : State) (a : Nat) (v : Word) : (s.setReg a v).scx = s.scx := rfl
@[simp] theorem State.setReg_cpm (s : State) (a : Nat) (v : Word) : (s.setReg a v).cpm = s.cpm := rfl
@[simp] theorem State.setReg_dec (s : State) (a : Nat) (v : Word) : (s.setReg a v).dec = s.dec := rfl
@[simp] theorem State.setReg_lns (s : State) (a : Nat) (v : Word) : (s.setReg a v).lns = s.lns := rfl
@[simp] theorem State.setReg_tiles (s : State) (a : Nat) (v : Word) : (s.setReg a v).tiles = s.tiles := rfl
@[simp] theorem State.setReg_fabric (s : State) (a : Nat) (v : Word) : (s.setReg a v).fabric = s.fabric := rfl
@[simp] theorem State.setReg_egr (s : State) (a : Nat) (v : Word) : (s.setReg a v).egr = s.egr := rfl
@[simp] theorem State.setReg_dram (s : State) (a : Nat) (v : Word) : (s.setReg a v).dram = s.dram := rfl
@[simp] theorem State.setReg_pep (s : State) (a : Nat) (v : Word) : (s.setReg a v).pep = s.pep := rfl
@[simp] theorem State.setReg_stw (s : State) (a : Nat) (v : Word) : (s.setReg a v).stw = s.stw := rfl
@[simp] theorem State.setReg_mbx (s : State) (a : Nat) (v : Word) : (s.setReg a v).mbx = s.mbx := rfl
@[simp] theorem State.setReg_erc (s : State) (a : Nat) (v : Word) : (s.setReg a v).erc = s.erc := rfl
@[simp] theorem State.setReg_meter (s : State) (a : Nat) (v : Word) : (s.setReg a v).meter = s.meter := rfl
@[simp] theorem State.setReg_met (s : State) (a : Nat) (v : Word) : (s.setReg a v).met = s.met := rfl
@[simp] theorem State.setReg_pair (s : State) (a : Nat) (v : Word) : (s.setReg a v).pair = s.pair := rfl
@[simp] theorem State.setReg_out (s : State) (a : Nat) (v : Word) : (s.setReg a v).out = s.out := rfl
@[simp] theorem State.setReg_rdata (s : State) (a : Nat) (v : Word) : (s.setReg a v).rdata = s.rdata := rfl
@[simp] theorem State.setReg_fresh (s : State) (a : Nat) (v : Word) : (s.setReg a v).fresh = s.fresh := rfl

/-! ### setFld -/

@[simp] theorem State.setFld_pending (s : State) (a hi lo v : Nat) : (s.setFld a hi lo v).pending = s.pending := rfl
@[simp] theorem State.setFld_fuses (s : State) (a hi lo v : Nat) : (s.setFld a hi lo v).fuses = s.fuses := rfl
@[simp] theorem State.setFld_power (s : State) (a hi lo v : Nat) : (s.setFld a hi lo v).power = s.power := rfl
@[simp] theorem State.setFld_live (s : State) (a hi lo v : Nat) : (s.setFld a hi lo v).live = s.live := rfl
@[simp] theorem State.setFld_clock (s : State) (a hi lo v : Nat) : (s.setFld a hi lo v).clock = s.clock := rfl
@[simp] theorem State.setFld_sync (s : State) (a hi lo v : Nat) : (s.setFld a hi lo v).sync = s.sync := rfl
@[simp] theorem State.setFld_ple (s : State) (a hi lo v : Nat) : (s.setFld a hi lo v).ple = s.ple := rfl
@[simp] theorem State.setFld_scx (s : State) (a hi lo v : Nat) : (s.setFld a hi lo v).scx = s.scx := rfl
@[simp] theorem State.setFld_cpm (s : State) (a hi lo v : Nat) : (s.setFld a hi lo v).cpm = s.cpm := rfl
@[simp] theorem State.setFld_dec (s : State) (a hi lo v : Nat) : (s.setFld a hi lo v).dec = s.dec := rfl
@[simp] theorem State.setFld_lns (s : State) (a hi lo v : Nat) : (s.setFld a hi lo v).lns = s.lns := rfl
@[simp] theorem State.setFld_tiles (s : State) (a hi lo v : Nat) : (s.setFld a hi lo v).tiles = s.tiles := rfl
@[simp] theorem State.setFld_fabric (s : State) (a hi lo v : Nat) : (s.setFld a hi lo v).fabric = s.fabric := rfl
@[simp] theorem State.setFld_egr (s : State) (a hi lo v : Nat) : (s.setFld a hi lo v).egr = s.egr := rfl
@[simp] theorem State.setFld_dram (s : State) (a hi lo v : Nat) : (s.setFld a hi lo v).dram = s.dram := rfl
@[simp] theorem State.setFld_pep (s : State) (a hi lo v : Nat) : (s.setFld a hi lo v).pep = s.pep := rfl
@[simp] theorem State.setFld_stw (s : State) (a hi lo v : Nat) : (s.setFld a hi lo v).stw = s.stw := rfl
@[simp] theorem State.setFld_mbx (s : State) (a hi lo v : Nat) : (s.setFld a hi lo v).mbx = s.mbx := rfl
@[simp] theorem State.setFld_erc (s : State) (a hi lo v : Nat) : (s.setFld a hi lo v).erc = s.erc := rfl
@[simp] theorem State.setFld_meter (s : State) (a hi lo v : Nat) : (s.setFld a hi lo v).meter = s.meter := rfl
@[simp] theorem State.setFld_met (s : State) (a hi lo v : Nat) : (s.setFld a hi lo v).met = s.met := rfl
@[simp] theorem State.setFld_pair (s : State) (a hi lo v : Nat) : (s.setFld a hi lo v).pair = s.pair := rfl
@[simp] theorem State.setFld_out (s : State) (a hi lo v : Nat) : (s.setFld a hi lo v).out = s.out := rfl
@[simp] theorem State.setFld_rdata (s : State) (a hi lo v : Nat) : (s.setFld a hi lo v).rdata = s.rdata := rfl
@[simp] theorem State.setFld_fresh (s : State) (a hi lo v : Nat) : (s.setFld a hi lo v).fresh = s.fresh := rfl

/-! ### setBit -/

@[simp] theorem State.setBit_pending (s : State) (a n : Nat) : (s.setBit a n).pending = s.pending := rfl
@[simp] theorem State.setBit_fuses (s : State) (a n : Nat) : (s.setBit a n).fuses = s.fuses := rfl
@[simp] theorem State.setBit_power (s : State) (a n : Nat) : (s.setBit a n).power = s.power := rfl
@[simp] theorem State.setBit_live (s : State) (a n : Nat) : (s.setBit a n).live = s.live := rfl
@[simp] theorem State.setBit_clock (s : State) (a n : Nat) : (s.setBit a n).clock = s.clock := rfl
@[simp] theorem State.setBit_sync (s : State) (a n : Nat) : (s.setBit a n).sync = s.sync := rfl
@[simp] theorem State.setBit_ple (s : State) (a n : Nat) : (s.setBit a n).ple = s.ple := rfl
@[simp] theorem State.setBit_scx (s : State) (a n : Nat) : (s.setBit a n).scx = s.scx := rfl
@[simp] theorem State.setBit_cpm (s : State) (a n : Nat) : (s.setBit a n).cpm = s.cpm := rfl
@[simp] theorem State.setBit_dec (s : State) (a n : Nat) : (s.setBit a n).dec = s.dec := rfl
@[simp] theorem State.setBit_lns (s : State) (a n : Nat) : (s.setBit a n).lns = s.lns := rfl
@[simp] theorem State.setBit_tiles (s : State) (a n : Nat) : (s.setBit a n).tiles = s.tiles := rfl
@[simp] theorem State.setBit_fabric (s : State) (a n : Nat) : (s.setBit a n).fabric = s.fabric := rfl
@[simp] theorem State.setBit_egr (s : State) (a n : Nat) : (s.setBit a n).egr = s.egr := rfl
@[simp] theorem State.setBit_dram (s : State) (a n : Nat) : (s.setBit a n).dram = s.dram := rfl
@[simp] theorem State.setBit_pep (s : State) (a n : Nat) : (s.setBit a n).pep = s.pep := rfl
@[simp] theorem State.setBit_stw (s : State) (a n : Nat) : (s.setBit a n).stw = s.stw := rfl
@[simp] theorem State.setBit_mbx (s : State) (a n : Nat) : (s.setBit a n).mbx = s.mbx := rfl
@[simp] theorem State.setBit_erc (s : State) (a n : Nat) : (s.setBit a n).erc = s.erc := rfl
@[simp] theorem State.setBit_meter (s : State) (a n : Nat) : (s.setBit a n).meter = s.meter := rfl
@[simp] theorem State.setBit_met (s : State) (a n : Nat) : (s.setBit a n).met = s.met := rfl
@[simp] theorem State.setBit_pair (s : State) (a n : Nat) : (s.setBit a n).pair = s.pair := rfl
@[simp] theorem State.setBit_out (s : State) (a n : Nat) : (s.setBit a n).out = s.out := rfl
@[simp] theorem State.setBit_rdata (s : State) (a n : Nat) : (s.setBit a n).rdata = s.rdata := rfl
@[simp] theorem State.setBit_fresh (s : State) (a n : Nat) : (s.setBit a n).fresh = s.fresh := rfl

/-! ### clrBit -/

@[simp] theorem State.clrBit_pending (s : State) (a n : Nat) : (s.clrBit a n).pending = s.pending := rfl
@[simp] theorem State.clrBit_fuses (s : State) (a n : Nat) : (s.clrBit a n).fuses = s.fuses := rfl
@[simp] theorem State.clrBit_power (s : State) (a n : Nat) : (s.clrBit a n).power = s.power := rfl
@[simp] theorem State.clrBit_live (s : State) (a n : Nat) : (s.clrBit a n).live = s.live := rfl
@[simp] theorem State.clrBit_clock (s : State) (a n : Nat) : (s.clrBit a n).clock = s.clock := rfl
@[simp] theorem State.clrBit_sync (s : State) (a n : Nat) : (s.clrBit a n).sync = s.sync := rfl
@[simp] theorem State.clrBit_ple (s : State) (a n : Nat) : (s.clrBit a n).ple = s.ple := rfl
@[simp] theorem State.clrBit_scx (s : State) (a n : Nat) : (s.clrBit a n).scx = s.scx := rfl
@[simp] theorem State.clrBit_cpm (s : State) (a n : Nat) : (s.clrBit a n).cpm = s.cpm := rfl
@[simp] theorem State.clrBit_dec (s : State) (a n : Nat) : (s.clrBit a n).dec = s.dec := rfl
@[simp] theorem State.clrBit_lns (s : State) (a n : Nat) : (s.clrBit a n).lns = s.lns := rfl
@[simp] theorem State.clrBit_tiles (s : State) (a n : Nat) : (s.clrBit a n).tiles = s.tiles := rfl
@[simp] theorem State.clrBit_fabric (s : State) (a n : Nat) : (s.clrBit a n).fabric = s.fabric := rfl
@[simp] theorem State.clrBit_egr (s : State) (a n : Nat) : (s.clrBit a n).egr = s.egr := rfl
@[simp] theorem State.clrBit_dram (s : State) (a n : Nat) : (s.clrBit a n).dram = s.dram := rfl
@[simp] theorem State.clrBit_pep (s : State) (a n : Nat) : (s.clrBit a n).pep = s.pep := rfl
@[simp] theorem State.clrBit_stw (s : State) (a n : Nat) : (s.clrBit a n).stw = s.stw := rfl
@[simp] theorem State.clrBit_mbx (s : State) (a n : Nat) : (s.clrBit a n).mbx = s.mbx := rfl
@[simp] theorem State.clrBit_erc (s : State) (a n : Nat) : (s.clrBit a n).erc = s.erc := rfl
@[simp] theorem State.clrBit_meter (s : State) (a n : Nat) : (s.clrBit a n).meter = s.meter := rfl
@[simp] theorem State.clrBit_met (s : State) (a n : Nat) : (s.clrBit a n).met = s.met := rfl
@[simp] theorem State.clrBit_pair (s : State) (a n : Nat) : (s.clrBit a n).pair = s.pair := rfl
@[simp] theorem State.clrBit_out (s : State) (a n : Nat) : (s.clrBit a n).out = s.out := rfl
@[simp] theorem State.clrBit_rdata (s : State) (a n : Nat) : (s.clrBit a n).rdata = s.rdata := rfl
@[simp] theorem State.clrBit_fresh (s : State) (a n : Nat) : (s.clrBit a n).fresh = s.fresh := rfl

/-! ### incW -/

@[simp] theorem State.incW_pending (s : State) (a n : Nat) : (s.incW a n).pending = s.pending := rfl
@[simp] theorem State.incW_fuses (s : State) (a n : Nat) : (s.incW a n).fuses = s.fuses := rfl
@[simp] theorem State.incW_power (s : State) (a n : Nat) : (s.incW a n).power = s.power := rfl
@[simp] theorem State.incW_live (s : State) (a n : Nat) : (s.incW a n).live = s.live := rfl
@[simp] theorem State.incW_clock (s : State) (a n : Nat) : (s.incW a n).clock = s.clock := rfl
@[simp] theorem State.incW_sync (s : State) (a n : Nat) : (s.incW a n).sync = s.sync := rfl
@[simp] theorem State.incW_ple (s : State) (a n : Nat) : (s.incW a n).ple = s.ple := rfl
@[simp] theorem State.incW_scx (s : State) (a n : Nat) : (s.incW a n).scx = s.scx := rfl
@[simp] theorem State.incW_cpm (s : State) (a n : Nat) : (s.incW a n).cpm = s.cpm := rfl
@[simp] theorem State.incW_dec (s : State) (a n : Nat) : (s.incW a n).dec = s.dec := rfl
@[simp] theorem State.incW_lns (s : State) (a n : Nat) : (s.incW a n).lns = s.lns := rfl
@[simp] theorem State.incW_tiles (s : State) (a n : Nat) : (s.incW a n).tiles = s.tiles := rfl
@[simp] theorem State.incW_fabric (s : State) (a n : Nat) : (s.incW a n).fabric = s.fabric := rfl
@[simp] theorem State.incW_egr (s : State) (a n : Nat) : (s.incW a n).egr = s.egr := rfl
@[simp] theorem State.incW_dram (s : State) (a n : Nat) : (s.incW a n).dram = s.dram := rfl
@[simp] theorem State.incW_pep (s : State) (a n : Nat) : (s.incW a n).pep = s.pep := rfl
@[simp] theorem State.incW_stw (s : State) (a n : Nat) : (s.incW a n).stw = s.stw := rfl
@[simp] theorem State.incW_mbx (s : State) (a n : Nat) : (s.incW a n).mbx = s.mbx := rfl
@[simp] theorem State.incW_erc (s : State) (a n : Nat) : (s.incW a n).erc = s.erc := rfl
@[simp] theorem State.incW_meter (s : State) (a n : Nat) : (s.incW a n).meter = s.meter := rfl
@[simp] theorem State.incW_met (s : State) (a n : Nat) : (s.incW a n).met = s.met := rfl
@[simp] theorem State.incW_pair (s : State) (a n : Nat) : (s.incW a n).pair = s.pair := rfl
@[simp] theorem State.incW_out (s : State) (a n : Nat) : (s.incW a n).out = s.out := rfl
@[simp] theorem State.incW_rdata (s : State) (a n : Nat) : (s.incW a n).rdata = s.rdata := rfl
@[simp] theorem State.incW_fresh (s : State) (a n : Nat) : (s.incW a n).fresh = s.fresh := rfl

/-! ### incS -/

@[simp] theorem State.incS_pending (s : State) (a n : Nat) : (s.incS a n).pending = s.pending := rfl
@[simp] theorem State.incS_fuses (s : State) (a n : Nat) : (s.incS a n).fuses = s.fuses := rfl
@[simp] theorem State.incS_power (s : State) (a n : Nat) : (s.incS a n).power = s.power := rfl
@[simp] theorem State.incS_live (s : State) (a n : Nat) : (s.incS a n).live = s.live := rfl
@[simp] theorem State.incS_clock (s : State) (a n : Nat) : (s.incS a n).clock = s.clock := rfl
@[simp] theorem State.incS_sync (s : State) (a n : Nat) : (s.incS a n).sync = s.sync := rfl
@[simp] theorem State.incS_ple (s : State) (a n : Nat) : (s.incS a n).ple = s.ple := rfl
@[simp] theorem State.incS_scx (s : State) (a n : Nat) : (s.incS a n).scx = s.scx := rfl
@[simp] theorem State.incS_cpm (s : State) (a n : Nat) : (s.incS a n).cpm = s.cpm := rfl
@[simp] theorem State.incS_dec (s : State) (a n : Nat) : (s.incS a n).dec = s.dec := rfl
@[simp] theorem State.incS_lns (s : State) (a n : Nat) : (s.incS a n).lns = s.lns := rfl
@[simp] theorem State.incS_tiles (s : State) (a n : Nat) : (s.incS a n).tiles = s.tiles := rfl
@[simp] theorem State.incS_fabric (s : State) (a n : Nat) : (s.incS a n).fabric = s.fabric := rfl
@[simp] theorem State.incS_egr (s : State) (a n : Nat) : (s.incS a n).egr = s.egr := rfl
@[simp] theorem State.incS_dram (s : State) (a n : Nat) : (s.incS a n).dram = s.dram := rfl
@[simp] theorem State.incS_pep (s : State) (a n : Nat) : (s.incS a n).pep = s.pep := rfl
@[simp] theorem State.incS_stw (s : State) (a n : Nat) : (s.incS a n).stw = s.stw := rfl
@[simp] theorem State.incS_mbx (s : State) (a n : Nat) : (s.incS a n).mbx = s.mbx := rfl
@[simp] theorem State.incS_erc (s : State) (a n : Nat) : (s.incS a n).erc = s.erc := rfl
@[simp] theorem State.incS_meter (s : State) (a n : Nat) : (s.incS a n).meter = s.meter := rfl
@[simp] theorem State.incS_met (s : State) (a n : Nat) : (s.incS a n).met = s.met := rfl
@[simp] theorem State.incS_pair (s : State) (a n : Nat) : (s.incS a n).pair = s.pair := rfl
@[simp] theorem State.incS_out (s : State) (a n : Nat) : (s.incS a n).out = s.out := rfl
@[simp] theorem State.incS_rdata (s : State) (a n : Nat) : (s.incS a n).rdata = s.rdata := rfl
@[simp] theorem State.incS_fresh (s : State) (a n : Nat) : (s.incS a n).fresh = s.fresh := rfl

/-! ### incHi -/

@[simp] theorem State.incHi_pending (s : State) (a : Nat) : (s.incHi a).pending = s.pending := rfl
@[simp] theorem State.incHi_fuses (s : State) (a : Nat) : (s.incHi a).fuses = s.fuses := rfl
@[simp] theorem State.incHi_power (s : State) (a : Nat) : (s.incHi a).power = s.power := rfl
@[simp] theorem State.incHi_live (s : State) (a : Nat) : (s.incHi a).live = s.live := rfl
@[simp] theorem State.incHi_clock (s : State) (a : Nat) : (s.incHi a).clock = s.clock := rfl
@[simp] theorem State.incHi_sync (s : State) (a : Nat) : (s.incHi a).sync = s.sync := rfl
@[simp] theorem State.incHi_ple (s : State) (a : Nat) : (s.incHi a).ple = s.ple := rfl
@[simp] theorem State.incHi_scx (s : State) (a : Nat) : (s.incHi a).scx = s.scx := rfl
@[simp] theorem State.incHi_cpm (s : State) (a : Nat) : (s.incHi a).cpm = s.cpm := rfl
@[simp] theorem State.incHi_dec (s : State) (a : Nat) : (s.incHi a).dec = s.dec := rfl
@[simp] theorem State.incHi_lns (s : State) (a : Nat) : (s.incHi a).lns = s.lns := rfl
@[simp] theorem State.incHi_tiles (s : State) (a : Nat) : (s.incHi a).tiles = s.tiles := rfl
@[simp] theorem State.incHi_fabric (s : State) (a : Nat) : (s.incHi a).fabric = s.fabric := rfl
@[simp] theorem State.incHi_egr (s : State) (a : Nat) : (s.incHi a).egr = s.egr := rfl
@[simp] theorem State.incHi_dram (s : State) (a : Nat) : (s.incHi a).dram = s.dram := rfl
@[simp] theorem State.incHi_pep (s : State) (a : Nat) : (s.incHi a).pep = s.pep := rfl
@[simp] theorem State.incHi_stw (s : State) (a : Nat) : (s.incHi a).stw = s.stw := rfl
@[simp] theorem State.incHi_mbx (s : State) (a : Nat) : (s.incHi a).mbx = s.mbx := rfl
@[simp] theorem State.incHi_erc (s : State) (a : Nat) : (s.incHi a).erc = s.erc := rfl
@[simp] theorem State.incHi_meter (s : State) (a : Nat) : (s.incHi a).meter = s.meter := rfl
@[simp] theorem State.incHi_met (s : State) (a : Nat) : (s.incHi a).met = s.met := rfl
@[simp] theorem State.incHi_pair (s : State) (a : Nat) : (s.incHi a).pair = s.pair := rfl
@[simp] theorem State.incHi_out (s : State) (a : Nat) : (s.incHi a).out = s.out := rfl
@[simp] theorem State.incHi_rdata (s : State) (a : Nat) : (s.incHi a).rdata = s.rdata := rfl
@[simp] theorem State.incHi_fresh (s : State) (a : Nat) : (s.incHi a).fresh = s.fresh := rfl

/-! ### setNum -/

@[simp] theorem State.setNum_pending (s : State) (a n : Nat) : (s.setNum a n).pending = s.pending := rfl
@[simp] theorem State.setNum_fuses (s : State) (a n : Nat) : (s.setNum a n).fuses = s.fuses := rfl
@[simp] theorem State.setNum_power (s : State) (a n : Nat) : (s.setNum a n).power = s.power := rfl
@[simp] theorem State.setNum_live (s : State) (a n : Nat) : (s.setNum a n).live = s.live := rfl
@[simp] theorem State.setNum_clock (s : State) (a n : Nat) : (s.setNum a n).clock = s.clock := rfl
@[simp] theorem State.setNum_sync (s : State) (a n : Nat) : (s.setNum a n).sync = s.sync := rfl
@[simp] theorem State.setNum_ple (s : State) (a n : Nat) : (s.setNum a n).ple = s.ple := rfl
@[simp] theorem State.setNum_scx (s : State) (a n : Nat) : (s.setNum a n).scx = s.scx := rfl
@[simp] theorem State.setNum_cpm (s : State) (a n : Nat) : (s.setNum a n).cpm = s.cpm := rfl
@[simp] theorem State.setNum_dec (s : State) (a n : Nat) : (s.setNum a n).dec = s.dec := rfl
@[simp] theorem State.setNum_lns (s : State) (a n : Nat) : (s.setNum a n).lns = s.lns := rfl
@[simp] theorem State.setNum_tiles (s : State) (a n : Nat) : (s.setNum a n).tiles = s.tiles := rfl
@[simp] theorem State.setNum_fabric (s : State) (a n : Nat) : (s.setNum a n).fabric = s.fabric := rfl
@[simp] theorem State.setNum_egr (s : State) (a n : Nat) : (s.setNum a n).egr = s.egr := rfl
@[simp] theorem State.setNum_dram (s : State) (a n : Nat) : (s.setNum a n).dram = s.dram := rfl
@[simp] theorem State.setNum_pep (s : State) (a n : Nat) : (s.setNum a n).pep = s.pep := rfl
@[simp] theorem State.setNum_stw (s : State) (a n : Nat) : (s.setNum a n).stw = s.stw := rfl
@[simp] theorem State.setNum_mbx (s : State) (a n : Nat) : (s.setNum a n).mbx = s.mbx := rfl
@[simp] theorem State.setNum_erc (s : State) (a n : Nat) : (s.setNum a n).erc = s.erc := rfl
@[simp] theorem State.setNum_meter (s : State) (a n : Nat) : (s.setNum a n).meter = s.meter := rfl
@[simp] theorem State.setNum_met (s : State) (a n : Nat) : (s.setNum a n).met = s.met := rfl
@[simp] theorem State.setNum_pair (s : State) (a n : Nat) : (s.setNum a n).pair = s.pair := rfl
@[simp] theorem State.setNum_out (s : State) (a n : Nat) : (s.setNum a n).out = s.out := rfl
@[simp] theorem State.setNum_rdata (s : State) (a n : Nat) : (s.setNum a n).rdata = s.rdata := rfl
@[simp] theorem State.setNum_fresh (s : State) (a n : Nat) : (s.setNum a n).fresh = s.fresh := rfl

/-! ### setReg64 -/

@[simp] theorem State.setReg64_pending (s : State) (lo hi n : Nat) : (s.setReg64 lo hi n).pending = s.pending := rfl
@[simp] theorem State.setReg64_fuses (s : State) (lo hi n : Nat) : (s.setReg64 lo hi n).fuses = s.fuses := rfl
@[simp] theorem State.setReg64_power (s : State) (lo hi n : Nat) : (s.setReg64 lo hi n).power = s.power := rfl
@[simp] theorem State.setReg64_live (s : State) (lo hi n : Nat) : (s.setReg64 lo hi n).live = s.live := rfl
@[simp] theorem State.setReg64_clock (s : State) (lo hi n : Nat) : (s.setReg64 lo hi n).clock = s.clock := rfl
@[simp] theorem State.setReg64_sync (s : State) (lo hi n : Nat) : (s.setReg64 lo hi n).sync = s.sync := rfl
@[simp] theorem State.setReg64_ple (s : State) (lo hi n : Nat) : (s.setReg64 lo hi n).ple = s.ple := rfl
@[simp] theorem State.setReg64_scx (s : State) (lo hi n : Nat) : (s.setReg64 lo hi n).scx = s.scx := rfl
@[simp] theorem State.setReg64_cpm (s : State) (lo hi n : Nat) : (s.setReg64 lo hi n).cpm = s.cpm := rfl
@[simp] theorem State.setReg64_dec (s : State) (lo hi n : Nat) : (s.setReg64 lo hi n).dec = s.dec := rfl
@[simp] theorem State.setReg64_lns (s : State) (lo hi n : Nat) : (s.setReg64 lo hi n).lns = s.lns := rfl
@[simp] theorem State.setReg64_tiles (s : State) (lo hi n : Nat) : (s.setReg64 lo hi n).tiles = s.tiles := rfl
@[simp] theorem State.setReg64_fabric (s : State) (lo hi n : Nat) : (s.setReg64 lo hi n).fabric = s.fabric := rfl
@[simp] theorem State.setReg64_egr (s : State) (lo hi n : Nat) : (s.setReg64 lo hi n).egr = s.egr := rfl
@[simp] theorem State.setReg64_dram (s : State) (lo hi n : Nat) : (s.setReg64 lo hi n).dram = s.dram := rfl
@[simp] theorem State.setReg64_pep (s : State) (lo hi n : Nat) : (s.setReg64 lo hi n).pep = s.pep := rfl
@[simp] theorem State.setReg64_stw (s : State) (lo hi n : Nat) : (s.setReg64 lo hi n).stw = s.stw := rfl
@[simp] theorem State.setReg64_mbx (s : State) (lo hi n : Nat) : (s.setReg64 lo hi n).mbx = s.mbx := rfl
@[simp] theorem State.setReg64_erc (s : State) (lo hi n : Nat) : (s.setReg64 lo hi n).erc = s.erc := rfl
@[simp] theorem State.setReg64_meter (s : State) (lo hi n : Nat) : (s.setReg64 lo hi n).meter = s.meter := rfl
@[simp] theorem State.setReg64_met (s : State) (lo hi n : Nat) : (s.setReg64 lo hi n).met = s.met := rfl
@[simp] theorem State.setReg64_pair (s : State) (lo hi n : Nat) : (s.setReg64 lo hi n).pair = s.pair := rfl
@[simp] theorem State.setReg64_out (s : State) (lo hi n : Nat) : (s.setReg64 lo hi n).out = s.out := rfl
@[simp] theorem State.setReg64_rdata (s : State) (lo hi n : Nat) : (s.setReg64 lo hi n).rdata = s.rdata := rfl
@[simp] theorem State.setReg64_fresh (s : State) (lo hi n : Nat) : (s.setReg64 lo hi n).fresh = s.fresh := rfl

/-! ### setRun -/

@[simp] theorem State.setRun_pending (s : State) (u : Inst) (n : Nat) : (s.setRun u n).pending = s.pending := rfl
@[simp] theorem State.setRun_fuses (s : State) (u : Inst) (n : Nat) : (s.setRun u n).fuses = s.fuses := rfl
@[simp] theorem State.setRun_power (s : State) (u : Inst) (n : Nat) : (s.setRun u n).power = s.power := rfl
@[simp] theorem State.setRun_live (s : State) (u : Inst) (n : Nat) : (s.setRun u n).live = s.live := rfl
@[simp] theorem State.setRun_clock (s : State) (u : Inst) (n : Nat) : (s.setRun u n).clock = s.clock := rfl
@[simp] theorem State.setRun_sync (s : State) (u : Inst) (n : Nat) : (s.setRun u n).sync = s.sync := rfl
@[simp] theorem State.setRun_ple (s : State) (u : Inst) (n : Nat) : (s.setRun u n).ple = s.ple := rfl
@[simp] theorem State.setRun_scx (s : State) (u : Inst) (n : Nat) : (s.setRun u n).scx = s.scx := rfl
@[simp] theorem State.setRun_cpm (s : State) (u : Inst) (n : Nat) : (s.setRun u n).cpm = s.cpm := rfl
@[simp] theorem State.setRun_dec (s : State) (u : Inst) (n : Nat) : (s.setRun u n).dec = s.dec := rfl
@[simp] theorem State.setRun_lns (s : State) (u : Inst) (n : Nat) : (s.setRun u n).lns = s.lns := rfl
@[simp] theorem State.setRun_tiles (s : State) (u : Inst) (n : Nat) : (s.setRun u n).tiles = s.tiles := rfl
@[simp] theorem State.setRun_fabric (s : State) (u : Inst) (n : Nat) : (s.setRun u n).fabric = s.fabric := rfl
@[simp] theorem State.setRun_egr (s : State) (u : Inst) (n : Nat) : (s.setRun u n).egr = s.egr := rfl
@[simp] theorem State.setRun_dram (s : State) (u : Inst) (n : Nat) : (s.setRun u n).dram = s.dram := rfl
@[simp] theorem State.setRun_pep (s : State) (u : Inst) (n : Nat) : (s.setRun u n).pep = s.pep := rfl
@[simp] theorem State.setRun_stw (s : State) (u : Inst) (n : Nat) : (s.setRun u n).stw = s.stw := rfl
@[simp] theorem State.setRun_mbx (s : State) (u : Inst) (n : Nat) : (s.setRun u n).mbx = s.mbx := rfl
@[simp] theorem State.setRun_erc (s : State) (u : Inst) (n : Nat) : (s.setRun u n).erc = s.erc := rfl
@[simp] theorem State.setRun_meter (s : State) (u : Inst) (n : Nat) : (s.setRun u n).meter = s.meter := rfl
@[simp] theorem State.setRun_met (s : State) (u : Inst) (n : Nat) : (s.setRun u n).met = s.met := rfl
@[simp] theorem State.setRun_pair (s : State) (u : Inst) (n : Nat) : (s.setRun u n).pair = s.pair := rfl
@[simp] theorem State.setRun_out (s : State) (u : Inst) (n : Nat) : (s.setRun u n).out = s.out := rfl
@[simp] theorem State.setRun_rdata (s : State) (u : Inst) (n : Nat) : (s.setRun u n).rdata = s.rdata := rfl
@[simp] theorem State.setRun_fresh (s : State) (u : Inst) (n : Nat) : (s.setRun u n).fresh = s.fresh := rfl

/-! ### emit -/

@[simp] theorem State.emit_pending (s : State) (o : Out) : (s.emit o).pending = s.pending := rfl
@[simp] theorem State.emit_fuses (s : State) (o : Out) : (s.emit o).fuses = s.fuses := rfl
@[simp] theorem State.emit_power (s : State) (o : Out) : (s.emit o).power = s.power := rfl
@[simp] theorem State.emit_regs (s : State) (o : Out) : (s.emit o).regs = s.regs := rfl
@[simp] theorem State.emit_live (s : State) (o : Out) : (s.emit o).live = s.live := rfl
@[simp] theorem State.emit_clock (s : State) (o : Out) : (s.emit o).clock = s.clock := rfl
@[simp] theorem State.emit_sync (s : State) (o : Out) : (s.emit o).sync = s.sync := rfl
@[simp] theorem State.emit_ple (s : State) (o : Out) : (s.emit o).ple = s.ple := rfl
@[simp] theorem State.emit_scx (s : State) (o : Out) : (s.emit o).scx = s.scx := rfl
@[simp] theorem State.emit_cpm (s : State) (o : Out) : (s.emit o).cpm = s.cpm := rfl
@[simp] theorem State.emit_dec (s : State) (o : Out) : (s.emit o).dec = s.dec := rfl
@[simp] theorem State.emit_lns (s : State) (o : Out) : (s.emit o).lns = s.lns := rfl
@[simp] theorem State.emit_tiles (s : State) (o : Out) : (s.emit o).tiles = s.tiles := rfl
@[simp] theorem State.emit_fabric (s : State) (o : Out) : (s.emit o).fabric = s.fabric := rfl
@[simp] theorem State.emit_egr (s : State) (o : Out) : (s.emit o).egr = s.egr := rfl
@[simp] theorem State.emit_dram (s : State) (o : Out) : (s.emit o).dram = s.dram := rfl
@[simp] theorem State.emit_pep (s : State) (o : Out) : (s.emit o).pep = s.pep := rfl
@[simp] theorem State.emit_stw (s : State) (o : Out) : (s.emit o).stw = s.stw := rfl
@[simp] theorem State.emit_mbx (s : State) (o : Out) : (s.emit o).mbx = s.mbx := rfl
@[simp] theorem State.emit_erc (s : State) (o : Out) : (s.emit o).erc = s.erc := rfl
@[simp] theorem State.emit_meter (s : State) (o : Out) : (s.emit o).meter = s.meter := rfl
@[simp] theorem State.emit_met (s : State) (o : Out) : (s.emit o).met = s.met := rfl
@[simp] theorem State.emit_pair (s : State) (o : Out) : (s.emit o).pair = s.pair := rfl
@[simp] theorem State.emit_rdata (s : State) (o : Out) : (s.emit o).rdata = s.rdata := rfl
@[simp] theorem State.emit_fresh (s : State) (o : Out) : (s.emit o).fresh = s.fresh := rfl

/-! ### answer -/

@[simp] theorem State.answer_pending (s : State) (w : Word) : (s.answer w).pending = s.pending := rfl
@[simp] theorem State.answer_fuses (s : State) (w : Word) : (s.answer w).fuses = s.fuses := rfl
@[simp] theorem State.answer_power (s : State) (w : Word) : (s.answer w).power = s.power := rfl
@[simp] theorem State.answer_regs (s : State) (w : Word) : (s.answer w).regs = s.regs := rfl
@[simp] theorem State.answer_live (s : State) (w : Word) : (s.answer w).live = s.live := rfl
@[simp] theorem State.answer_clock (s : State) (w : Word) : (s.answer w).clock = s.clock := rfl
@[simp] theorem State.answer_sync (s : State) (w : Word) : (s.answer w).sync = s.sync := rfl
@[simp] theorem State.answer_ple (s : State) (w : Word) : (s.answer w).ple = s.ple := rfl
@[simp] theorem State.answer_scx (s : State) (w : Word) : (s.answer w).scx = s.scx := rfl
@[simp] theorem State.answer_cpm (s : State) (w : Word) : (s.answer w).cpm = s.cpm := rfl
@[simp] theorem State.answer_dec (s : State) (w : Word) : (s.answer w).dec = s.dec := rfl
@[simp] theorem State.answer_lns (s : State) (w : Word) : (s.answer w).lns = s.lns := rfl
@[simp] theorem State.answer_tiles (s : State) (w : Word) : (s.answer w).tiles = s.tiles := rfl
@[simp] theorem State.answer_fabric (s : State) (w : Word) : (s.answer w).fabric = s.fabric := rfl
@[simp] theorem State.answer_egr (s : State) (w : Word) : (s.answer w).egr = s.egr := rfl
@[simp] theorem State.answer_dram (s : State) (w : Word) : (s.answer w).dram = s.dram := rfl
@[simp] theorem State.answer_pep (s : State) (w : Word) : (s.answer w).pep = s.pep := rfl
@[simp] theorem State.answer_stw (s : State) (w : Word) : (s.answer w).stw = s.stw := rfl
@[simp] theorem State.answer_mbx (s : State) (w : Word) : (s.answer w).mbx = s.mbx := rfl
@[simp] theorem State.answer_erc (s : State) (w : Word) : (s.answer w).erc = s.erc := rfl
@[simp] theorem State.answer_meter (s : State) (w : Word) : (s.answer w).meter = s.meter := rfl
@[simp] theorem State.answer_met (s : State) (w : Word) : (s.answer w).met = s.met := rfl
@[simp] theorem State.answer_pair (s : State) (w : Word) : (s.answer w).pair = s.pair := rfl
@[simp] theorem State.answer_out (s : State) (w : Word) : (s.answer w).out = s.out := rfl
@[simp] theorem State.answer_fresh (s : State) (w : Word) : (s.answer w).fresh = s.fresh := rfl

/-! ### drawn -/

@[simp] theorem State.drawn_pending (s : State) : (s.drawn).pending = s.pending := rfl
@[simp] theorem State.drawn_fuses (s : State) : (s.drawn).fuses = s.fuses := rfl
@[simp] theorem State.drawn_power (s : State) : (s.drawn).power = s.power := rfl
@[simp] theorem State.drawn_regs (s : State) : (s.drawn).regs = s.regs := rfl
@[simp] theorem State.drawn_live (s : State) : (s.drawn).live = s.live := rfl
@[simp] theorem State.drawn_clock (s : State) : (s.drawn).clock = s.clock := rfl
@[simp] theorem State.drawn_sync (s : State) : (s.drawn).sync = s.sync := rfl
@[simp] theorem State.drawn_ple (s : State) : (s.drawn).ple = s.ple := rfl
@[simp] theorem State.drawn_scx (s : State) : (s.drawn).scx = s.scx := rfl
@[simp] theorem State.drawn_cpm (s : State) : (s.drawn).cpm = s.cpm := rfl
@[simp] theorem State.drawn_dec (s : State) : (s.drawn).dec = s.dec := rfl
@[simp] theorem State.drawn_lns (s : State) : (s.drawn).lns = s.lns := rfl
@[simp] theorem State.drawn_tiles (s : State) : (s.drawn).tiles = s.tiles := rfl
@[simp] theorem State.drawn_fabric (s : State) : (s.drawn).fabric = s.fabric := rfl
@[simp] theorem State.drawn_egr (s : State) : (s.drawn).egr = s.egr := rfl
@[simp] theorem State.drawn_dram (s : State) : (s.drawn).dram = s.dram := rfl
@[simp] theorem State.drawn_pep (s : State) : (s.drawn).pep = s.pep := rfl
@[simp] theorem State.drawn_stw (s : State) : (s.drawn).stw = s.stw := rfl
@[simp] theorem State.drawn_mbx (s : State) : (s.drawn).mbx = s.mbx := rfl
@[simp] theorem State.drawn_erc (s : State) : (s.drawn).erc = s.erc := rfl
@[simp] theorem State.drawn_meter (s : State) : (s.drawn).meter = s.meter := rfl
@[simp] theorem State.drawn_met (s : State) : (s.drawn).met = s.met := rfl
@[simp] theorem State.drawn_pair (s : State) : (s.drawn).pair = s.pair := rfl
@[simp] theorem State.drawn_out (s : State) : (s.drawn).out = s.out := rfl
@[simp] theorem State.drawn_rdata (s : State) : (s.drawn).rdata = s.rdata := rfl

/-! ### setScx -/

@[simp] theorem State.setScx_pending (s : State) (n : Nat) (x : Scx) : (s.setScx n x).pending = s.pending := rfl
@[simp] theorem State.setScx_fuses (s : State) (n : Nat) (x : Scx) : (s.setScx n x).fuses = s.fuses := rfl
@[simp] theorem State.setScx_power (s : State) (n : Nat) (x : Scx) : (s.setScx n x).power = s.power := rfl
@[simp] theorem State.setScx_regs (s : State) (n : Nat) (x : Scx) : (s.setScx n x).regs = s.regs := rfl
@[simp] theorem State.setScx_live (s : State) (n : Nat) (x : Scx) : (s.setScx n x).live = s.live := rfl
@[simp] theorem State.setScx_clock (s : State) (n : Nat) (x : Scx) : (s.setScx n x).clock = s.clock := rfl
@[simp] theorem State.setScx_sync (s : State) (n : Nat) (x : Scx) : (s.setScx n x).sync = s.sync := rfl
@[simp] theorem State.setScx_ple (s : State) (n : Nat) (x : Scx) : (s.setScx n x).ple = s.ple := rfl
@[simp] theorem State.setScx_cpm (s : State) (n : Nat) (x : Scx) : (s.setScx n x).cpm = s.cpm := rfl
@[simp] theorem State.setScx_dec (s : State) (n : Nat) (x : Scx) : (s.setScx n x).dec = s.dec := rfl
@[simp] theorem State.setScx_lns (s : State) (n : Nat) (x : Scx) : (s.setScx n x).lns = s.lns := rfl
@[simp] theorem State.setScx_tiles (s : State) (n : Nat) (x : Scx) : (s.setScx n x).tiles = s.tiles := rfl
@[simp] theorem State.setScx_fabric (s : State) (n : Nat) (x : Scx) : (s.setScx n x).fabric = s.fabric := rfl
@[simp] theorem State.setScx_egr (s : State) (n : Nat) (x : Scx) : (s.setScx n x).egr = s.egr := rfl
@[simp] theorem State.setScx_dram (s : State) (n : Nat) (x : Scx) : (s.setScx n x).dram = s.dram := rfl
@[simp] theorem State.setScx_pep (s : State) (n : Nat) (x : Scx) : (s.setScx n x).pep = s.pep := rfl
@[simp] theorem State.setScx_stw (s : State) (n : Nat) (x : Scx) : (s.setScx n x).stw = s.stw := rfl
@[simp] theorem State.setScx_mbx (s : State) (n : Nat) (x : Scx) : (s.setScx n x).mbx = s.mbx := rfl
@[simp] theorem State.setScx_erc (s : State) (n : Nat) (x : Scx) : (s.setScx n x).erc = s.erc := rfl
@[simp] theorem State.setScx_meter (s : State) (n : Nat) (x : Scx) : (s.setScx n x).meter = s.meter := rfl
@[simp] theorem State.setScx_met (s : State) (n : Nat) (x : Scx) : (s.setScx n x).met = s.met := rfl
@[simp] theorem State.setScx_pair (s : State) (n : Nat) (x : Scx) : (s.setScx n x).pair = s.pair := rfl
@[simp] theorem State.setScx_out (s : State) (n : Nat) (x : Scx) : (s.setScx n x).out = s.out := rfl
@[simp] theorem State.setScx_rdata (s : State) (n : Nat) (x : Scx) : (s.setScx n x).rdata = s.rdata := rfl
@[simp] theorem State.setScx_fresh (s : State) (n : Nat) (x : Scx) : (s.setScx n x).fresh = s.fresh := rfl

/-! ### setTile -/

@[simp] theorem State.setTile_pending (s : State) (n : Nat) (x : Tile) : (s.setTile n x).pending = s.pending := rfl
@[simp] theorem State.setTile_fuses (s : State) (n : Nat) (x : Tile) : (s.setTile n x).fuses = s.fuses := rfl
@[simp] theorem State.setTile_power (s : State) (n : Nat) (x : Tile) : (s.setTile n x).power = s.power := rfl
@[simp] theorem State.setTile_regs (s : State) (n : Nat) (x : Tile) : (s.setTile n x).regs = s.regs := rfl
@[simp] theorem State.setTile_live (s : State) (n : Nat) (x : Tile) : (s.setTile n x).live = s.live := rfl
@[simp] theorem State.setTile_clock (s : State) (n : Nat) (x : Tile) : (s.setTile n x).clock = s.clock := rfl
@[simp] theorem State.setTile_sync (s : State) (n : Nat) (x : Tile) : (s.setTile n x).sync = s.sync := rfl
@[simp] theorem State.setTile_ple (s : State) (n : Nat) (x : Tile) : (s.setTile n x).ple = s.ple := rfl
@[simp] theorem State.setTile_scx (s : State) (n : Nat) (x : Tile) : (s.setTile n x).scx = s.scx := rfl
@[simp] theorem State.setTile_cpm (s : State) (n : Nat) (x : Tile) : (s.setTile n x).cpm = s.cpm := rfl
@[simp] theorem State.setTile_dec (s : State) (n : Nat) (x : Tile) : (s.setTile n x).dec = s.dec := rfl
@[simp] theorem State.setTile_lns (s : State) (n : Nat) (x : Tile) : (s.setTile n x).lns = s.lns := rfl
@[simp] theorem State.setTile_fabric (s : State) (n : Nat) (x : Tile) : (s.setTile n x).fabric = s.fabric := rfl
@[simp] theorem State.setTile_egr (s : State) (n : Nat) (x : Tile) : (s.setTile n x).egr = s.egr := rfl
@[simp] theorem State.setTile_dram (s : State) (n : Nat) (x : Tile) : (s.setTile n x).dram = s.dram := rfl
@[simp] theorem State.setTile_pep (s : State) (n : Nat) (x : Tile) : (s.setTile n x).pep = s.pep := rfl
@[simp] theorem State.setTile_stw (s : State) (n : Nat) (x : Tile) : (s.setTile n x).stw = s.stw := rfl
@[simp] theorem State.setTile_mbx (s : State) (n : Nat) (x : Tile) : (s.setTile n x).mbx = s.mbx := rfl
@[simp] theorem State.setTile_erc (s : State) (n : Nat) (x : Tile) : (s.setTile n x).erc = s.erc := rfl
@[simp] theorem State.setTile_meter (s : State) (n : Nat) (x : Tile) : (s.setTile n x).meter = s.meter := rfl
@[simp] theorem State.setTile_met (s : State) (n : Nat) (x : Tile) : (s.setTile n x).met = s.met := rfl
@[simp] theorem State.setTile_pair (s : State) (n : Nat) (x : Tile) : (s.setTile n x).pair = s.pair := rfl
@[simp] theorem State.setTile_out (s : State) (n : Nat) (x : Tile) : (s.setTile n x).out = s.out := rfl
@[simp] theorem State.setTile_rdata (s : State) (n : Nat) (x : Tile) : (s.setTile n x).rdata = s.rdata := rfl
@[simp] theorem State.setTile_fresh (s : State) (n : Nat) (x : Tile) : (s.setTile n x).fresh = s.fresh := rfl

/-! ### setDmc -/

@[simp] theorem State.setDmc_pending (s : State) (n : Nat) (x : Dmc) : (s.setDmc n x).pending = s.pending := rfl
@[simp] theorem State.setDmc_fuses (s : State) (n : Nat) (x : Dmc) : (s.setDmc n x).fuses = s.fuses := rfl
@[simp] theorem State.setDmc_power (s : State) (n : Nat) (x : Dmc) : (s.setDmc n x).power = s.power := rfl
@[simp] theorem State.setDmc_regs (s : State) (n : Nat) (x : Dmc) : (s.setDmc n x).regs = s.regs := rfl
@[simp] theorem State.setDmc_live (s : State) (n : Nat) (x : Dmc) : (s.setDmc n x).live = s.live := rfl
@[simp] theorem State.setDmc_clock (s : State) (n : Nat) (x : Dmc) : (s.setDmc n x).clock = s.clock := rfl
@[simp] theorem State.setDmc_sync (s : State) (n : Nat) (x : Dmc) : (s.setDmc n x).sync = s.sync := rfl
@[simp] theorem State.setDmc_ple (s : State) (n : Nat) (x : Dmc) : (s.setDmc n x).ple = s.ple := rfl
@[simp] theorem State.setDmc_scx (s : State) (n : Nat) (x : Dmc) : (s.setDmc n x).scx = s.scx := rfl
@[simp] theorem State.setDmc_cpm (s : State) (n : Nat) (x : Dmc) : (s.setDmc n x).cpm = s.cpm := rfl
@[simp] theorem State.setDmc_dec (s : State) (n : Nat) (x : Dmc) : (s.setDmc n x).dec = s.dec := rfl
@[simp] theorem State.setDmc_lns (s : State) (n : Nat) (x : Dmc) : (s.setDmc n x).lns = s.lns := rfl
@[simp] theorem State.setDmc_tiles (s : State) (n : Nat) (x : Dmc) : (s.setDmc n x).tiles = s.tiles := rfl
@[simp] theorem State.setDmc_fabric (s : State) (n : Nat) (x : Dmc) : (s.setDmc n x).fabric = s.fabric := rfl
@[simp] theorem State.setDmc_egr (s : State) (n : Nat) (x : Dmc) : (s.setDmc n x).egr = s.egr := rfl
@[simp] theorem State.setDmc_pep (s : State) (n : Nat) (x : Dmc) : (s.setDmc n x).pep = s.pep := rfl
@[simp] theorem State.setDmc_stw (s : State) (n : Nat) (x : Dmc) : (s.setDmc n x).stw = s.stw := rfl
@[simp] theorem State.setDmc_mbx (s : State) (n : Nat) (x : Dmc) : (s.setDmc n x).mbx = s.mbx := rfl
@[simp] theorem State.setDmc_erc (s : State) (n : Nat) (x : Dmc) : (s.setDmc n x).erc = s.erc := rfl
@[simp] theorem State.setDmc_meter (s : State) (n : Nat) (x : Dmc) : (s.setDmc n x).meter = s.meter := rfl
@[simp] theorem State.setDmc_met (s : State) (n : Nat) (x : Dmc) : (s.setDmc n x).met = s.met := rfl
@[simp] theorem State.setDmc_pair (s : State) (n : Nat) (x : Dmc) : (s.setDmc n x).pair = s.pair := rfl
@[simp] theorem State.setDmc_out (s : State) (n : Nat) (x : Dmc) : (s.setDmc n x).out = s.out := rfl
@[simp] theorem State.setDmc_rdata (s : State) (n : Nat) (x : Dmc) : (s.setDmc n x).rdata = s.rdata := rfl
@[simp] theorem State.setDmc_fresh (s : State) (n : Nat) (x : Dmc) : (s.setDmc n x).fresh = s.fresh := rfl

/-! ### setDec -/

@[simp] theorem State.setDec_pending (s : State) (n : Nat) (x : Option DecJob) : (s.setDec n x).pending = s.pending := rfl
@[simp] theorem State.setDec_fuses (s : State) (n : Nat) (x : Option DecJob) : (s.setDec n x).fuses = s.fuses := rfl
@[simp] theorem State.setDec_power (s : State) (n : Nat) (x : Option DecJob) : (s.setDec n x).power = s.power := rfl
@[simp] theorem State.setDec_regs (s : State) (n : Nat) (x : Option DecJob) : (s.setDec n x).regs = s.regs := rfl
@[simp] theorem State.setDec_live (s : State) (n : Nat) (x : Option DecJob) : (s.setDec n x).live = s.live := rfl
@[simp] theorem State.setDec_clock (s : State) (n : Nat) (x : Option DecJob) : (s.setDec n x).clock = s.clock := rfl
@[simp] theorem State.setDec_sync (s : State) (n : Nat) (x : Option DecJob) : (s.setDec n x).sync = s.sync := rfl
@[simp] theorem State.setDec_ple (s : State) (n : Nat) (x : Option DecJob) : (s.setDec n x).ple = s.ple := rfl
@[simp] theorem State.setDec_scx (s : State) (n : Nat) (x : Option DecJob) : (s.setDec n x).scx = s.scx := rfl
@[simp] theorem State.setDec_cpm (s : State) (n : Nat) (x : Option DecJob) : (s.setDec n x).cpm = s.cpm := rfl
@[simp] theorem State.setDec_lns (s : State) (n : Nat) (x : Option DecJob) : (s.setDec n x).lns = s.lns := rfl
@[simp] theorem State.setDec_tiles (s : State) (n : Nat) (x : Option DecJob) : (s.setDec n x).tiles = s.tiles := rfl
@[simp] theorem State.setDec_fabric (s : State) (n : Nat) (x : Option DecJob) : (s.setDec n x).fabric = s.fabric := rfl
@[simp] theorem State.setDec_egr (s : State) (n : Nat) (x : Option DecJob) : (s.setDec n x).egr = s.egr := rfl
@[simp] theorem State.setDec_dram (s : State) (n : Nat) (x : Option DecJob) : (s.setDec n x).dram = s.dram := rfl
@[simp] theorem State.setDec_pep (s : State) (n : Nat) (x : Option DecJob) : (s.setDec n x).pep = s.pep := rfl
@[simp] theorem State.setDec_stw (s : State) (n : Nat) (x : Option DecJob) : (s.setDec n x).stw = s.stw := rfl
@[simp] theorem State.setDec_mbx (s : State) (n : Nat) (x : Option DecJob) : (s.setDec n x).mbx = s.mbx := rfl
@[simp] theorem State.setDec_erc (s : State) (n : Nat) (x : Option DecJob) : (s.setDec n x).erc = s.erc := rfl
@[simp] theorem State.setDec_meter (s : State) (n : Nat) (x : Option DecJob) : (s.setDec n x).meter = s.meter := rfl
@[simp] theorem State.setDec_met (s : State) (n : Nat) (x : Option DecJob) : (s.setDec n x).met = s.met := rfl
@[simp] theorem State.setDec_pair (s : State) (n : Nat) (x : Option DecJob) : (s.setDec n x).pair = s.pair := rfl
@[simp] theorem State.setDec_out (s : State) (n : Nat) (x : Option DecJob) : (s.setDec n x).out = s.out := rfl
@[simp] theorem State.setDec_rdata (s : State) (n : Nat) (x : Option DecJob) : (s.setDec n x).rdata = s.rdata := rfl
@[simp] theorem State.setDec_fresh (s : State) (n : Nat) (x : Option DecJob) : (s.setDec n x).fresh = s.fresh := rfl

/-! ### setLns -/

@[simp] theorem State.setLns_pending (s : State) (n : Nat) (x : Option LnsJob) : (s.setLns n x).pending = s.pending := rfl
@[simp] theorem State.setLns_fuses (s : State) (n : Nat) (x : Option LnsJob) : (s.setLns n x).fuses = s.fuses := rfl
@[simp] theorem State.setLns_power (s : State) (n : Nat) (x : Option LnsJob) : (s.setLns n x).power = s.power := rfl
@[simp] theorem State.setLns_regs (s : State) (n : Nat) (x : Option LnsJob) : (s.setLns n x).regs = s.regs := rfl
@[simp] theorem State.setLns_live (s : State) (n : Nat) (x : Option LnsJob) : (s.setLns n x).live = s.live := rfl
@[simp] theorem State.setLns_clock (s : State) (n : Nat) (x : Option LnsJob) : (s.setLns n x).clock = s.clock := rfl
@[simp] theorem State.setLns_sync (s : State) (n : Nat) (x : Option LnsJob) : (s.setLns n x).sync = s.sync := rfl
@[simp] theorem State.setLns_ple (s : State) (n : Nat) (x : Option LnsJob) : (s.setLns n x).ple = s.ple := rfl
@[simp] theorem State.setLns_scx (s : State) (n : Nat) (x : Option LnsJob) : (s.setLns n x).scx = s.scx := rfl
@[simp] theorem State.setLns_cpm (s : State) (n : Nat) (x : Option LnsJob) : (s.setLns n x).cpm = s.cpm := rfl
@[simp] theorem State.setLns_dec (s : State) (n : Nat) (x : Option LnsJob) : (s.setLns n x).dec = s.dec := rfl
@[simp] theorem State.setLns_tiles (s : State) (n : Nat) (x : Option LnsJob) : (s.setLns n x).tiles = s.tiles := rfl
@[simp] theorem State.setLns_fabric (s : State) (n : Nat) (x : Option LnsJob) : (s.setLns n x).fabric = s.fabric := rfl
@[simp] theorem State.setLns_egr (s : State) (n : Nat) (x : Option LnsJob) : (s.setLns n x).egr = s.egr := rfl
@[simp] theorem State.setLns_dram (s : State) (n : Nat) (x : Option LnsJob) : (s.setLns n x).dram = s.dram := rfl
@[simp] theorem State.setLns_pep (s : State) (n : Nat) (x : Option LnsJob) : (s.setLns n x).pep = s.pep := rfl
@[simp] theorem State.setLns_stw (s : State) (n : Nat) (x : Option LnsJob) : (s.setLns n x).stw = s.stw := rfl
@[simp] theorem State.setLns_mbx (s : State) (n : Nat) (x : Option LnsJob) : (s.setLns n x).mbx = s.mbx := rfl
@[simp] theorem State.setLns_erc (s : State) (n : Nat) (x : Option LnsJob) : (s.setLns n x).erc = s.erc := rfl
@[simp] theorem State.setLns_meter (s : State) (n : Nat) (x : Option LnsJob) : (s.setLns n x).meter = s.meter := rfl
@[simp] theorem State.setLns_met (s : State) (n : Nat) (x : Option LnsJob) : (s.setLns n x).met = s.met := rfl
@[simp] theorem State.setLns_pair (s : State) (n : Nat) (x : Option LnsJob) : (s.setLns n x).pair = s.pair := rfl
@[simp] theorem State.setLns_out (s : State) (n : Nat) (x : Option LnsJob) : (s.setLns n x).out = s.out := rfl
@[simp] theorem State.setLns_rdata (s : State) (n : Nat) (x : Option LnsJob) : (s.setLns n x).rdata = s.rdata := rfl
@[simp] theorem State.setLns_fresh (s : State) (n : Nat) (x : Option LnsJob) : (s.setLns n x).fresh = s.fresh := rfl

/-! ### setMbx -/

@[simp] theorem State.setMbx_pending (s : State) (n : Nat) (x : Mbx) : (s.setMbx n x).pending = s.pending := rfl
@[simp] theorem State.setMbx_fuses (s : State) (n : Nat) (x : Mbx) : (s.setMbx n x).fuses = s.fuses := rfl
@[simp] theorem State.setMbx_power (s : State) (n : Nat) (x : Mbx) : (s.setMbx n x).power = s.power := rfl
@[simp] theorem State.setMbx_regs (s : State) (n : Nat) (x : Mbx) : (s.setMbx n x).regs = s.regs := rfl
@[simp] theorem State.setMbx_live (s : State) (n : Nat) (x : Mbx) : (s.setMbx n x).live = s.live := rfl
@[simp] theorem State.setMbx_clock (s : State) (n : Nat) (x : Mbx) : (s.setMbx n x).clock = s.clock := rfl
@[simp] theorem State.setMbx_sync (s : State) (n : Nat) (x : Mbx) : (s.setMbx n x).sync = s.sync := rfl
@[simp] theorem State.setMbx_ple (s : State) (n : Nat) (x : Mbx) : (s.setMbx n x).ple = s.ple := rfl
@[simp] theorem State.setMbx_scx (s : State) (n : Nat) (x : Mbx) : (s.setMbx n x).scx = s.scx := rfl
@[simp] theorem State.setMbx_cpm (s : State) (n : Nat) (x : Mbx) : (s.setMbx n x).cpm = s.cpm := rfl
@[simp] theorem State.setMbx_dec (s : State) (n : Nat) (x : Mbx) : (s.setMbx n x).dec = s.dec := rfl
@[simp] theorem State.setMbx_lns (s : State) (n : Nat) (x : Mbx) : (s.setMbx n x).lns = s.lns := rfl
@[simp] theorem State.setMbx_tiles (s : State) (n : Nat) (x : Mbx) : (s.setMbx n x).tiles = s.tiles := rfl
@[simp] theorem State.setMbx_fabric (s : State) (n : Nat) (x : Mbx) : (s.setMbx n x).fabric = s.fabric := rfl
@[simp] theorem State.setMbx_egr (s : State) (n : Nat) (x : Mbx) : (s.setMbx n x).egr = s.egr := rfl
@[simp] theorem State.setMbx_dram (s : State) (n : Nat) (x : Mbx) : (s.setMbx n x).dram = s.dram := rfl
@[simp] theorem State.setMbx_pep (s : State) (n : Nat) (x : Mbx) : (s.setMbx n x).pep = s.pep := rfl
@[simp] theorem State.setMbx_stw (s : State) (n : Nat) (x : Mbx) : (s.setMbx n x).stw = s.stw := rfl
@[simp] theorem State.setMbx_erc (s : State) (n : Nat) (x : Mbx) : (s.setMbx n x).erc = s.erc := rfl
@[simp] theorem State.setMbx_meter (s : State) (n : Nat) (x : Mbx) : (s.setMbx n x).meter = s.meter := rfl
@[simp] theorem State.setMbx_met (s : State) (n : Nat) (x : Mbx) : (s.setMbx n x).met = s.met := rfl
@[simp] theorem State.setMbx_pair (s : State) (n : Nat) (x : Mbx) : (s.setMbx n x).pair = s.pair := rfl
@[simp] theorem State.setMbx_out (s : State) (n : Nat) (x : Mbx) : (s.setMbx n x).out = s.out := rfl
@[simp] theorem State.setMbx_rdata (s : State) (n : Nat) (x : Mbx) : (s.setMbx n x).rdata = s.rdata := rfl
@[simp] theorem State.setMbx_fresh (s : State) (n : Nat) (x : Mbx) : (s.setMbx n x).fresh = s.fresh := rfl

/-! ### setWin -/

@[simp] theorem State.setWin_pending (s : State) (n : Nat) (x : WinRun) : (s.setWin n x).pending = s.pending := rfl
@[simp] theorem State.setWin_fuses (s : State) (n : Nat) (x : WinRun) : (s.setWin n x).fuses = s.fuses := rfl
@[simp] theorem State.setWin_power (s : State) (n : Nat) (x : WinRun) : (s.setWin n x).power = s.power := rfl
@[simp] theorem State.setWin_regs (s : State) (n : Nat) (x : WinRun) : (s.setWin n x).regs = s.regs := rfl
@[simp] theorem State.setWin_live (s : State) (n : Nat) (x : WinRun) : (s.setWin n x).live = s.live := rfl
@[simp] theorem State.setWin_clock (s : State) (n : Nat) (x : WinRun) : (s.setWin n x).clock = s.clock := rfl
@[simp] theorem State.setWin_sync (s : State) (n : Nat) (x : WinRun) : (s.setWin n x).sync = s.sync := rfl
@[simp] theorem State.setWin_scx (s : State) (n : Nat) (x : WinRun) : (s.setWin n x).scx = s.scx := rfl
@[simp] theorem State.setWin_cpm (s : State) (n : Nat) (x : WinRun) : (s.setWin n x).cpm = s.cpm := rfl
@[simp] theorem State.setWin_dec (s : State) (n : Nat) (x : WinRun) : (s.setWin n x).dec = s.dec := rfl
@[simp] theorem State.setWin_lns (s : State) (n : Nat) (x : WinRun) : (s.setWin n x).lns = s.lns := rfl
@[simp] theorem State.setWin_tiles (s : State) (n : Nat) (x : WinRun) : (s.setWin n x).tiles = s.tiles := rfl
@[simp] theorem State.setWin_fabric (s : State) (n : Nat) (x : WinRun) : (s.setWin n x).fabric = s.fabric := rfl
@[simp] theorem State.setWin_egr (s : State) (n : Nat) (x : WinRun) : (s.setWin n x).egr = s.egr := rfl
@[simp] theorem State.setWin_dram (s : State) (n : Nat) (x : WinRun) : (s.setWin n x).dram = s.dram := rfl
@[simp] theorem State.setWin_pep (s : State) (n : Nat) (x : WinRun) : (s.setWin n x).pep = s.pep := rfl
@[simp] theorem State.setWin_stw (s : State) (n : Nat) (x : WinRun) : (s.setWin n x).stw = s.stw := rfl
@[simp] theorem State.setWin_mbx (s : State) (n : Nat) (x : WinRun) : (s.setWin n x).mbx = s.mbx := rfl
@[simp] theorem State.setWin_erc (s : State) (n : Nat) (x : WinRun) : (s.setWin n x).erc = s.erc := rfl
@[simp] theorem State.setWin_meter (s : State) (n : Nat) (x : WinRun) : (s.setWin n x).meter = s.meter := rfl
@[simp] theorem State.setWin_met (s : State) (n : Nat) (x : WinRun) : (s.setWin n x).met = s.met := rfl
@[simp] theorem State.setWin_pair (s : State) (n : Nat) (x : WinRun) : (s.setWin n x).pair = s.pair := rfl
@[simp] theorem State.setWin_out (s : State) (n : Nat) (x : WinRun) : (s.setWin n x).out = s.out := rfl
@[simp] theorem State.setWin_rdata (s : State) (n : Nat) (x : WinRun) : (s.setWin n x).rdata = s.rdata := rfl
@[simp] theorem State.setWin_fresh (s : State) (n : Nat) (x : WinRun) : (s.setWin n x).fresh = s.fresh := rfl

end Sys2Proof.Machine
end

