-- ==== Sys2Proof/Laws/Memory.lean ====
section
/-!
SUPPORT. Memories: every operation that writes DRAM, a tile store, the steward's flash or its SRAM keeps the canonical
form, and what a tile store and the flash read after a write.
-/
namespace Sys2Proof.Machine

variable {s t : State}

/-- The canonical form of the memories, piece by piece. -/
theorem Memory.wf_iff (s : State) : Memory.wf s = true ↔
    SMap.wf dram0 s.dram.cells = true ∧ SMap.wf noPoison s.dram.poison = true ∧ SMap.wf flash0 s.stw.flash = true ∧
      SMap.wf sram0 s.stw.sram = true ∧ ∀ e ∈ s.tiles, SMap.wf tile0 e.2.store = true := by
  simp [Memory.wf, Bool.and_eq_true, List.all_eq_true, and_assoc]

/-- It rests on the memories alone. -/
theorem Memory.wf_congr (h : Memory.wf s = true) (h1 : t.dram.cells = s.dram.cells) (h2 : t.dram.poison = s.dram.poison)
    (h3 : t.stw.flash = s.stw.flash) (h4 : t.stw.sram = s.stw.sram) (h5 : t.tiles = s.tiles) : Memory.wf t = true := by
  rw [Memory.wf_iff] at h ⊢
  rw [h1, h2, h3, h4, h5]; exact h

/-! ### Folds -/

/-- A fold of a step that keeps a property keeps it. -/
theorem foldl_keeps {α β : Type} {P : β → Prop} (f : β → α → β) (hf : ∀ b a, P b → P (f b a)) (l : List α) {b : β} (hb : P b) :
    P (l.foldl f b) := by
  induction l generalizing b with
  | nil => exact hb
  | cons a l ih => exact ih (hf b a hb)

/-! ### DRAM -/

/-- Storing a block keeps the canonical form. -/
theorem Memory.wf_storeBlock (h : Memory.wf s = true) (blk : Nat) (data : Bytes) (mark : Bool) :
    Memory.wf (s.storeBlock blk data mark) = true := by
  unfold State.storeBlock
  refine foldl_keeps (P := fun s => Memory.wf s = true) _ (fun s p hs => ?_) _ h
  rw [Memory.wf_iff] at hs ⊢
  exact ⟨SMap.wf_setRange _ hs.1 _, SMap.wf_set hs.2.1 _ _, hs.2.2⟩

/-- Replacing a controller's state leaves the memories. -/
theorem Memory.wf_setDmc (h : Memory.wf s = true) (c : Nat) (d : Dmc) : Memory.wf (s.setDmc c d) = true :=
  Memory.wf_congr h rfl rfl rfl rfl rfl

/-- So does replacing a write queue. -/
theorem Memory.wf_setQueue (h : Memory.wf s = true) (c ch : Nat) (q : List WqEntry) : Memory.wf (s.setQueue c ch q) = true := by
  unfold State.setQueue; exact Memory.wf_setDmc h _ _

/-- Storing a block changes nothing but DRAM's bytes, markers and collected faults. -/
theorem storeBlock_frame (s : State) (blk : Nat) (data : Bytes) (mark : Bool) :
    let u := s.storeBlock blk data mark
    u.regs = s.regs ∧ u.clock = s.clock ∧ u.tiles = s.tiles ∧ u.stw = s.stw ∧ u.ple = s.ple ∧ u.erc = s.erc ∧ u.out = s.out ∧
      u.power = s.power ∧ u.dram.held = s.dram.held ∧ u.dram.ctl = s.dram.ctl ∧ u.dram.seed = s.dram.seed ∧ u.dram.na = s.dram.na := by
  unfold State.storeBlock
  refine foldl_keeps
    (P := fun u : State => u.regs = s.regs ∧ u.clock = s.clock ∧ u.tiles = s.tiles ∧ u.stw = s.stw ∧ u.ple = s.ple ∧
      u.erc = s.erc ∧ u.out = s.out ∧ u.power = s.power ∧ u.dram.held = s.dram.held ∧ u.dram.ctl = s.dram.ctl ∧
      u.dram.seed = s.dram.seed ∧ u.dram.na = s.dram.na)
    _ (fun _ _ hu => ?_) _ ⟨rfl, rfl, rfl, rfl, rfl, rfl, rfl, rfl, rfl, rfl, rfl, rfl⟩
  exact hu

/-! ### Tile stores -/

/-- An entry of a map after a write is the one written or was there. -/
theorem SMap.mem_set {α : Type} [DecidableEq α] {d : Nat → α} {m : SMap α} {k : Nat} {v : α} {e : Nat × α}
    (h : e ∈ SMap.set d m k v) : e = (k, v) ∨ e ∈ m := by
  unfold SMap.set at h
  split at h
  · right
    induction m with
    | nil => simp [SMap.erase] at h
    | cons x m ih =>
      simp only [SMap.erase] at h
      split at h
      · exact List.mem_cons_of_mem _ h
      · split at h
        · exact h
        · cases h with
          | head => exact List.mem_cons_self
          | tail _ h => exact List.mem_cons_of_mem _ (ih h)
  · induction m with
    | nil => simp [SMap.insert] at h; exact .inl h
    | cons x m ih =>
      simp only [SMap.insert] at h
      split at h
      · cases h with
        | head => exact .inl rfl
        | tail _ h => exact .inr (List.mem_cons_of_mem _ h)
      · split at h
        · cases h with
          | head => exact .inl rfl
          | tail _ h => exact .inr h
        · cases h with
          | head => exact .inr List.mem_cons_self
          | tail _ h => exact (ih h).imp id (List.mem_cons_of_mem _)

/-- A value read from a map is an unlisted one or was listed. -/
theorem SMap.get_mem {α : Type} (d : Nat → α) (m : SMap α) (k : Nat) :
    SMap.get d m k = d k ∨ (k, SMap.get d m k) ∈ m := by
  induction m with
  | nil => exact .inl rfl
  | cons x m ih =>
    simp only [SMap.get]
    split
    · rename_i h; subst h; exact .inr List.mem_cons_self
    · split
      · exact .inl rfl
      · exact ih.imp id (List.mem_cons_of_mem _)

/-- The store of a tile in a canonical state is canonical. -/
theorem Memory.wf_tileOf (h : Memory.wf s = true) (n : Nat) : SMap.wf tile0 (s.tileOf n).store = true := by
  have h5 := ((Memory.wf_iff s).1 h).2.2.2.2
  unfold State.tileOf
  rcases SMap.get_mem (fun _ => Tile.idle) s.tiles n with e | e
  · rw [e]; rfl
  · exact h5 _ e

/-- Replacing a tile by one whose store is canonical keeps the canonical form. -/
theorem Memory.wf_setTile (h : Memory.wf s = true) (n : Nat) {x : Tile} (hx : SMap.wf tile0 x.store = true) :
    Memory.wf (s.setTile n x) = true := by
  rw [Memory.wf_iff] at h ⊢
  refine ⟨h.1, h.2.1, h.2.2.1, h.2.2.2.1, fun e he => ?_⟩
  rcases SMap.mem_set (show e ∈ SMap.set (fun _ => Tile.idle) s.tiles n x from he) with rfl | he
  · exact hx
  · exact h.2.2.2.2 e he

/-- Writing a tile store keeps the canonical form. -/
theorem Memory.wf_tileWr (h : Memory.wf s = true) (n a : Nat) (d : Bytes) : Memory.wf (s.tileWr n a d) = true :=
  Memory.wf_setTile h n (SMap.wf_setRange _ (Memory.wf_tileOf h n) _)

/-- Bytes just written to a tile store read back. -/
theorem Tile.rd_wr {x : Tile} (h : SMap.wf tile0 x.store = true) (a : Nat) (d : Bytes) : (x.wr a d).rd a d.length = d :=
  SMap.getRange_setRange tile0 d h a

/-- A byte of a tile store outside those written reads as before. -/
theorem Tile.get_wr_outside {x : Tile} (h : SMap.wf tile0 x.store = true) (a b : Nat) (d : Bytes)
    (hb : b < a ∨ a + d.length ≤ b) : (x.wr a d).store.get tile0 b = x.store.get tile0 b :=
  SMap.get_setRange_outside tile0 d h a b hb

/-! ### The steward's memories -/

/-- Writing the flash keeps the canonical form. -/
theorem Memory.wf_flashStore (h : Memory.wf s = true) (a : Nat) (d : Bytes) : Memory.wf (s.flashStore a d) = true := by
  rw [Memory.wf_iff] at h ⊢
  exact ⟨h.1, h.2.1, SMap.wf_setRange _ h.2.2.1 _, h.2.2.2⟩

/-- Bytes just written to the flash read back. -/
theorem getRange_flashStore (h : Memory.wf s = true) (a : Nat) (d : Bytes) :
    (s.flashStore a d).stw.flash.getRange flash0 a d.length = d :=
  SMap.getRange_setRange flash0 d ((Memory.wf_iff s).1 h).2.2.1 a

/-- Loading the SRAM keeps the canonical form. -/
theorem Memory.wf_sram (h : Memory.wf s = true) (a : Nat) (d : Bytes) :
    Memory.wf { s with stw := { s.stw with sram := s.stw.sram.setRange sram0 a d } } = true := by
  rw [Memory.wf_iff] at h ⊢
  exact ⟨h.1, h.2.1, h.2.2.1, SMap.wf_setRange _ h.2.2.2.1 _, h.2.2.2.2⟩

/-- Clearing a part of the SRAM keeps the canonical form. -/
theorem Memory.wf_sramFilter (h : Memory.wf s = true) (p : Nat × Byte → Bool) :
    Memory.wf { s with stw := { s.stw with sram := s.stw.sram.filter p } } = true := by
  rw [Memory.wf_iff] at h ⊢
  exact ⟨h.1, h.2.1, h.2.2.1, SMap.wf_filter _ h.2.2.2.1, h.2.2.2.2⟩

/-- Initialising a part of DRAM keeps the canonical form. -/
theorem Memory.wf_dramFilter (h : Memory.wf s = true) (p : Nat × Byte → Bool) (q : Nat × Bool → Bool) :
    Memory.wf { s with dram := { s.dram with cells := s.dram.cells.filter p, poison := s.dram.poison.filter q } } = true := by
  rw [Memory.wf_iff] at h ⊢
  exact ⟨SMap.wf_filter _ h.1, SMap.wf_filter _ h.2.1, h.2.2⟩

/-- Setting one poison marker keeps the canonical form. -/
theorem Memory.wf_poison (h : Memory.wf s = true) (k : Nat) (v : Bool) :
    Memory.wf { s with dram := { s.dram with poison := s.dram.poison.set noPoison k v } } = true := by
  rw [Memory.wf_iff] at h ⊢
  exact ⟨h.1, SMap.wf_set h.2.1 _ _, h.2.2⟩

/-- Writing bytes and a marker of DRAM keeps the canonical form. -/
theorem Memory.wf_cells (h : Memory.wf s = true) (a : Nat) (d : Bytes) (k : Nat) (v : Bool) :
    Memory.wf { s with dram := { s.dram with
      cells := s.dram.cells.setRange dram0 a d, poison := s.dram.poison.set noPoison k v } } = true := by
  rw [Memory.wf_iff] at h ⊢
  exact ⟨SMap.wf_setRange _ h.1 _, SMap.wf_set h.2.1 _ _, h.2.2⟩

end Sys2Proof.Machine
end

