-- ==== Sys2Proof/Laws/Regs.lean ====
section
/-!
SUPPORT. The register file: what a register reads after each operation that writes one, and that each keeps the canonical
form.
-/
namespace Sys2Proof.Machine

variable {s : State}

/-! ### The canonical form -/

theorem Regs.wf_setReg (h : Regs.wf s = true) (a : Nat) (v : Word) : Regs.wf (s.setReg a v) = true := SMap.wf_set h a v

theorem Regs.wf_setFld (h : Regs.wf s = true) (a hi lo v : Nat) : Regs.wf (s.setFld a hi lo v) = true := SMap.wf_set h a _

theorem Regs.wf_setBit (h : Regs.wf s = true) (a n : Nat) : Regs.wf (s.setBit a n) = true := SMap.wf_set h a _

theorem Regs.wf_clrBit (h : Regs.wf s = true) (a n : Nat) : Regs.wf (s.clrBit a n) = true := SMap.wf_set h a _

theorem Regs.wf_incW (h : Regs.wf s = true) (a n : Nat) : Regs.wf (s.incW a n) = true := SMap.wf_set h a _

theorem Regs.wf_incS (h : Regs.wf s = true) (a n : Nat) : Regs.wf (s.incS a n) = true := SMap.wf_set h a _

theorem Regs.wf_incHi (h : Regs.wf s = true) (a : Nat) : Regs.wf (s.incHi a) = true := SMap.wf_set h a _

theorem Regs.wf_setNum (h : Regs.wf s = true) (a n : Nat) : Regs.wf (s.setNum a n) = true := SMap.wf_set h a _

theorem Regs.wf_setRun (h : Regs.wf s = true) (u : Inst) (n : Nat) : Regs.wf (s.setRun u n) = true := SMap.wf_set h _ _

theorem Regs.wf_setReg64 (h : Regs.wf s = true) (lo hi n : Nat) : Regs.wf (s.setReg64 lo hi n) = true :=
  SMap.wf_set (SMap.wf_set h lo _) hi _

/-! ### Reads after writes -/

/-- A register reads what was written to it, and every other register as before. -/
theorem reg_setReg (h : Regs.wf s = true) (a b : Nat) (v : Word) :
    (s.setReg a v).reg b = if b = a then v else s.reg b := SMap.get_set resetOf (SMap.rising_of_wf h) a b v

theorem reg_setFld (h : Regs.wf s = true) (a hi lo v b : Nat) :
    (s.setFld a hi lo v).reg b = if b = a then putBits (s.reg a) hi lo v else s.reg b := reg_setReg h a b _

theorem reg_setBit (h : Regs.wf s = true) (a n b : Nat) :
    (s.setBit a n).reg b = if b = a then s.reg a ||| bit1 n else s.reg b := reg_setReg h a b _

theorem reg_clrBit (h : Regs.wf s = true) (a n b : Nat) :
    (s.clrBit a n).reg b = if b = a then s.reg a &&& ~~~ bit1 n else s.reg b := reg_setReg h a b _

theorem reg_incW (h : Regs.wf s = true) (a n b : Nat) :
    (s.incW a n).reg b = if b = a then addWrap (s.reg a) n else s.reg b := reg_setReg h a b _

theorem reg_incS (h : Regs.wf s = true) (a n b : Nat) :
    (s.incS a n).reg b = if b = a then addSat (s.reg a) n else s.reg b := reg_setReg h a b _

theorem reg_incHi (h : Regs.wf s = true) (a b : Nat) :
    (s.incHi a).reg b = if b = a then putBits (s.reg a) 31 16 (min 0xFFFF (s.rfld a 31 16 + 1)) else s.reg b :=
  reg_setReg h a b _

theorem reg_setNum (h : Regs.wf s = true) (a n b : Nat) :
    (s.setNum a n).reg b = if b = a then BitVec.ofNat 32 n else s.reg b := reg_setReg h a b _

theorem reg_setRun (h : Regs.wf s = true) (u : Inst) (n b : Nat) :
    (s.setRun u n).reg b = if b = pgState u then BitVec.ofNat 32 n else s.reg b := reg_setReg h _ b _

/-- A state whose register file is another's reads the other's registers. -/
theorem reg_congr {t : State} (h : t.regs = s.regs) (b : Nat) : t.reg b = s.reg b := by simp [State.reg, h]

/-! ### Bits and fields of words -/

theorem tst_bit1 (n m : Nat) : tst (bit1 n) m = (decide (m < 32) && decide (n = m)) := by
  unfold tst bit1
  rw [BitVec.getLsbD_ofNat, Nat.testBit_two_pow]

theorem tst_or (v w : Word) (m : Nat) : tst (v ||| w) m = (tst v m || tst w m) := BitVec.getLsbD_or

theorem tst_andNot (v w : Word) (m : Nat) : tst (v &&& ~~~ w) m = (tst v m && !tst w m) := by
  unfold tst
  rw [BitVec.getLsbD_and, BitVec.getLsbD_not]
  by_cases hm : m < 32
  · simp [hm]
  · simp [hm, BitVec.getLsbD_of_ge v m (by omega)]

theorem tst_or_bit1 (w : Word) (n : Nat) (hn : n < 32) : tst (w ||| bit1 n) n = true := by
  simp [tst_or, tst_bit1, hn]

theorem tst_or_bit1_ne (w : Word) {n m : Nat} (h : m ≠ n) : tst (w ||| bit1 n) m = tst w m := by
  simp [tst_or, tst_bit1, Ne.symm h]

theorem tst_clear_bit1 (w : Word) (n : Nat) : tst (w &&& ~~~ bit1 n) n = false := by
  rw [tst_andNot, tst_bit1]
  by_cases hn : n < 32
  · simp [hn]
  · simp [tst, BitVec.getLsbD_of_ge w n (by omega)]

theorem tst_clear_bit1_ne (w : Word) {n m : Nat} (h : m ≠ n) : tst (w &&& ~~~ bit1 n) m = tst w m := by
  simp [tst_andNot, tst_bit1, Ne.symm h]

/-! ### Error events (R17) -/

/-- An event of a bit that changes no run state is only that event. -/
theorem raise_eq_event {u : Inst} {bit : Nat} (h : fatalBit u bit = false) (s : State) (win : EvWin) (inj : Bool) :
    s.raise u bit win inj = s.event u bit win inj := by simp [State.raise, h]

/-- The report of an event of any block but ERC leaves the register file alone. -/
theorem report_regs {u : Inst} (hu : u.blk ≠ .erc) (bit cls : Nat) (win : EvWin) (inj : Bool) :
    (s.report u bit cls win inj).regs = s.regs := by
  simp only [State.report, hu, if_false]; split <;> rfl

theorem wf_markErr (h : Regs.wf s = true) (u : Inst) (bit : Nat) : Regs.wf (s.markErr u bit) = true := by
  unfold State.markErr
  apply Regs.wf_incS; apply Regs.wf_setBit
  split
  · exact h
  · exact Regs.wf_setNum h _ _

/-- What an event does to the registers: PG_ERR takes its bit, PG_ERR_CNT counts, PG_FIRST_ERR takes the first (R17). -/
theorem reg_markErr (h : Regs.wf s = true) (u : Inst) (bit b : Nat) :
    (s.markErr u bit).reg b =
      if b = pgErrCnt u then addSat (s.reg b) 1
      else if b = pgErr u then s.reg b ||| bit1 bit
      else if b = pgFirst u ∧ s.rbit b 31 = false then BitVec.ofNat 32 (2 ^ 31 + bit)
      else s.reg b := by
  have e1 : pgErrCnt u ≠ pgErr u := by show u.base + 0x1C ≠ u.base + 0x10; omega
  have e2 : pgErrCnt u ≠ pgFirst u := by show u.base + 0x1C ≠ u.base + 0x20; omega
  have e3 : pgErr u ≠ pgFirst u := by show u.base + 0x10 ≠ u.base + 0x20; omega
  unfold State.markErr
  by_cases hf : s.rbit (pgFirst u) 31 = true
  · simp only [hf, if_true]
    rw [reg_incS (Regs.wf_setBit h _ _), reg_setBit h, reg_setBit h]
    split
    · rename_i hb; subst hb; simp
    · split
      · rename_i hb; subst hb; rfl
      · rename_i hb1 hb2
        split
        · rename_i hb3; obtain ⟨rfl, hb3⟩ := hb3; simp [hf] at hb3
        · rfl
  · have hf' : s.rbit (pgFirst u) 31 = false := by simpa using hf
    have hw := Regs.wf_setNum h (pgFirst u) (2 ^ 31 + bit)
    simp only [hf', Bool.false_eq_true, if_false]
    rw [reg_incS (Regs.wf_setBit hw _ _), reg_setBit hw, reg_setBit hw, reg_setNum h, reg_setNum h, reg_setNum h]
    by_cases hb1 : b = pgErrCnt u
    · subst hb1; simp
    · by_cases hb2 : b = pgErr u
      · subst hb2; simp
      · by_cases hb3 : b = pgFirst u
        · subst hb3; simp [hf']
        · simp [hb1, hb2, hb3]

/-- The registers after an event of any block but ERC (R17). -/
theorem reg_event (h : Regs.wf s = true) {u : Inst} (hu : u.blk ≠ .erc) (bit : Nat) (win : EvWin) (inj : Bool) (b : Nat) :
    (s.event u bit win inj).reg b =
      if b = pgErrCnt u then addSat (s.reg b) 1
      else if b = pgErr u then s.reg b ||| bit1 bit
      else if b = pgFirst u ∧ s.rbit b 31 = false then BitVec.ofNat 32 (2 ^ 31 + bit)
      else s.reg b := by
  rw [← reg_markErr h u bit b]
  exact reg_congr (report_regs hu bit _ win inj) b

theorem wf_event (h : Regs.wf s = true) {u : Inst} (hu : u.blk ≠ .erc) (bit : Nat) (win : EvWin) (inj : Bool) :
    Regs.wf (s.event u bit win inj) = true := by
  have := wf_markErr h u bit
  unfold State.event Regs.wf at *
  rw [report_regs hu]; exact this

end Sys2Proof.Machine
end

