-- ==== Sys2Proof/Laws/Events.lean ====
section
/-!
SUPPORT. What an error event and the carrying of the clock leave alone, each said once.
-/
namespace Sys2Proof.Machine

/-- The parts of a state that no error event touches: all but the registers, the reports, the tiles' flags, and the pulse
that TMU drives. -/
def State.apart (s : State) :=
  ((s.pending, s.fuses, s.live, s.sync, s.ple, s.scx, s.cpm, s.dec, s.lns, s.fabric),
   (s.egr, s.dram, s.pep, s.stw, s.mbx, s.meter, s.met, s.pair, s.out, s.rdata, s.fresh))

/-- The parts that carrying the clock leaves alone: all but the clock. -/
def State.still (s : State) := (s.apart, s.power, s.regs, s.tiles, s.erc)

theorem ite_apart {c : Prop} [Decidable c] {a b s : State} (ha : a.apart = s.apart) (hb : b.apart = s.apart) :
    (if c then a else b).apart = s.apart := by split <;> assumption

theorem setReg_apart (s : State) (a : Nat) (v : Word) : (s.setReg a v).apart = s.apart := rfl

theorem queueReport_apart (s : State) (u : Inst) (bit cls : Nat) (win : EvWin) (inj fatal : Bool) :
    (s.queueReport u bit cls win inj fatal).apart = s.apart := rfl

theorem setTile_apart (s : State) (n : Nat) (x : Tile) : (s.setTile n x).apart = s.apart := rfl

theorem markErr_apart (s : State) (u : Inst) (bit : Nat) : (s.markErr u bit).apart = s.apart := by
  unfold State.markErr
  dsimp only
  generalize hv : (if s.rbit (pgFirst u) 31 = true then s else s.setNum (pgFirst u) (2 ^ 31 + bit)) = v
  have h : v.apart = s.apart := by rw [← hv]; exact ite_apart rfl (setReg_apart _ _ _)
  exact (setReg_apart _ _ _).trans ((setReg_apart _ _ _).trans h)

theorem report_apart (s : State) (u : Inst) (bit cls : Nat) (win : EvWin) (inj : Bool) :
    (s.report u bit cls win inj).apart = s.apart := by
  unfold State.report
  exact ite_apart (setReg_apart _ _ _) (ite_apart (queueReport_apart _ _ _ _ _ _ _) rfl)

theorem event_apart (s : State) (u : Inst) (bit : Nat) (win : EvWin) (inj : Bool) : (s.event u bit win inj).apart = s.apart :=
  (report_apart _ _ _ _ _ _).trans (markErr_apart _ _ _)

theorem flagTile_apart (s : State) (t cause : Nat) (inj : Bool) : (s.flagTile t cause inj).apart = s.apart := by
  unfold State.flagTile
  dsimp only
  have h := event_apart s (U.tile t) 16 none inj
  generalize s.event (U.tile t) 16 none inj = v at h ⊢
  exact ite_apart h ((setTile_apart _ _ _).trans ((setReg_apart _ _ _).trans ((setReg_apart _ _ _).trans h)))

theorem enterFaulted_apart (s : State) (u : Inst) (inj : Bool) : (s.enterFaulted u inj).apart = s.apart := by
  have h : (if (s.setRun u 3).inFatalSet u then (s.setRun u 3).noteFatal u inj else s.setRun u 3).apart = s.apart :=
    ite_apart rfl rfl
  unfold State.enterFaulted
  dsimp only
  generalize (if (s.setRun u 3).inFatalSet u then (s.setRun u 3).noteFatal u inj else s.setRun u 3) = v at h ⊢
  cases u.blk
  case tile => exact (flagTile_apart _ _ _ _).trans h
  case nix => exact (setReg_apart _ _ _).trans h
  case tmu => exact (show State.apart _ = v.apart from rfl).trans h
  case erc => exact (show State.apart _ = v.apart from rfl).trans h
  all_goals exact h

/-- An error event touches the registers, the reports, a tile's flag and TMU's pulse, and nothing else (R17, R20). -/
theorem raise_apart (s : State) (u : Inst) (bit : Nat) (win : EvWin) (inj : Bool) :
    (s.raise u bit win inj).apart = s.apart := by
  have h : ((s.markErr u bit).enterFaulted u inj).apart = s.apart :=
    (enterFaulted_apart _ _ _).trans (markErr_apart s u bit)
  unfold State.raise
  exact ite_apart (ite_apart (ite_apart h ((report_apart _ _ _ _ _ _).trans h)) ((report_apart _ _ _ _ _ _).trans h))
    (event_apart s u bit win inj)

theorem raise_dram (s : State) (u : Inst) (bit : Nat) (win : EvWin) (inj : Bool) : (s.raise u bit win inj).dram = s.dram :=
  congrArg (fun x => x.2.2.1) (raise_apart s u bit win inj)

theorem raise_stw (s : State) (u : Inst) (bit : Nat) (win : EvWin) (inj : Bool) : (s.raise u bit win inj).stw = s.stw :=
  congrArg (fun x => x.2.2.2.2.1) (raise_apart s u bit win inj)

theorem raise_meter (s : State) (u : Inst) (bit : Nat) (win : EvWin) (inj : Bool) : (s.raise u bit win inj).meter = s.meter :=
  congrArg (fun x => x.2.2.2.2.2.2.1) (raise_apart s u bit win inj)

theorem raise_met (s : State) (u : Inst) (bit : Nat) (win : EvWin) (inj : Bool) : (s.raise u bit win inj).met = s.met :=
  congrArg (fun x => x.2.2.2.2.2.2.2.1) (raise_apart s u bit win inj)

theorem raise_pending (s : State) (u : Inst) (bit : Nat) (win : EvWin) (inj : Bool) :
    (s.raise u bit win inj).pending = s.pending := congrArg (fun x => x.1.1) (raise_apart s u bit win inj)

theorem raise_fuses (s : State) (u : Inst) (bit : Nat) (win : EvWin) (inj : Bool) :
    (s.raise u bit win inj).fuses = s.fuses := congrArg (fun x => x.1.2.1) (raise_apart s u bit win inj)

/-! ### The clock -/

theorem ite_still {c : Prop} [Decidable c] {a b s : State} (ha : a.still = s.still) (hb : b.still = s.still) :
    (if c then a else b).still = s.still := by split <;> assumption

/-- Carrying the clock to a time changes only the clock. -/
theorem toTime_still (s : State) (t : Nat) : (s.toTime t).still = s.still := by unfold State.toTime; exact ite_still rfl rfl

/-- Carrying the clock to a phase changes only the clock. -/
theorem toPhase_still (s : State) (p : Nat) : (s.toPhase p).still = s.still := by unfold State.toPhase; exact ite_still rfl rfl

end Sys2Proof.Machine
end

