-- ==== Sys2Proof/Laws/Dram.lean ====
section
/-!
SUPPORT. The write path of device memory: each operation on the way from a unit's write to DRAM keeps the canonical form of
the memories; and when PLE has nothing to do while the clock moves.
-/
namespace Sys2Proof.Machine

variable {s t : State}

/-! ### setFaults -/

@[simp] theorem State.setFaults_pending (s : State) (k : Nat) (v : Nat × Nat) : (s.setFaults k v).pending = s.pending := rfl
@[simp] theorem State.setFaults_fuses (s : State) (k : Nat) (v : Nat × Nat) : (s.setFaults k v).fuses = s.fuses := rfl
@[simp] theorem State.setFaults_power (s : State) (k : Nat) (v : Nat × Nat) : (s.setFaults k v).power = s.power := rfl
@[simp] theorem State.setFaults_regs (s : State) (k : Nat) (v : Nat × Nat) : (s.setFaults k v).regs = s.regs := rfl
@[simp] theorem State.setFaults_live (s : State) (k : Nat) (v : Nat × Nat) : (s.setFaults k v).live = s.live := rfl
@[simp] theorem State.setFaults_clock (s : State) (k : Nat) (v : Nat × Nat) : (s.setFaults k v).clock = s.clock := rfl
@[simp] theorem State.setFaults_sync (s : State) (k : Nat) (v : Nat × Nat) : (s.setFaults k v).sync = s.sync := rfl
@[simp] theorem State.setFaults_ple (s : State) (k : Nat) (v : Nat × Nat) : (s.setFaults k v).ple = s.ple := rfl
@[simp] theorem State.setFaults_scx (s : State) (k : Nat) (v : Nat × Nat) : (s.setFaults k v).scx = s.scx := rfl
@[simp] theorem State.setFaults_cpm (s : State) (k : Nat) (v : Nat × Nat) : (s.setFaults k v).cpm = s.cpm := rfl
@[simp] theorem State.setFaults_dec (s : State) (k : Nat) (v : Nat × Nat) : (s.setFaults k v).dec = s.dec := rfl
@[simp] theorem State.setFaults_lns (s : State) (k : Nat) (v : Nat × Nat) : (s.setFaults k v).lns = s.lns := rfl
@[simp] theorem State.setFaults_tiles (s : State) (k : Nat) (v : Nat × Nat) : (s.setFaults k v).tiles = s.tiles := rfl
@[simp] theorem State.setFaults_fabric (s : State) (k : Nat) (v : Nat × Nat) : (s.setFaults k v).fabric = s.fabric := rfl
@[simp] theorem State.setFaults_egr (s : State) (k : Nat) (v : Nat × Nat) : (s.setFaults k v).egr = s.egr := rfl
@[simp] theorem State.setFaults_pep (s : State) (k : Nat) (v : Nat × Nat) : (s.setFaults k v).pep = s.pep := rfl
@[simp] theorem State.setFaults_stw (s : State) (k : Nat) (v : Nat × Nat) : (s.setFaults k v).stw = s.stw := rfl
@[simp] theorem State.setFaults_mbx (s : State) (k : Nat) (v : Nat × Nat) : (s.setFaults k v).mbx = s.mbx := rfl
@[simp] theorem State.setFaults_erc (s : State) (k : Nat) (v : Nat × Nat) : (s.setFaults k v).erc = s.erc := rfl
@[simp] theorem State.setFaults_meter (s : State) (k : Nat) (v : Nat × Nat) : (s.setFaults k v).meter = s.meter := rfl
@[simp] theorem State.setFaults_met (s : State) (k : Nat) (v : Nat × Nat) : (s.setFaults k v).met = s.met := rfl
@[simp] theorem State.setFaults_pair (s : State) (k : Nat) (v : Nat × Nat) : (s.setFaults k v).pair = s.pair := rfl
@[simp] theorem State.setFaults_out (s : State) (k : Nat) (v : Nat × Nat) : (s.setFaults k v).out = s.out := rfl
@[simp] theorem State.setFaults_rdata (s : State) (k : Nat) (v : Nat × Nat) : (s.setFaults k v).rdata = s.rdata := rfl
@[simp] theorem State.setFaults_fresh (s : State) (k : Nat) (v : Nat × Nat) : (s.setFaults k v).fresh = s.fresh := rfl

/-! ### holdReq -/

@[simp] theorem State.holdReq_pending (s : State) (r : MemReq) : (s.holdReq r).pending = s.pending := rfl
@[simp] theorem State.holdReq_fuses (s : State) (r : MemReq) : (s.holdReq r).fuses = s.fuses := rfl
@[simp] theorem State.holdReq_power (s : State) (r : MemReq) : (s.holdReq r).power = s.power := rfl
@[simp] theorem State.holdReq_regs (s : State) (r : MemReq) : (s.holdReq r).regs = s.regs := rfl
@[simp] theorem State.holdReq_live (s : State) (r : MemReq) : (s.holdReq r).live = s.live := rfl
@[simp] theorem State.holdReq_clock (s : State) (r : MemReq) : (s.holdReq r).clock = s.clock := rfl
@[simp] theorem State.holdReq_sync (s : State) (r : MemReq) : (s.holdReq r).sync = s.sync := rfl
@[simp] theorem State.holdReq_ple (s : State) (r : MemReq) : (s.holdReq r).ple = s.ple := rfl
@[simp] theorem State.holdReq_scx (s : State) (r : MemReq) : (s.holdReq r).scx = s.scx := rfl
@[simp] theorem State.holdReq_cpm (s : State) (r : MemReq) : (s.holdReq r).cpm = s.cpm := rfl
@[simp] theorem State.holdReq_dec (s : State) (r : MemReq) : (s.holdReq r).dec = s.dec := rfl
@[simp] theorem State.holdReq_lns (s : State) (r : MemReq) : (s.holdReq r).lns = s.lns := rfl
@[simp] theorem State.holdReq_tiles (s : State) (r : MemReq) : (s.holdReq r).tiles = s.tiles := rfl
@[simp] theorem State.holdReq_fabric (s : State) (r : MemReq) : (s.holdReq r).fabric = s.fabric := rfl
@[simp] theorem State.holdReq_egr (s : State) (r : MemReq) : (s.holdReq r).egr = s.egr := rfl
@[simp] theorem State.holdReq_pep (s : State) (r : MemReq) : (s.holdReq r).pep = s.pep := rfl
@[simp] theorem State.holdReq_stw (s : State) (r : MemReq) : (s.holdReq r).stw = s.stw := rfl
@[simp] theorem State.holdReq_mbx (s : State) (r : MemReq) : (s.holdReq r).mbx = s.mbx := rfl
@[simp] theorem State.holdReq_erc (s : State) (r : MemReq) : (s.holdReq r).erc = s.erc := rfl
@[simp] theorem State.holdReq_meter (s : State) (r : MemReq) : (s.holdReq r).meter = s.meter := rfl
@[simp] theorem State.holdReq_met (s : State) (r : MemReq) : (s.holdReq r).met = s.met := rfl
@[simp] theorem State.holdReq_pair (s : State) (r : MemReq) : (s.holdReq r).pair = s.pair := rfl
@[simp] theorem State.holdReq_out (s : State) (r : MemReq) : (s.holdReq r).out = s.out := rfl
@[simp] theorem State.holdReq_rdata (s : State) (r : MemReq) : (s.holdReq r).rdata = s.rdata := rfl
@[simp] theorem State.holdReq_fresh (s : State) (r : MemReq) : (s.holdReq r).fresh = s.fresh := rfl

/-! ### setQueue -/

@[simp] theorem State.setQueue_pending (s : State) (c ch : Nat) (q : List WqEntry) : (s.setQueue c ch q).pending = s.pending := rfl
@[simp] theorem State.setQueue_fuses (s : State) (c ch : Nat) (q : List WqEntry) : (s.setQueue c ch q).fuses = s.fuses := rfl
@[simp] theorem State.setQueue_power (s : State) (c ch : Nat) (q : List WqEntry) : (s.setQueue c ch q).power = s.power := rfl
@[simp] theorem State.setQueue_regs (s : State) (c ch : Nat) (q : List WqEntry) : (s.setQueue c ch q).regs = s.regs := rfl
@[simp] theorem State.setQueue_live (s : State) (c ch : Nat) (q : List WqEntry) : (s.setQueue c ch q).live = s.live := rfl
@[simp] theorem State.setQueue_clock (s : State) (c ch : Nat) (q : List WqEntry) : (s.setQueue c ch q).clock = s.clock := rfl
@[simp] theorem State.setQueue_sync (s : State) (c ch : Nat) (q : List WqEntry) : (s.setQueue c ch q).sync = s.sync := rfl
@[simp] theorem State.setQueue_ple (s : State) (c ch : Nat) (q : List WqEntry) : (s.setQueue c ch q).ple = s.ple := rfl
@[simp] theorem State.setQueue_scx (s : State) (c ch : Nat) (q : List WqEntry) : (s.setQueue c ch q).scx = s.scx := rfl
@[simp] theorem State.setQueue_cpm (s : State) (c ch : Nat) (q : List WqEntry) : (s.setQueue c ch q).cpm = s.cpm := rfl
@[simp] theorem State.setQueue_dec (s : State) (c ch : Nat) (q : List WqEntry) : (s.setQueue c ch q).dec = s.dec := rfl
@[simp] theorem State.setQueue_lns (s : State) (c ch : Nat) (q : List WqEntry) : (s.setQueue c ch q).lns = s.lns := rfl
@[simp] theorem State.setQueue_tiles (s : State) (c ch : Nat) (q : List WqEntry) : (s.setQueue c ch q).tiles = s.tiles := rfl
@[simp] theorem State.setQueue_fabric (s : State) (c ch : Nat) (q : List WqEntry) : (s.setQueue c ch q).fabric = s.fabric := rfl
@[simp] theorem State.setQueue_egr (s : State) (c ch : Nat) (q : List WqEntry) : (s.setQueue c ch q).egr = s.egr := rfl
@[simp] theorem State.setQueue_pep (s : State) (c ch : Nat) (q : List WqEntry) : (s.setQueue c ch q).pep = s.pep := rfl
@[simp] theorem State.setQueue_stw (s : State) (c ch : Nat) (q : List WqEntry) : (s.setQueue c ch q).stw = s.stw := rfl
@[simp] theorem State.setQueue_mbx (s : State) (c ch : Nat) (q : List WqEntry) : (s.setQueue c ch q).mbx = s.mbx := rfl
@[simp] theorem State.setQueue_erc (s : State) (c ch : Nat) (q : List WqEntry) : (s.setQueue c ch q).erc = s.erc := rfl
@[simp] theorem State.setQueue_meter (s : State) (c ch : Nat) (q : List WqEntry) : (s.setQueue c ch q).meter = s.meter := rfl
@[simp] theorem State.setQueue_met (s : State) (c ch : Nat) (q : List WqEntry) : (s.setQueue c ch q).met = s.met := rfl
@[simp] theorem State.setQueue_pair (s : State) (c ch : Nat) (q : List WqEntry) : (s.setQueue c ch q).pair = s.pair := rfl
@[simp] theorem State.setQueue_out (s : State) (c ch : Nat) (q : List WqEntry) : (s.setQueue c ch q).out = s.out := rfl
@[simp] theorem State.setQueue_rdata (s : State) (c ch : Nat) (q : List WqEntry) : (s.setQueue c ch q).rdata = s.rdata := rfl
@[simp] theorem State.setQueue_fresh (s : State) (c ch : Nat) (q : List WqEntry) : (s.setQueue c ch q).fresh = s.fresh := rfl

/-! ### setReads -/

@[simp] theorem State.setReads_pending (s : State) (c ch : Nat) (q : List MemRead) : (s.setReads c ch q).pending = s.pending := rfl
@[simp] theorem State.setReads_fuses (s : State) (c ch : Nat) (q : List MemRead) : (s.setReads c ch q).fuses = s.fuses := rfl
@[simp] theorem State.setReads_power (s : State) (c ch : Nat) (q : List MemRead) : (s.setReads c ch q).power = s.power := rfl
@[simp] theorem State.setReads_regs (s : State) (c ch : Nat) (q : List MemRead) : (s.setReads c ch q).regs = s.regs := rfl
@[simp] theorem State.setReads_live (s : State) (c ch : Nat) (q : List MemRead) : (s.setReads c ch q).live = s.live := rfl
@[simp] theorem State.setReads_clock (s : State) (c ch : Nat) (q : List MemRead) : (s.setReads c ch q).clock = s.clock := rfl
@[simp] theorem State.setReads_sync (s : State) (c ch : Nat) (q : List MemRead) : (s.setReads c ch q).sync = s.sync := rfl
@[simp] theorem State.setReads_ple (s : State) (c ch : Nat) (q : List MemRead) : (s.setReads c ch q).ple = s.ple := rfl
@[simp] theorem State.setReads_scx (s : State) (c ch : Nat) (q : List MemRead) : (s.setReads c ch q).scx = s.scx := rfl
@[simp] theorem State.setReads_cpm (s : State) (c ch : Nat) (q : List MemRead) : (s.setReads c ch q).cpm = s.cpm := rfl
@[simp] theorem State.setReads_dec (s : State) (c ch : Nat) (q : List MemRead) : (s.setReads c ch q).dec = s.dec := rfl
@[simp] theorem State.setReads_lns (s : State) (c ch : Nat) (q : List MemRead) : (s.setReads c ch q).lns = s.lns := rfl
@[simp] theorem State.setReads_tiles (s : State) (c ch : Nat) (q : List MemRead) : (s.setReads c ch q).tiles = s.tiles := rfl
@[simp] theorem State.setReads_fabric (s : State) (c ch : Nat) (q : List MemRead) : (s.setReads c ch q).fabric = s.fabric := rfl
@[simp] theorem State.setReads_egr (s : State) (c ch : Nat) (q : List MemRead) : (s.setReads c ch q).egr = s.egr := rfl
@[simp] theorem State.setReads_pep (s : State) (c ch : Nat) (q : List MemRead) : (s.setReads c ch q).pep = s.pep := rfl
@[simp] theorem State.setReads_stw (s : State) (c ch : Nat) (q : List MemRead) : (s.setReads c ch q).stw = s.stw := rfl
@[simp] theorem State.setReads_mbx (s : State) (c ch : Nat) (q : List MemRead) : (s.setReads c ch q).mbx = s.mbx := rfl
@[simp] theorem State.setReads_erc (s : State) (c ch : Nat) (q : List MemRead) : (s.setReads c ch q).erc = s.erc := rfl
@[simp] theorem State.setReads_meter (s : State) (c ch : Nat) (q : List MemRead) : (s.setReads c ch q).meter = s.meter := rfl
@[simp] theorem State.setReads_met (s : State) (c ch : Nat) (q : List MemRead) : (s.setReads c ch q).met = s.met := rfl
@[simp] theorem State.setReads_pair (s : State) (c ch : Nat) (q : List MemRead) : (s.setReads c ch q).pair = s.pair := rfl
@[simp] theorem State.setReads_out (s : State) (c ch : Nat) (q : List MemRead) : (s.setReads c ch q).out = s.out := rfl
@[simp] theorem State.setReads_rdata (s : State) (c ch : Nat) (q : List MemRead) : (s.setReads c ch q).rdata = s.rdata := rfl
@[simp] theorem State.setReads_fresh (s : State) (c ch : Nat) (q : List MemRead) : (s.setReads c ch q).fresh = s.fresh := rfl

/-! ### Error events -/

/-- An event that changes no run state leaves the tiles alone. -/
theorem event_tiles (s : State) (u : Inst) (bit : Nat) (win : EvWin) (inj : Bool) : (s.event u bit win inj).tiles = s.tiles := by
  unfold State.event State.report State.markErr
  dsimp only
  repeat' split
  all_goals rfl

/-- Registers and reports do not touch the memories. -/
theorem Memory.wf_tilesOf (h : Memory.wf s = true) (hd : t.dram = s.dram) (hs : t.stw = s.stw) (ht : t.tiles = s.tiles) :
    Memory.wf t = true := Memory.wf_congr h (by rw [hd]) (by rw [hd]) (by rw [hs]) (by rw [hs]) ht

/-- Writing a register leaves the memories. -/
theorem Memory.wf_setReg (h : Memory.wf s = true) (a : Nat) (v : Word) : Memory.wf (s.setReg a v) = true :=
  Memory.wf_tilesOf h rfl rfl rfl

/-- So does an event. -/
theorem Memory.wf_event (h : Memory.wf s = true) (u : Inst) (bit : Nat) (win : EvWin) (inj : Bool) :
    Memory.wf (s.event u bit win inj) = true :=
  Memory.wf_tilesOf h (congrArg (fun x => x.2.2.1) (event_apart s u bit win inj))
    (congrArg (fun x => x.2.2.2.2.1) (event_apart s u bit win inj)) (event_tiles s u bit win inj)

/-- Marking an error leaves the memories. -/
theorem Memory.wf_markErr (h : Memory.wf s = true) (u : Inst) (bit : Nat) : Memory.wf (s.markErr u bit) = true := by
  unfold State.markErr
  dsimp only
  split <;> exact Memory.wf_tilesOf h rfl rfl rfl

/-- So does a report. -/
theorem Memory.wf_report (h : Memory.wf s = true) (u : Inst) (bit cls : Nat) (win : EvWin) (inj : Bool) :
    Memory.wf (s.report u bit cls win inj) = true := by
  unfold State.report State.markSummary
  repeat' split
  all_goals exact Memory.wf_tilesOf h rfl rfl rfl

/-- Flagging a tile keeps its store. -/
theorem Memory.wf_flagTile (h : Memory.wf s = true) (n cause : Nat) (inj : Bool) : Memory.wf (s.flagTile n cause inj) = true := by
  have he := Memory.wf_event h (U.tile n) 16 none inj
  unfold State.flagTile
  dsimp only
  split
  · exact he
  · refine Memory.wf_setTile ?_ n ?_
    · exact Memory.wf_setReg (Memory.wf_setReg he _ _) _ _
    · exact Memory.wf_tileOf (Memory.wf_setReg (Memory.wf_setReg he _ _) _ _) n

/-- Entering FAULTED leaves the memories. -/
theorem Memory.wf_enterFaulted (h : Memory.wf s = true) (u : Inst) (inj : Bool) : Memory.wf (s.enterFaulted u inj) = true := by
  have h1 : Memory.wf (if (s.setRun u 3).inFatalSet u then (s.setRun u 3).noteFatal u inj else s.setRun u 3) = true := by
    split <;> exact Memory.wf_tilesOf h rfl rfl rfl
  unfold State.enterFaulted
  dsimp only
  generalize (if (s.setRun u 3).inFatalSet u then (s.setRun u 3).noteFatal u inj else s.setRun u 3) = v at h1 ⊢
  cases u.blk
  case tile => exact Memory.wf_flagTile h1 _ _ _
  all_goals exact Memory.wf_tilesOf h1 rfl rfl rfl

/-- An error event keeps the canonical form of the memories. -/
theorem Memory.wf_raise (h : Memory.wf s = true) (u : Inst) (bit : Nat) (win : EvWin) (inj : Bool) :
    Memory.wf (s.raise u bit win inj) = true := by
  have hf := Memory.wf_enterFaulted (Memory.wf_markErr h u bit) u inj
  unfold State.raise
  dsimp only
  split
  · split
    · split
      · exact hf
      · exact Memory.wf_report hf _ _ _ _ _
    · exact Memory.wf_report hf _ _ _ _ _
  · exact Memory.wf_event h _ _ _ _

/-! ### Beats -/

/-- What a block has collected is no memory content. -/
theorem Memory.wf_setFaults (h : Memory.wf s = true) (k : Nat) (v : Nat × Nat) : Memory.wf (s.setFaults k v) = true :=
  Memory.wf_congr h rfl rfl rfl rfl rfl

/-- Writing a field of a register pair leaves the memories. -/
theorem Memory.wf_setNib (h : Memory.wf s = true) (lo hi n v : Nat) : Memory.wf (s.setNib lo hi n v) = true := by
  unfold State.setNib
  split <;> exact Memory.wf_tilesOf h rfl rfl rfl

/-- A forced refresh leaves the memories. -/
theorem Memory.wf_refreshPair (h : Memory.wf s = true) (c rank pair : Nat) : Memory.wf (s.refreshPair c rank pair) = true := by
  unfold State.refreshPair
  dsimp only
  split <;> exact Memory.wf_congr h rfl rfl rfl rfl rfl

/-- So does an activate. -/
theorem Memory.wf_activate (h : Memory.wf s = true) (c p bank row : Nat) : Memory.wf (s.activate c p bank row) = true := by
  unfold State.activate
  dsimp only
  split
  · exact h
  · split <;> exact Memory.wf_congr h rfl rfl rfl rfl rfl

/-- So does opening the rows of a beat. -/
theorem Memory.wf_touch (h : Memory.wf s = true) (c p r : Nat) : Memory.wf (s.touch c p r) = true := by
  unfold State.touch
  dsimp only
  refine Memory.wf_activate (Memory.wf_activate ?_ _ _ _ _) _ _ _ _
  split
  · exact Memory.wf_refreshPair h _ _ _
  · exact h

/-- So does a retried beat. -/
theorem Memory.wf_beatTo (h : Memory.wf s = true) (c p r k : Nat) : Memory.wf (s.beatTo c p r k).2 = true := by
  unfold State.beatTo State.linkRetry
  dsimp only
  have h1 := Memory.wf_setFaults (Memory.wf_touch h c p r) (blockPlace c p r k) (((s.touch c p r).faultsAt (blockPlace c p r k)).1, 0)
  split
  · exact Memory.wf_raise (Memory.wf_setReg h1 _ _) _ _ _ _
  · exact h1

/-- So does the imbalance monitor. -/
theorem Memory.wf_countBeat (h : Memory.wf s = true) (c ch port : Nat) : Memory.wf (s.countBeat c ch port) = true := by
  unfold State.countBeat; exact Memory.wf_setDmc h _ _

/-- So does a counted error. -/
theorem Memory.wf_countCe (h : Memory.wf s = true) (c : Nat) : Memory.wf (s.countCe c) = true :=
  Memory.wf_raise (Memory.wf_setReg h _ _) _ _ _ _

theorem Memory.wf_countUe (h : Memory.wf s = true) (c p blk : Nat) : Memory.wf (s.countUe c p blk) = true :=
  Memory.wf_raise (Memory.wf_setReg (Memory.wf_setReg (Memory.wf_setReg h _ _) _ _) _ _) _ _ _ _

/-- So does a rank fault. -/
theorem Memory.wf_rankFault (h : Memory.wf s = true) (c p : Nat) : Memory.wf (s.rankFault c p) = true := by
  unfold State.rankFault State.setRankState
  dsimp only
  split
  · split
    · refine Memory.wf_raise (Memory.wf_setDmc (Memory.wf_setReg (Memory.wf_setNib (Memory.wf_setNib h _ _ _ _) _ _ _ _) _ _) _ _) _ _ _ _
    · exact Memory.wf_raise (Memory.wf_raise (Memory.wf_setNib h _ _ _ _) _ _ _ _) _ _ _ _
  · exact Memory.wf_raise (Memory.wf_raise (Memory.wf_setReg (Memory.wf_setNib (Memory.wf_setNib h _ _ _ _) _ _ _ _) _ _) _ _ _ _) _ _ _ _
  · exact Memory.wf_raise (Memory.wf_setNib h _ _ _ _) _ _ _ _
  · exact h

/-! ### The write path -/

theorem Memory.wf_when (h : Memory.wf s = true) (c : Bool) {f : State → State} (hf : Memory.wf (f s) = true) :
    Memory.wf (s.when c f) = true := by
  unfold State.when; split <;> assumption

/-- The beats of a drained entry, to each rank in turn. -/
theorem Memory.wf_beatsTo (c r k : Nat) (l : List Nat) (h : Memory.wf s = true) :
    Memory.wf (s.beatsTo c r k l).1 = true := by
  induction l generalizing s with
  | nil => exact h
  | cons x l ih =>
    rw [State.beatsTo]
    exact ih (s := (s.beatTo c x r k).2) (Memory.wf_beatTo h _ _ _ _)

/-- What a read-modify-write counts leaves the memories. -/
theorem Memory.wf_rmwErrors (h : Memory.wf s = true) (c p blk errs : Nat) : Memory.wf (s.rmwErrors c p blk errs) = true := by
  unfold State.rmwErrors
  split
  · exact h
  · split
    · exact Memory.wf_countCe h _
    · exact Memory.wf_countUe h _ _ _

/-- Draining an entry keeps the canonical form. -/
theorem Memory.wf_drainEntry (h : Memory.wf s = true) (c : Nat) (e : WqEntry) : Memory.wf (s.drainEntry c e) = true := by
  unfold State.drainEntry
  dsimp only
  split
  · exact h
  · refine foldl_keeps (P := fun s => Memory.wf s = true) _ (fun _ _ hs => Memory.wf_rankFault hs _ _) _ ?_
    refine Memory.wf_storeBlock ?_ _ _ _
    exact Memory.wf_beatsTo _ _ _ _ (Memory.wf_rmwErrors (Memory.wf_when h _ (Memory.wf_setReg h _ _)) _ _ _ _)

/-- So does draining a queue. -/
theorem Memory.wf_drainTo (h : Memory.wf s = true) (c ch n : Nat) : Memory.wf (s.drainTo c ch n) = true := by
  unfold State.drainTo
  exact foldl_keeps (P := fun s => Memory.wf s = true) _ (fun _ _ hs => Memory.wf_drainEntry hs _ _) _ (Memory.wf_setQueue h _ _ _)

/-- A write beat that enters its queue keeps the canonical form. -/
theorem Memory.wf_enqueueWrite (h : Memory.wf s = true) (e : WqEntry) : Memory.wf (s.enqueueWrite e) = true := by
  unfold State.enqueueWrite
  dsimp only
  split
  · exact Memory.wf_setQueue (Memory.wf_drainTo h _ _ _) _ _ _
  · exact Memory.wf_setQueue h _ _ _

/-- A unit's write beat keeps the canonical form. -/
theorem Memory.wf_writeBlock (h : Memory.wf s = true) (u : Inst) (e : WqEntry) : Memory.wf (s.writeBlock u e) = true := by
  unfold State.writeBlock
  dsimp only
  split
  · exact h
  · split
    · exact Memory.wf_congr h rfl rfl rfl rfl rfl
    · split
      · exact h
      · exact Memory.wf_enqueueWrite (Memory.wf_countBeat h _ _ _) _

/-- A unit's write of bytes keeps the canonical form. -/
theorem Memory.wf_writeMem (h : Memory.wf s = true) (u : Inst) (a : Nat) (data : Bytes) (mark : Bool) :
    Memory.wf (s.writeMem u a data mark) = true := by
  unfold State.writeMem State.writeBytes
  exact foldl_keeps (P := fun s => Memory.wf s = true) _ (fun _ _ hs => Memory.wf_writeBlock hs _ _) _ h

/-! ### A clock that finds nothing due -/

/-- Where no window event and no record is due, nothing happens on the way. -/
theorem runBefore_of_calm (s : State) (key : Nat) (h : s.calm key) : s.runBefore key = s := by
  unfold State.runBefore
  split
  · rfl
  · rename_i p hp
    simp only [State.runEvents]
    cases hr : s.planRuns
    · simp
    · have h' := h p hp hr
      have ha : s.acceptDue p = s := by unfold State.acceptDue; rw [h'.1]; rfl
      simp only [Bool.not_true, Bool.false_eq_true, if_false, ha]
      split
      · rename_i m w e hn
        have := h'.2 m w e hn
        simp [Nat.not_lt.2 this]
      · simp

/-- The clock then moves and that is all. -/
theorem passing_of_calm (s : State) (f : State → State) (h : s.calmFor f) : s.passing f = f s := by
  unfold State.passing
  rw [runBefore_of_calm s _ h]

end Sys2Proof.Machine
end

