-- ==== Sys2Proof/Laws/Outcome.lean ====
section
/-!
SUPPORT. What the shared wrappers of a command's meaning answer: `onCore`, `onBus`, `onUnit`, `onReg` and `State.when`, each
said once for the case in which it acts and the case in which it does not.
-/
namespace Sys2Proof.Machine

theorem State.when_true (s : State) (f : State → State) : s.when true f = f s := rfl

theorem State.when_false (s : State) (f : State → State) : s.when false f = s := rfl

/-- With the core die running, a command of the core die has its effect. -/
theorem onCore_on {s : State} (h : s.on) (f : State → State) : onCore s f = .next (f s) := by simp [onCore, h]

/-- With the core die in reset or unpowered, it has none (R442). -/
theorem onCore_off {s : State} (h : s.power.core ≠ .running) (f : State → State) : onCore s f = .next s := by
  simp [onCore, h]

/-- A BAR0 write acts. -/
theorem onBus_on {s : State} (h : s.bus) (f : State → State) : onBus s f = .next (f s) := by
  simp [onBus, onCore, h.1, State.when, h.2]

/-- A BAR0 write during a warm reset is ignored (R39). -/
theorem onBus_warm {s : State} (h : s.power.warm = true) (f : State → State) : onBus s f = .next s := by
  simp [onBus, onCore, State.when, h]

theorem onBus_off {s : State} (h : s.power.core ≠ .running) (f : State → State) : onBus s f = .next s :=
  onCore_off h _

/-- An event of a unit that the part provides. -/
theorem onUnit_on {s : State} {u : Inst} (h : s.on) (hu : u.ok = true) (hh : s.has u = true) (f : State → State) :
    onUnit s u f = .next (f s) := by
  simp [onUnit, hu, onCore, h, State.when, hh]

/-- An instance beyond Table 1.1 is a fault. -/
theorem onUnit_bad {u : Inst} (hu : u.ok = false) (s : State) (f : State → State) :
    onUnit s u f = .fault .noSuchInstance := by simp [onUnit, hu]

theorem onUnit_off {s : State} {u : Inst} (h : s.power.core ≠ .running) (hu : u.ok = true) (f : State → State) :
    onUnit s u f = .next s := by simp [onUnit, hu, onCore_off h]

/-- A write to a register of a unit that the part provides and that is not RETIRED. -/
theorem onReg_on {s : State} {u : Inst} (h : s.bus) (hu : s.live? u) (a : Nat) (f : State → State) :
    onReg s u a f = .next (f s) := by
  simp [onReg, hu.1, onBus_on h, hu.2.1, State.when, hu.2.2]

/-- A RETIRED unit ignores writes (R24). -/
theorem onReg_retired {s : State} {u : Inst} (h : s.bus) (hu : u.ok = true) (hh : s.has u = true)
    (hr : s.runState u = 4) (a : Nat) (f : State → State) : onReg s u a f = .next s := by
  simp [onReg, hu, onBus_on h, hh, State.when, hr]

theorem onReg_off {s : State} {u : Inst} (h : s.power.core ≠ .running) (hu : u.ok = true) (a : Nat) (f : State → State) :
    onReg s u a f = .next s := by simp [onReg, hu, onBus_off h]

/-- With the core die off, each wrapper answers the state it was given, or the fault. -/
theorem onUnit_off_or {s : State} (h : s.power.core ≠ .running) (u : Inst) (f : State → State) :
    onUnit s u f = .next s ∨ onUnit s u f = .fault .noSuchInstance := by
  by_cases hu : u.ok = true
  · exact .inl (onUnit_off h hu f)
  · exact .inr (onUnit_bad (by simpa using hu) s f)

theorem onReg_off_or {s : State} (h : s.power.core ≠ .running) (u : Inst) (a : Nat) (f : State → State) :
    onReg s u a f = .next s ∨ onReg s u a f = .fault .noSuchInstance := by
  by_cases hu : u.ok = true
  · exact .inl (onReg_off h hu a f)
  · exact .inr (by simp [onReg, show u.ok = false by simpa using hu])

end Sys2Proof.Machine
end

