-- ==== Sys2Proof/Tests/Slice0.lean ====
section
/-!
SUPPORT. Tests: an ill-formed command for the check of WellFormed; steps whose outcome the spec gives in numbers; and for
each statement of Obligations a state and operands that meet its hypotheses (test_hyps_…), clause by clause.
-/
namespace Sys2Proof.Tests
open Sys2Proof Sys2Proof.Machine

/-! ### States -/

/-- The machine right after reset. -/
def R : State := State.reset

/-- An instance RUNNING. -/
def up (u : Inst) (s : State) : State := s.setReg (pgState u) 1

/-- Device time and phase. -/
def timed (t p : Nat) (s : State) : State :=
  { s with clock := { s.clock with time := BitVec.ofNat 64 t, phase := BitVec.ofNat 24 p } }

/-- After SEAL. -/
def sealed (s : State) : State := s.setReg Reg.SEC.SEAL_STATUS 0x80000000

/-- TMU running in an epoch that has begun. -/
def T : State := up U.tmu R

/-- Port n RUNNING with its link UP. -/
def ported (n : Nat) (s : State) : State := (up (U.nix n) s).setFld (Reg.NIX.LINK_STATUS n) 2 0 3

/-- A window of a kind, for stream 0, on tile 0 when it is a TILE window. -/
def window (kind : Nat) : PlanWindow :=
  { (default : PlanWindow) with kind := kind, start := 100, latest := 200, deadline := 300, tiles := if kind = 2 then 1 else 0,
                                emit := kind == 2 }

/-- A plan of windows. -/
def plan (l : List PlanWindow) : Plan := { (default : Plan) with windows := l }

/-- A run of a window. -/
def winRun (st : WinSt) : WinRun := { WinRun.waiting with st := st }

/-- TMU and PLE running a plan of one window, the window in some state. -/
def planned (e : PlanWindow) (r : WinRun) : State :=
  let s := up U.ple T
  { s with ple := { s.ple with plan := some (plan [e]), wins := [(0, r)] } }

/-- Every controller in a condition. -/
def ctl (d : Dmc) (s : State) : State := { s with dram := { s.dram with ctl := (List.range 16).map fun i => (i, d) } }

/-- A controller after initialisation. -/
def warm : Dmc := { Dmc.cold with initDone := true }

/-- No window event, and no record, falls due before a moment. -/
def calmB (s : State) (key : Nat) : Bool :=
  match s.ple.plan with
  | none => true
  | some p => !s.planRuns || ((s.handOver p).isEmpty &&
      match s.nextEvent p with
      | none => true
      | some (m, w, _) => decide (key ≤ eventKey m w))

theorem calm_of {s : State} {key : Nat} (h : calmB s key = true) : s.calm key := by
  intro p hp hr
  unfold calmB at h
  rw [hp] at h
  simp only [hr, Bool.not_true, Bool.false_or, Bool.and_eq_true, List.isEmpty_iff] at h
  refine ⟨h.1, fun m w e he => ?_⟩
  have h2 := h.2
  rw [he] at h2
  exact of_decide_eq_true h2

/-- The same where no plan is in effect. -/
theorem calm_of_none {s : State} {key : Nat} (h : s.ple.plan = none) : s.calm key := by
  intro p hp
  rw [h] at hp
  cases hp

/-! ### Well-formedness -/

/-- A port, a tile, a decode core or an instance beyond Table 1.1 is ill-formed; the last of each is well formed. -/
theorem test_wf_refuses : (Instr.linkUp 12).wf = false ∧ (Instr.swapInDone 72).wf = false ∧
    (Instr.decodeChargeStop 24).wf = false ∧ (Instr.runWrite (U.lns 8) true).wf = false ∧
    (Instr.nop ⟨72, 0, 0, 0, 0, 0⟩).wf = false ∧ (Instr.runWrite ⟨.tmu, 1⟩ true).wf = false ∧
    (Instr.linkUp 11).wf = true ∧ (Instr.swapInDone 71).wf = true ∧ (Instr.decodeChargeStop 23).wf = true := by decide

/-- An ill-formed command names no instance and is a fault. -/
theorem test_wf_fault : exec (.linkUp 12) R = .fault .noSuchInstance := rfl

/-! ### Power, clocks, reset (18) -/

theorem test_hyps_ColdResetRestartsCoreDie : (0 : BitVec 2) = 0 ∧ (3 : BitVec 2) ≠ 0 ∧ 2 ≤ (2 : BitVec 2).toNat := by decide

theorem test_hyps_StepRunsFrontCommand : R.pending = [] := rfl

theorem test_hyps_RailsTripAndClocksOfTheCore :
    R.on ∧ 540 ≤ signedN 12 ((R.setFld Reg.DEVCTL.TEMP 11 0 540).rfld Reg.DEVCTL.TEMP 11 0) ∧
    R.rbit Reg.DEVCTL.CLK_STATUS 0 = false ∧ R.rbit Reg.DEVCTL.CLK_STATUS 1 = false ∧ R.rbit Reg.DEVCTL.CLK_STATUS 2 = false ∧
    R.linkPm ≠ 3 ∧ R.linkPm ≠ 4 ∧ Regs.wf R = true ∧ R.rbit Reg.DEVCTL.CLK_STATUS 3 = false ∧ R.runState U.tmu < 3 ∧
    (let s := R.setReg (pgState U.tmu) 3
     s.on ∧ Regs.wf s = true ∧ s.rbit Reg.DEVCTL.CLK_STATUS 3 = false ∧ 3 ≤ s.runState U.tmu) ∧
    (∀ b < 4, (R.setBit Reg.DEVCTL.CLK_STATUS b).rbit Reg.DEVCTL.CLK_STATUS b = true) ∧
    (R.setFld Reg.PEP.LINK_STATUS 14 12 3).linkPm = 3 ∧ (R.setFld Reg.PEP.LINK_STATUS 14 12 4).linkPm = 4 := by decide

theorem test_hyps_HeldCoreDieIgnoresCommands :
    let s : State := { R with power := { R.power with core := .held } }
    s.power.core ≠ .running ∧ (Instr.warmResetComplete).ofMeter = false ∧ Instr.warmResetComplete ≠ .powerDown := by decide

/-- A rail fault holds the core die, and only POR_N frees it (R442). -/
theorem test_rail_fault_holds :
    (match exec (.railFault .vddq) R with | .next s => (s.power.core, s.power.pwrFaultN) | _ => (.running, true)) = (.held, false) := by
  decide

theorem test_hyps_AvsTargetAndJunctionLimit :
    (700 ≤ 850 ∧ 850 ≤ 850 ∧ 850 % 5 = 0) ∧ R.on ∧ Regs.wf R = true ∧ (true && !true) = false ∧
    500 < signedN 12 501 ∧ R.power.thermN = true ∧ signedN 12 480 ≤ 500 - 20 ∧ signedN 12 500 ≤ 500 ∧
    ({ R with power := { R.power with thermN := false } } : State).power.thermN = false ∧ 500 - 20 < signedN 12 481 := by decide

/-- 125 °C is not above the maximum of an A part, 125.25 °C is (R453). -/
theorem test_tj_high : (match exec (.tjHigh 500) R with | .next s => s.power.thermN | _ => false) = true ∧
    (match exec (.tjHigh 501) R with | .next s => s.power.thermN | _ => true) = false := by decide

theorem test_hyps_UncoveredAccessIsRecorded :
    R.bus ∧ locate 0x0003C000 = .page U.ple 0xC000 ∧ locate 0x0FFFFFFC = .hole ∧ R.has U.ple = true ∧ R.runState U.ple ≠ 4 ∧
    locate 0x01000004 = .ring 0 4 ∧ locate 0x03000004 = .fence 0 4 ∧ R.runState U.pep ≠ 4 := by decide

theorem test_hyps_RegisterWriteFollowsAccessCodes :
    R.bus ∧ R.live? (U.dmc 15) ∧
    (∃ d, (descsOf .dmc).find? (fun d => d.covers 0x58) = some d ∧ BitVec.ofNat 32 d.w1c = 0 ∧ d.rwl ≠ 0 ∧ d.rws = 0 ∧ d.boot = 0) ∧
    (∃ d, (descsOf .nix).find? (fun d => d.covers 0x40) = some d ∧ BitVec.ofNat 32 d.w1c = 0 ∧ d.rws ≠ 0 ∧ d.rwl = 0 ∧ d.boot = 0) ∧
    R.servesWindows (U.dmc 15) = false ∧ R.runState (U.nix 11) = 0 ∧ (up (U.nix 11) R).runState (U.nix 11) ≠ 0 ∧
    R.isSealed = false ∧ (sealed R).isSealed = true := by
  refine ⟨by decide, by decide, ⟨_, rfl, by decide⟩, ⟨_, rfl, by decide⟩, by decide⟩

theorem test_hyps_KeptWritesLandTogether :
    let s : State := { R with live := [⟨U.ple, Reg.PLE.SLOT_SIZE 15, 0xFF, 1⟩, ⟨U.ple, Reg.PLE.SLOT_SIZE 15, 0xF0, 2⟩] }
    s.on ∧ U.ple.ok = true ∧ s.has U.ple = true ∧ s.servesWindows U.ple = false ∧ Regs.wf s = true := by decide

/-- A decode core that serves a window which starts at 100: its kept writes land there. -/
theorem test_hyps_KeptWrites_atWindow :
    let s := up (U.dec 0) (planned { window 0 with decs := 1 } (winRun .waiting))
    s.on ∧ (U.dec 0).ok = true ∧ s.has (U.dec 0) = true ∧ s.servesWindows (U.dec 0) = true ∧
      (s.startsOf (U.dec 0)).min? = some 100 ∧ s.ticking = true ∧ s.calmFor (fun s => s.toPhase 100) := by
  refine ⟨by decide, by decide, by decide, by decide, by decide, by decide, calm_of (by decide)⟩

/-! ### Pages (01) -/

theorem test_hyps_RunWriteMovesRunState :
    (R.bus ∧ R.live? (U.dec 23) ∧ Regs.wf R = true ∧ runFixed (U.dec 23) = false ∧ R.resetting (U.dec 23) = false ∧
      R.runState (U.dec 23) = 0 ∧ R.runRefused (U.dec 23) true = false) ∧
    (let s := ctl warm R
     s.live? (U.dmc 15) ∧ s.runState (U.dmc 15) = 0 ∧ s.resetting (U.dmc 15) = false ∧ s.runRefused (U.dmc 15) true = false ∧
      (s.dmcOf 15).initDone = true) ∧
    (R.live? (U.dmc 15) ∧ R.runState (U.dmc 15) = 0 ∧ R.resetting (U.dmc 15) = false ∧ (R.dmcOf 15).initDone = false) ∧
    (let s := R.setReg (pgState (U.dec 23)) 3
     s.live? (U.dec 23) ∧ s.runState (U.dec 23) = 3 ∧ s.runRefused (U.dec 23) true = false) ∧
    (let s := up (U.dec 0) (planned { window 0 with decs := 1 } (winRun .fired))
     s.bus ∧ s.live? (U.dec 0) ∧ Regs.wf s = true ∧ s.runState (U.dec 0) = 1 ∧ s.runRefused (U.dec 0) false = false ∧
      s.serving (U.dec 0) = true ∧ s.servesWindows (U.dec 0) = true) ∧
    (let s := up (U.tile 71) R
     s.live? (U.tile 71) ∧ Regs.wf s = true ∧ s.runState (U.tile 71) = 1 ∧ s.serving (U.tile 71) = false ∧ s.live = []) ∧
    (R.live? (U.nix 11) ∧ runFixed (U.nix 11) = false ∧ R.runState (U.nix 11) ≠ 3 ∧
      ((R.setReg (Reg.NIX.PORT_CFG 11) 0xF).runRefused (U.nix 11) true = true)) ∧
    runFixed U.met = true ∧ R.live? U.met := by decide

theorem test_hyps_ResetBeginsAndCompletes :
    U.met.blk.alwaysRuns = true ∧ R.live? U.met ∧ R.live? U.stw ∧ R.live? (U.dmc 0) ∧ R.resetRefused (U.dmc 0) = true ∧
    (U.dmc 0).blk.alwaysRuns = false ∧ R.resetRefused (U.lns 7) = false ∧ R.live? (U.lns 7) ∧ U.erc.blk = .erc ∧ R.live? U.erc ∧
    (let s := R.setReg (pgCtrl (U.scx 255)) 2
     s.on ∧ s.live? (U.scx 255) ∧ s.rbit (pgCtrl (U.scx 255)) 1 = true ∧ Regs.wf s = true) := by decide

theorem test_hyps_ErrorEventsAreRecorded :
    fatalBit U.pep 31 = false ∧ U.pep.blk ≠ .erc ∧
    (let s := R.setReg (pgErr U.pep) 6
     s.bus ∧ s.live? U.pep ∧ Regs.wf s = true ∧ s.reg (pgErr U.pep) &&& ~~~ 2 ≠ 0 ∧ s.reg (pgErr U.pep) &&& ~~~ 6 = 0) ∧
    (errDefined .tile).testBit 15 = true ∧ (errDefined .tile).testBit 2 = true ∧ R.live? U.stw ∧ (errDefined .tile).testBit 31 = false ∧ R.live? (U.tile 71) ∧
    R.runState (U.tile 71) < 3 ∧ (U.tile 71).ok = true ∧ R.has (U.tile 71) = true := by decide

/-- An uncorrectable SRAM error faults the tile, and PG_FIRST_ERR holds bit 3 (R17, R20). -/
theorem test_sram_ecc : (match exec (.sramEccError (U.tile 71)) R with
    | .next s => (s.runState (U.tile 71), s.reg (pgErr (U.tile 71)) &&& 8, s.rfld (pgFirst (U.tile 71)) 7 0)
    | _ => (0, 0, 0)) = (3, 8, 3) := by decide

theorem test_hyps_SoftResetBeginsWarmReset : R.bus ∧ R.live? U.devctl ∧ fld 0x0DE5 15 0 = 0x0DE5 ∧ fld 0x0DE6 15 0 ≠ 0x0DE5 ∧
    R.streamsInUse = false ∧ ({ R with power := { R.power with warm := true } } : State).power.warm = true := by
  refine ⟨by decide, by decide, by decide, by decide, by decide +kernel, rfl⟩

theorem test_hyps_WarmResetIgnoresBar0Writes : ({ R with power := { R.power with warm := true } } : State).power.warm = true ∧
    (Instr.seal 0).bar0Write = true := by decide

/-! ### Time and plans (02) -/

/-- TMU with an epoch source (0 NETWORK, 1 TRIGGER, 2 REPLAY). -/
def source (n : Nat) : State := T.setFld Reg.TMU.EPOCH_CFG 1 0 n

theorem test_hyps_EpochBoundaryAdvancesCount :
    (let s : State := { T with clock := { T.clock with waiting := true } }
     s.on ∧ s.tmuUp = true ∧ s.clock.waiting = true) ∧
    (T.on ∧ T.tmuUp = true ∧ T.clock.waiting = false ∧ T.epochSrc = 0) ∧
    (let s : State := { source 2 with clock := { T.clock with replayTarget := 1 } }
     s.tmuUp = true ∧ s.epochSrc = 2 ∧ s.clock.epoch.toNat + 1 ≤ s.clock.replayTarget.toNat) ∧
    (source 2).clock.replayTarget.toNat ≤ (source 2).clock.epoch.toNat ∧
    (let s := source 1
     s.on ∧ s.tmuUp = true ∧ s.epochSrc = 1 ∧ s.rbit Reg.TMU.SYNC_STATUS 2 = false ∧ s.edgeInTime = false) ∧
    (timed 33333333 0xFFFFFF (source 1)).edgeInTime = true ∧ ((source 1).setBit Reg.TMU.SYNC_STATUS 2).rbit Reg.TMU.SYNC_STATUS 2 = true ∧
    T.bus ∧ T.live? U.tmu := by decide

/-- The first boundary from NETWORK ends epoch 0: epoch 1 starts at phase 0, PERIOD_NS after the last (R42, R47). -/
theorem test_epoch_boundary : (match exec .epochBoundary T with
    | .next s => (s.clock.epoch, s.clock.phase, s.clock.epochStart) | _ => (0, 1, 0)) = (1, 0, 33333333) := by decide +kernel

/-- A PTP message of a type for a domain. -/
def ptp (ty : Nat) : Bytes := [BitVec.ofNat 8 ty, 0x12] ++ List.replicate 62 0

theorem test_hyps_SyncMessagesDisciplineTime :
    (let s : State := { ported 0 T with sync := { T.sync with inbox := [(0, ptp 0, 5)] } }
     s.on ∧ s.sync.inbox.findIdx? (fun m => ptpType m.2.1 != 2) = some 0) ∧
    (T.sync.inbox.findIdx? (fun m => ptpType m.2.1 != 2) = none) ∧
    (let s := T.setPtp T.followsAlt { T.ptpOf T.followsAlt with syncRx := some (0, 7), gm := some 0 }
     Regs.wf s = true ∧ ptpType (ptp 8) = 8 ∧ ptpSeq (ptp 8) = 0 ∧ (s.ptpOf s.followsAlt).syncRx = some (0, 7) ∧
      (s.ptpOf s.followsAlt).gm.isSome = true ∧ s.runState U.tmu ≠ 3 ∧ s.epochSrc ≠ 2) ∧
    (let s := ported 0 T
     s.has (U.nix 0) = true ∧ (!s.altOf 0 || (s.rbit Reg.TMU.SYNC_CFG 31 && 0 == s.syncPort true)) = true ∧ s.portSends 0 = true) ∧
    ptpType (ptp 11) = 11 ∧ (T.ptpOf true).gm = none ∧
    (let s : State := { ported 0 T with sync := { T.sync with inbox := [(0, ptp 2, 5)] } }
     s.sync.inbox.findIdx? (fun m => ptpType m.2.1 == 2) = some 0 ∧ beAt (ptp 2) 4 1 = s.rfld Reg.TMU.SYNC_CFG 7 0 ∧
      s.altOf 0 = false ∧ s.portSends 0 = true) ∧
    (let s : State := { T with sync := { T.sync with inbox := [(0, ptp 2, 5)] } }
     s.sync.inbox.findIdx? (fun m => ptpType m.2.1 == 2) = some 0 ∧ s.portSends 0 = false) ∧
    T.rbit Reg.TMU.SYNC_STATUS 1 = false ∧
    (T.rbit Reg.TMU.SYNC_CFG 31 && T.hears (T.ptpOf (!T.followsAlt)) &&
      (T.ptpOf T.followsAlt).gm.map gmIdentity == (T.ptpOf (!T.followsAlt)).gm.map gmIdentity) = false ∧
    (let s : State := { T.setBit Reg.TMU.SYNC_CFG 31 with sync := { T.sync with alt := { T.sync.alt with valid := true, interval := 9 } } }
     (s.rbit Reg.TMU.SYNC_CFG 31 && s.hears (s.ptpOf (!s.followsAlt)) &&
      (s.ptpOf s.followsAlt).gm.map gmIdentity == (s.ptpOf (!s.followsAlt)).gm.map gmIdentity) = true) ∧
    (let s := T.setBit Reg.TMU.PPS_CTRL 1
     s.rbit Reg.TMU.PPS_CTRL 1 = true ∧ (s.ptpOf s.followsAlt).valid = false ∧ s.runState U.tmu ≠ 3 ∧ s.epochSrc ≠ 2) := by decide

/-- Where no plan runs nothing falls due on the way, so the premise of a command that advances time is met; T holds no
synchronisation, which is lost at once. -/
theorem test_hyps_calm : (∀ key, T.calm key) ∧ (∀ (f : State → State), R.calmFor f) ∧
    (∀ t, (timed t 0 T).calmFor (fun s => s.toPhase 0x800000)) ∧
    (let t := (T.ptpOf T.followsAlt).lostAt
     T.calmFor (fun s => s.toTime t) ∧ t ≤ (T.toTime t).clock.time.toNat) :=
  ⟨fun _ => calm_of_none rfl, fun _ => calm_of_none rfl, fun _ => calm_of_none rfl, calm_of_none rfl, by decide⟩

/-- A running plan is calm up to its next window event, here the start of a window at 100, and no further. -/
theorem test_hyps_calm_plan : (planned (window 3) (winRun .waiting)).calm (eventKey 100 0) ∧
    calmB (planned (window 3) (winRun .waiting)) (eventKey 100 1) = false := ⟨calm_of (by decide), by decide⟩

/-- 1 ns before a whole second the correction is 1 ns forward, 1 ns after it 1 ns back (R45). -/
theorem test_pps_in :
    let s := T.setBit Reg.TMU.PPS_CTRL 1
    (match exec .ppsInEdge (timed 999999999 0 s) with | .next t => t.clock.slew | _ => 0) = 1 ∧
    (match exec .ppsInEdge (timed 1000000001 0 s) with | .next t => t.clock.slew | _ => 0) = -1 := by decide

theorem test_hyps_TimingOutputsFollowTheClock :
    (let s := T.setBit Reg.TMU.PPS_CTRL 0
     s.on ∧ s.rbit Reg.TMU.PPS_CTRL 0 = true ∧ s.runState U.tmu ≠ 3 ∧ s.epochSrc ≠ 2 ∧ s.clock.time.toNat + 10 ^ 9 < 2 ^ 64) ∧
    (({ T with clock := { T.clock with ppsUntil := some 1000000 } } : State).clock.ppsUntil = some 1000000) ∧
    (let s : State := { T with clock := { T.clock with trigCfg := [(0, 0), (0, 0), (0, 0), (0x80FFFFFE, 1)] } }
     let c := s.clock.trigCfg.getD (3 : BitVec 2).toNat (0, 0)
     s.ticking = true ∧ tst c.1 31 = true ∧ s.clock.trigEnd[(3 : BitVec 2).toNat]? = some none ∧ 0 < fld c.2 23 0 ∧
      fld c.1 23 0 < 0xFFFFFF) ∧
    (({ T with clock := { T.clock with trigEnd := [none, none, none, some 0xFFFFFF] } } : State).clock.trigEnd[3]? =
      some (some 0xFFFFFF)) ∧ T.bus := by decide

theorem test_hyps_PlanSlotsAndCommits :
    (R.bus ∧ (List.range 16).all (fun i => R.slotState i != 1) = true ∧ R.slotState (fld 15 3 0) ≠ 4) ∧
    (List.range 16).any (fun i => (R.setFld (Reg.PLE.SLOT_STATUS 15) 2 0 1).slotState i == 1) = true ∧
    (R.setFld (Reg.PLE.SLOT_STATUS 15) 2 0 4).slotState (fld 15 3 0) = 4 ∧
    (let s : State := { R with ple := { R.ple with loading := some 15 } }
     s.on ∧ s.ple.loading = some 15 ∧ s.loadCheck 15 ≠ 0) ∧
    (tst 15 8 = false ∧ R.commitState = 0 ∧ (R.setFld (Reg.PLE.SLOT_STATUS 15) 2 0 2).slotState (fld 15 3 0) = 2) ∧
    (let s := R.setFld Reg.PLE.COMMIT_STATUS 2 0 3
     1 ≤ s.commitState ∧ s.commitState ≤ 3) ∧
    (let s : State := { R with ple := { R.ple with checking := some (15, 0xFC0000, 7, true) } }
     s.ple.checking = some (15, 0xFC0000, 7, true) ∧ (s.planCheck (s.parsePlan 15)).1 ≠ 0 ∧ Regs.wf s = true) ∧
    (let s : State := { R with ple := { R.ple with next := some (plan [], 1) }, clock := { R.clock with phase := 0xFC0000 } }
     s.ple.next = some (plan [], 1) ∧ s.clock.epoch.toNat * 2 ^ 24 + s.clock.phase.toNat + 2 ^ 18 ≤ (1 : BitVec 40).toNat * 2 ^ 24) ∧
    (let s : State := { R with ple := { R.ple with next := some (plan [], 1) }, clock := { R.clock with phase := 0xFC0001 } }
     (1 : BitVec 40).toNat * 2 ^ 24 < s.clock.epoch.toNat * 2 ^ 24 + s.clock.phase.toNat + 2 ^ 18) ∧
    R.slotState 15 ≠ 1 ∧ R.slotState 15 ≠ 4 ∧ R.served 255 = false ∧
    (planned (window 0) (winRun .waiting)).served 0 = true := by decide

theorem test_hyps_WindowsOpenFireAndSkip :
    (let s := planned (window 3) (winRun .waiting)
     s.wf = true ∧ s.on ∧ s.ple.plan = some (plan [window 3]) ∧ (plan [window 3]).windows[(0 : BitVec 12).toNat]? = some (window 3) ∧
      s.running U.ple = true ∧ s.ticking = true ∧ (s.win 0).st = .waiting ∧ (window 3).start < 2 ^ 24) ∧
    (let s := timed 0 200 (planned (window 0) (winRun .open))
     s.wf = true ∧ s.fires (plan [window 0]) 0 (window 0) = true ∧ (window 0).kind = 0 ∧ (window 0).srcFrame = false) ∧
    (let s := timed 0 201 (planned (window 0) (winRun .open))
     s.wf = true ∧ (s.win 0).st = .open ∧ (s.win 0).blocked = false ∧ s.fires (plan [window 0]) 0 (window 0) = false ∧
      (window 0).latest + 1 < 2 ^ 24) := by decide

theorem test_hyps_WindowsEnd :
    (let s := timed 0 299 (planned (window 0) (winRun .fired))
     s.wf = true ∧ s.on ∧ s.running U.ple = true ∧ s.ticking = true ∧ (s.win 0).st = .fired ∧ s.workDone 0 (window 0) = true ∧
      s.clock.phase.toNat < (window 0).deadline ∧ (window 0).deadline < 2 ^ 24) ∧
    (let s := planned (window 0) { winRun .open with blocked := true }
     s.wf = true ∧ (s.win 0).st = .open ∧ (s.win 0).blocked = true) ∧
    (let s := planned (window 0) { winRun .forced with left := [U.dec 0], handed := true }
     s.wf = true ∧ (s.win 0).st = .forced ∧ (s.win 0).left ≠ [] ∧ (s.win 0).handed = true) ∧
    T.runState U.ple < 3 := by decide

/-- The moments of those windows are the next events of their plans. -/
theorem test_hyps_Windows_calm :
    (planned (window 3) (winRun .waiting)).calm (eventKey (Nat.max 0 100) 0) ∧
    (timed 0 200 (planned (window 0) (winRun .open))).calm (eventKey 200 0) ∧
    (timed 0 201 (planned (window 0) (winRun .open))).calm (eventKey (Nat.max 201 201) 0) ∧
    (timed 0 299 (planned (window 0) (winRun .fired))).calm (eventKey 299 0) ∧
    (let s := timed 0 300 (planned (window 0) (winRun .fired))
     (s.win 0).st = .fired ∧ ¬(s.workDone 0 (window 0) = true ∧ s.clock.phase.toNat < (window 0).deadline) ∧
      s.calm (eventKey (Nat.max 300 300) 0)) ∧
    (planned (window 0) { winRun .open with blocked := true }).calm (eventKey (Nat.max 0 300) 0) :=
  ⟨calm_of (by decide), calm_of (by decide), calm_of (by decide), calm_of (by decide),
    ⟨by decide, by decide, calm_of (by decide)⟩, calm_of (by decide)⟩

/-- A plan image of `n` empty windows and no other tables, for any period (R55, R56). -/
def image (n : Nat) : Bytes :=
  let h : Bytes := leBytes 4 0x504C4E59 ++ leBytes 2 64 ++ leBytes 2 1 ++ leBytes 4 (64 + 64 * n) ++ leBytes 4 9 ++
    leBytes 4 n ++ List.replicate 8 0 ++ leBytes 4 64 ++ leBytes 4 64 ++ leBytes 4 64 ++ leBytes 4 64 ++ leBytes 4 0 ++
    leBytes 4 0xFFFFFFFF ++ List.replicate 8 0
  let z : Bytes := List.replicate (64 * n) 0
  h ++ leBytes 4 (crc32c (h ++ [0, 0, 0, 0] ++ z)) ++ z

/-- A plan image at device address 0, in slot 15. -/
def imaged (n : Nat) : State := ((ctl warm R).writeMem U.ple 0 (image n)).setReg (Reg.PLE.SLOT_SIZE 15) 128

/-- An image of one window loads, and the check of one with none passes (R72, R76). -/
theorem test_hyps_PlanSlots_accepted : (image 1).length = 128 ∧
    (let s : State := { imaged 1 with ple := { R.ple with loading := some 15 } }
     s.on ∧ s.ple.loading = some 15 ∧ s.loadCheck 15 = 0) ∧
    (let s : State := { imaged 0 with ple := { R.ple with checking := some (15, 0xFC0001, 7, true) } }
     (s.planCheck (s.parsePlan 15)).1 = 0) := by decide +kernel

/-! ### Tile programs (09) -/

/-- An instruction for physical tile 0. -/
def insn (lo w1 w2 w3 : Nat) : TileInsn := ⟨0, 0, BitVec.ofNat 18 lo, BitVec.ofNat 32 w1, BitVec.ofNat 32 w2, BitVec.ofNat 32 w3⟩

/-- A program of one instruction, on logical tile 0, with a readable and writable reference of 4096 bytes at 0 and a swap
region of one block. -/
def tprog (x : TileInsn) (cls op kind : Nat) : TileProg :=
  { win := 0, stream := 0, ltile := 0, insns := [insnWords x cls op], refs := [(0, 4096, 3)], pc := 0, kind := kind, swapTs := 0
    swapUnits := 1, stateKey := 0, stateAddr := 4096, stale := false, started := true, halted := false, ended := false, mark := 0 }

/-- A FIRED window on logical tiles 0 and 1, whose program on physical tile 0 is p; the tile otherwise as y. -/
def tiled (p : TileProg) (y : Tile) : State :=
  let s := up (U.tile 0) (planned { window 2 with tiles := 3, swapOut := true } (winRun .fired))
  { s with tiles := [(0, { y with prog := some p })] }

/-- A tile store with bytes at an address. -/
def stored (a : Nat) (b : Bytes) : Tile := Tile.idle.wr a b

/-- The premises of issue: the state is canonical, and the instruction is the tile's next and may issue. -/
abbrev ready (x : TileInsn) (cls op : Nat) (p : TileProg) (s : State) : Prop := s.wf = true ∧ s.issuesNow x cls op p

/-- An instruction is the next of a program that is on it, with a tile otherwise idle. -/
theorem ready_of {x : TileInsn} {cls op kind : Nat} {y : Tile}
    (h : (let p := tprog x cls op kind
          let s := tiled p y
          s.wf && decide s.on && (U.tile x.tile.toNat).ok && s.has (U.tile x.tile.toNat) &&
            decide (s.progOf x.tile.toNat = some p) && s.mayIssue x.tile.toNat p cls (insnWords x cls op) x.wait) = true) :
    ready x cls op (tprog x cls op kind) (tiled (tprog x cls op kind) y) := by
  simp only [Bool.and_eq_true, decide_eq_true_eq] at h
  exact ⟨h.1.1.1.1.1, h.1.1.1.1.2, h.1.1.1.2, h.1.1.2, h.1.2, h.2⟩

theorem test_hyps_ControlInstructionsIssue :
    (let x := insn 0 0 0 0
     ready x 0 0 (tprog x 0 0 0) (tiled (tprog x 0 0 0) Tile.idle) ∧ x.lo = 0 ∧ noWords x = true) ∧
    (let x := insn 0x3FFFF 0 0 0
     ready x 0 0 (tprog x 0 0 0) (tiled (tprog x 0 0 0) Tile.idle) ∧ x.lo ≠ 0) ∧
    (let x := insn 0 0 0 0
     ready x 0 1 (tprog x 0 1 0) (tiled (tprog x 0 1 0) Tile.idle) ∧ x.lo = 0 ∧ noWords x = true ∧
       ((tiled (tprog x 0 1 0) Tile.idle).tileOf 0).drained = true) ∧
    (let x := insn 4 0 0 0
     ready x 0 2 (tprog x 0 2 0) (tiled (tprog x 0 2 0) Tile.idle) ∧ x.lo.toNat ≤ 4 ∧ noWords x = true) ∧
    (let x := insn 15 1 0 0
     ready x 0 3 (tprog x 0 3 0) (tiled (tprog x 0 3 0) Tile.idle) ∧ x.lo.toNat < 16 ∧ x.w2 = 0 ∧ x.w3 = 0) ∧
    (let x := insn 0 0 0 0
     let p := tprog x 0 4 3
     ready x 0 4 p (tiled p Tile.idle) ∧ emitCheck x (tiled p Tile.idle) 0 p = 0) := by
  refine ⟨⟨ready_of (by decide), by decide, by decide⟩, ⟨ready_of (by decide), by decide⟩,
    ⟨ready_of (by decide), by decide, by decide, by decide⟩, ⟨ready_of (by decide), by decide, by decide⟩, ⟨ready_of (by decide), by decide, by decide, by decide⟩,
    ready_of (by decide), by decide⟩

/-- A wait for 0 ends at once, the lowest VALUE (R253). -/
theorem test_hyps_ControlInstructions_release :
    let x := insn 0 0 0 0
    let s := tiled (tprog x 0 0 0) { Tile.idle with waitCtr := some (15, 0) }
    s.on ∧ (U.tile 0).ok = true ∧ s.has (U.tile 0) = true ∧ s.progOf 0 = some (tprog x 0 0 0) ∧
      s.tileWorks 0 (tprog x 0 0 0) = true ∧ (s.tileOf 0).waitCtr = some (15, 0) ∧
      (0 : Word).toNat ≤ (s.reg (Reg.TILE.ARRIVAL 0 15)).toNat := by decide

/-- An unknown control class bit stops the program: cause 2 and the window in LAST_INVALID (R239, Table 9.11). -/
theorem test_nop_reserved :
    let x := insn 1 0 0 0
    (match exec (.nop x) (tiled (tprog x 0 0 0) Tile.idle) with | .next u => u.reg (Reg.TILE.LAST_INVALID 0) | _ => 0) =
      0x82000000 := by decide

/-- One instruction of each unit in flight. -/
def flew (g : UnitOp) : Tile :=
  match g with
  | .matrix .. => { Tile.idle with qMatrix := [⟨0, g⟩] }
  | .vector => { Tile.idle with qVector := [⟨0, g⟩] }
  | .sendOp .. => { Tile.idle with qFabric := [⟨0, g⟩] }
  | _ => { Tile.idle with qXfer := [⟨0, g⟩] }

/-- The premises of a beat or a completion. -/
theorem flying_of {c : Nat} {p : TileProg} {g : UnitOp}
    (h : (let s := tiled p (flew g)
          decide s.on && (U.tile 0).ok && s.has (U.tile 0) && decide (s.progOf 0 = some p) &&
            decide (((s.tileOf 0).queue c).head? = some ⟨0, g⟩) && s.tileWorks 0 p) = true) :
    (tiled p (flew g)).flying 0 c p ⟨0, g⟩ := by
  simp only [Bool.and_eq_true, decide_eq_true_eq] at h
  exact ⟨h.1.1.1.1.1, h.1.1.1.1.2, h.1.1.1.2, h.1.1.2, h.1.2, h.2⟩

theorem test_hyps_TransfersMoveBlocks :
    (let x := insn 0 0 0 0xFFFF0001
     ready x 3 0 (tprog x 3 0 1) (tiled (tprog x 3 0 1) Tile.idle) ∧ xferCheck x false (tprog x 3 0 1) = 0) ∧
    (let x := insn 0 0 4032 0xFFFF0001
     ready x 3 1 (tprog x 3 1 1) (tiled (tprog x 3 1 1) Tile.idle) ∧ xferCheck x true (tprog x 3 1 1) = 0) ∧
    (let p := tprog (insn 0 0 0 0) 0 0 1
     (tiled p (flew (.loadOp 0 0 1 (some 15)))).wf = true ∧
     (tiled p (flew (.loadOp 0 0 1 (some 15)))).flying 0 3 p ⟨0, .loadOp 0 0 1 (some 15)⟩ ∧
     (tiled p (flew (.sendOp 1 0 0 1 15 1 0))).wf = true ∧
     (tiled p (flew (.sendOp 1 0 0 1 15 1 0))).flying 0 4 p ⟨0, .sendOp 1 0 0 1 15 1 0⟩ ∧
     (tiled p (flew (.loadOp 0 0 0 none))).flying 0 3 p ⟨0, .loadOp 0 0 0 none⟩ ∧
     (tiled p (flew (.storeOp 0 0 1))).flying 0 3 p ⟨0, .storeOp 0 0 1⟩ ∧
     (tiled p (flew (.sendOp 1 0 0 0 15 1 0))).flying 0 4 p ⟨0, .sendOp 1 0 0 0 15 1 0⟩) ∧
    (let x := insn 0 0x040F0100 0 1
     ready x 4 0 (tprog x 4 0 1) (tiled (tprog x 4 0 1) Tile.idle) ∧
       sendCheck x (tiled (tprog x 4 0 1) Tile.idle) (tprog x 4 0 1) = 0) := by
  refine ⟨⟨ready_of (by decide), by decide⟩, ⟨ready_of (by decide), by decide⟩, ⟨by decide, flying_of (by decide), by decide,
    flying_of (by decide), flying_of (by decide), flying_of (by decide), flying_of (by decide)⟩, ready_of (by decide), by decide⟩

/-- A 1 by 1 by 1 INT8 operation: W, X, Y at 128, 192 and 256, its epilogue descriptor at 64 (Table 9.4). -/
def mopStore (fused : Bool) : Tile :=
  stored 0 (leBytes 4 (0x06660000 + if fused then 1 else 0) ++ leBytes 4 0x10000 ++ leBytes 4 1 ++ leBytes 4 1 ++
    leBytes 4 0x00020003 ++ leBytes 4 0x00040001)

/-- The descriptors that MOP reads there; MODE 1 in place of MAC unless `mac`. -/
def mopGot (fused mac : Bool) : MopDesc :=
  let x := insn 0 0 0 0
  let d := ((tiled (tprog x 1 0 1) (mopStore fused)).stageMark 0).mopDesc 0 x
  if mac then d else { d with opd := d.opd.set 3 0x26 }

/-- How far an operation of one pass of one vector has come. -/
def runOf (entered pass loads : Nat) : MopRun :=
  { MopRun.start with entered := entered, pass := pass, loads := loads, fronts := 1, kept := [⟨0, [[[0]]], []⟩] }

/-- The operation in flight, on a tile otherwise as y. -/
def mopping (d : MopDesc) (r : MopRun) (y : Tile) : State :=
  (tiled (tprog (insn 0 0 0 0) 1 0 1) { y with qMatrix := [⟨0, .matrix d r⟩] }).setReg (Reg.TILE.ARRIVAL 0 0) 1

/-- The premises of its events. -/
theorem mopping_of {d : MopDesc} {r : MopRun} {y : Tile}
    (h : (let s := mopping d r y
          s.wf && decide s.on && (U.tile 0).ok && s.has (U.tile 0) && decide (s.progOf 0 = some (tprog (insn 0 0 0 0) 1 0 1)) &&
            decide (((s.tileOf 0).queue 1).head? = some ⟨0, .matrix d r⟩) && s.tileWorks 0 (tprog (insn 0 0 0 0) 1 0 1)) = true) :
    (mopping d r y).wf = true ∧ (mopping d r y).flying 0 1 (tprog (insn 0 0 0 0) 1 0 1) ⟨0, .matrix d r⟩ := by
  simp only [Bool.and_eq_true, decide_eq_true_eq] at h
  exact ⟨h.1.1.1.1.1.1, h.1.1.1.1.1.2, h.1.1.1.1.2, h.1.1.1.2, h.1.1.2, h.1.2, h.2⟩

theorem test_hyps_MatrixOperationsRun :
    (let x := insn 0 0 0 0
     let p := tprog x 1 0 1
     let y : Tile := { mopStore false with qMatrix := [⟨0, .matrix (mopGot false true) (runOf 0 0 0)⟩] }
     ready x 1 0 p (tiled p (mopStore true)) ∧ ready x 1 0 p (tiled p (mopStore false)) ∧ ready x 1 0 p (tiled p y) ∧
       x.lo = 0 ∧ dirty x.w1 15 0 = false ∧ ((tiled p (mopStore true)).tileOf 0).qMatrix = [] ∧ ((tiled p y).tileOf 0).qMatrix ≠ []) ∧
    (∀ fused, let x := insn 0 0 0 0
      let b := ((tiled (tprog x 1 0 1) (mopStore fused)).stageMark 0).mopBytes 0 x
      mopCause b.1 b.2.1 b.2.2 = 0) ∧
    (let d := mopGot true true
     ((mopping d (runOf 0 0 0) Tile.idle).wf = true ∧
       (mopping d (runOf 0 0 0) Tile.idle).flying 0 1 (tprog (insn 0 0 0 0) 1 0 1) ⟨0, .matrix d (runOf 0 0 0)⟩) ∧
     d.op.fuseEn = true ∧ vectorsOf d.passes = 1 ∧
     d.op.fuseNeed d.skip 0 ≤ ((mopping d (runOf 0 0 0) Tile.idle).reg (Reg.TILE.ARRIVAL 0 d.op.fuseCtr)).toNat ∧ d.op.fuseCtr < 16 ∧
     ((mopping d (runOf 1 0 0) Tile.idle).wf = true ∧
       (mopping d (runOf 1 0 0) Tile.idle).flying 0 1 (tprog (insn 0 0 0 0) 1 0 1) ⟨0, .matrix d (runOf 1 0 0)⟩)) ∧
    (∀ pass < 2, let d := mopGot false true
     let r := runOf 0 pass 1
     d.op.fuseEn = false ∧ d.passes.length = 1 ∧ ((mopping d r Tile.idle).tileOf 0).retrying = []) ∧
    (let d := mopGot false true
     let s := mopping d (runOf 0 1 1) Tile.idle
     s.wf = true ∧ s.flying 0 1 (tprog (insn 0 0 0 0) 1 0 1) ⟨0, .matrix d (runOf 0 1 1)⟩) := by
  refine ⟨⟨ready_of (by decide), ready_of (by decide), ready_of (by decide), by decide, by decide, by decide, by decide⟩, by decide,
    ⟨mopping_of (by decide), by decide, by decide, by decide, by decide, mopping_of (by decide)⟩,
    by decide, mopping_of (by decide)⟩

/-- A swap image of 64 bytes with a complete stamp of epoch 1 at device address 4096 (Table 9.10). -/
def copied (s : State) : State :=
  let d : Bytes := List.replicate 64 0xA5
  (ctl warm s).writeMem (U.tile 0) 4096 (d ++ stateStamp 1 0 1 0 (crc32c d))

theorem test_hyps_SwapMovesTileState :
    (let p := { tprog (insn 0 0 0 0) 0 0 0 with started := false }
     let s := tiled p Tile.idle
     s.wf = true ∧ s.on ∧ (U.tile 0).ok = true ∧ s.has (U.tile 0) = true ∧ s.progOf 0 = some p ∧ s.tileWorks 0 p = true ∧
     p.started = false ∧ p.halted = false ∧ s.newerState p = none) ∧
    (let p := { tprog (insn 0 0 0 0) 0 0 0 with started := false }
     let s := copied (tiled p Tile.idle)
     s.wf = true ∧ s.on ∧ s.progOf 0 = some p ∧ s.tileWorks 0 p = true ∧ s.newerState p = some 0 ∧
     (s.readStamps 0 p).poisoned 4096 64 = false ∧
       crc32c ((s.readStamps 0 p).readMem 4096 64) = leNat ((s.readStamps 0 p).readMem (4096 + 64 + 16) 4)) ∧
    (let p := { tprog (insn 0 0 0 0) 0 1 0 with ended := true }
     let s := tiled p Tile.idle
     s.wf = true ∧ s.on ∧ s.progOf 0 = some p ∧ s.planWin p.win.toNat = some { window 2 with tiles := 3, swapOut := true } ∧
     s.tileWorks 0 p = true ∧ p.ended = true ∧ p.halted = false ∧ (s.tileOf 0).drained = true ∧
     s.owesSwapOut { window 2 with tiles := 3, swapOut := true } 0 = true) := by decide +kernel

/-! ### Vector instructions (09) -/

theorem test_hyps_LaneArithmeticWritesVd : ∀ op ∈ [0x04, 0x05, 0x06, 0x07, 0x08, 0x09, 0x0A, 0x0B, 0x0C, 0x0D, 0x0E, 0x0F],
    let x := insn 0 0xFF400000 0 0
    ready x 2 op (tprog x 2 op 1) (tiled (tprog x 2 op 1) Tile.idle) ∧ x.lo.toNat % 2 ^ 17 = 0 ∧ fld x.w3 15 0 = 0 ∧
      vint x = false := by
  intro op h
  simp only [List.mem_cons, List.not_mem_nil, or_false] at h
  rcases h with h | h | h | h | h | h | h | h | h | h | h | h <;> subst h <;>
    exact ⟨ready_of (by decide), by decide, by decide, by decide⟩

theorem test_hyps_VectorLoadsAndStores : ∀ op ∈ [0x00, 0x01, 0x02, 0x03, 0x15, 0x16, 0x10, 0x11],
    let x := insn 0 0 0 0xFFF00000
    ready x 2 op (tprog x 2 op 1) (tiled (tprog x 2 op 1) Tile.idle) ∧ x.lo.toNat % 2 ^ 17 = 0 ∧ fld x.w3 15 0 = 0 ∧
      vts x + 1024 ≤ 0x400000 ∧ vts x + fmtBytes (vfmt x) 256 ≤ 0x400000 ∧ vzp x = 0 := by
  intro op h
  simp only [List.mem_cons, List.not_mem_nil, or_false] at h
  rcases h with h | h | h | h | h | h | h | h <;> subst h <;>
    exact ⟨ready_of (by decide), by decide, by decide, by decide, by decide, by decide⟩

/-- A tile store with a parameter block at 0. -/
def params (l : List Nat) : Tile := stored 0 (l.flatMap fun w => leBytes 4 w)

/-- SKIPMASK's block: one block of positions, statistics at 4096, map at 8192. -/
def skipParams : Tile := params [0x00400080, 0x00010001, 0x00010000, 0x00600000]

theorem test_hyps_ReductionsAndComposites :
    (∀ op ∈ [0x12, 0x13, 0x14], ready (insn 0 0 0 0) 2 op (tprog (insn 0 0 0 0) 2 op 1)
      (tiled (tprog (insn 0 0 0 0) 2 op 1) Tile.idle)) ∧
    (Tile.idle.lanes 0).any isNan = false ∧
    (let x := insn 0 0 0 0
     let p := tprog x 2 0x14 1
     let y : Tile := { Tile.idle with vreg := [(255, 0x7FC00000)] }
     ready x 2 0x14 p (tiled p y) ∧ ((tiled p y).tileOf 0).lane 0 255 = 0x7FC00000) := by
  refine ⟨?_, by decide +kernel, ready_of (by decide), by decide⟩
  intro op h
  simp only [List.mem_cons, List.not_mem_nil, or_false] at h
  rcases h with h | h | h <;> subst h <;> exact ready_of (by decide)

theorem test_hyps_Composites :
    (let x := insn 0 0 0 0
     let y := params [0x00100020, 1, 1]
     let p := tprog x 2 0x20 1
     ready x 2 0x20 p (tiled p y) ∧ ((tiled p y).stageMark 0).paramsFrom 0 x 3 = false ∧
       ((tiled p y).stageMark 0).param 0 x 1 = 1 ∧ ((tiled p y).stageMark 0).param 0 x 2 = 1 ∧ vts x + 64 ≤ 0x400000 ∧
       64 * bitsOf (((tiled p y).stageMark 0).param 0 x 0) 31 16 + 4 * 1 ≤ 0x400000 ∧
       64 * bitsOf (((tiled p y).stageMark 0).param 0 x 0) 15 0 + 8 * 1 ≤ 0x400000) ∧
    (let x := insn 0 0 0 0
     let y := params [0x00100020, 1, 0, 1]
     let p := tprog x 2 0x21 1
     ready x 2 0x21 p (tiled p y) ∧ ((tiled p y).stageMark 0).paramsFrom 0 x 4 = false ∧
       ((tiled p y).stageMark 0).param 0 x 3 = 1 ∧ ((tiled p y).stageMark 0).param 0 x 1 = 1) ∧
    (let x := insn 0 0 0 0
     let y := params [0x00100020, 0x04000400, 0]
     let p := tprog x 2 0x22 1
     ready x 2 0x22 p (tiled p y) ∧ ((tiled p y).stageMark 0).paramsFrom 0 x 3 = false ∧
       bitsOf (((tiled p y).stageMark 0).param 0 x 1) 31 16 = 1024 ∧ bitsOf (((tiled p y).stageMark 0).param 0 x 1) 15 0 = 1024) ∧
    (let x := insn 0 0 0 0
     let y := params [0x00100020, 0x00010004, 0]
     let p := tprog x 2 0x23 1
     ready x 2 0x23 p (tiled p y) ∧ ((tiled p y).stageMark 0).paramsFrom 0 x 3 = false) ∧
    (let x := insn 0 0 0 0
     let p := tprog x 2 0x24 4
     let m := (tiled p skipParams).stageMark 0
     let q := m.skipParams 0 x
     ready x 2 0x24 p (tiled p skipParams) ∧ m.paramsFrom 0 x 4 = false ∧ m.param 0 x 2 % 65536 = 0 ∧ m.param 0 x 3 % 65536 = 0 ∧
       q.flog2 ≤ 6 ∧ q.margin ≤ 7 ∧ 1 ≤ q.refresh ∧ q.stats + 64 ≤ 0x400000 ∧
       (m.skipHeaderOk 0 q 0 0 = true → q.cx + 2 * m.cxPitch 0 q * (m.cxDims 0 q).2 ≤ 0x400000) ∧ q.out + ceilDiv q.blocks 8 ≤ 0x400000) := by
  refine ⟨⟨ready_of (by decide), ?_⟩, ⟨ready_of (by decide), ?_⟩, ⟨ready_of (by decide), ?_⟩, ⟨ready_of (by decide), ?_⟩,
    ready_of (by decide), ?_⟩ <;> decide

theorem test_hyps_VectorComplete : (tiled (tprog (insn 0 0 0 0) 0 0 1) (flew .vector)).flying 0 2 (tprog (insn 0 0 0 0) 0 0 1)
    ⟨0, .vector⟩ := flying_of (by decide)

/-- 1.5 + 2.25 = 3.75 and 1.5 × 2.25 = 3.375 in FP32; INT32 wraps; a half tie goes to even (R203). -/
theorem test_lane_arithmetic : f32Add 0x3FC00000 0x40100000 = 0x40700000 ∧ f32Mul 0x3FC00000 0x40100000 = 0x40580000 ∧
    f32Sub 0x3F800000 0x3F800000 = 0 ∧ f32Fma 0x40000000 0x40400000 0xC0C00000 = 0 ∧ i32ToF32 0x01000001 = 0x4B800000 ∧
    f32ToI32 0x40200000 = 2 := by decide

/-! ### Mirror column and repair (10) -/

/-- The operand that the operation's front loaded. -/
def kept0 : Retained := ⟨0, [[[0]]], []⟩

/-- A check of the operation of one element: 0 SUM and 2 DUP of its vector, 1 LOAD of its front. -/
def checkDesc (check : Nat) : MopDesc := mopGot false (check != 2)

/-- A state in which the check's verdict is next. -/
def checking (check : Nat) (y : Tile) : State := mopping (checkDesc check) (runOf 0 0 (if check = 1 then 0 else 1)) y

/-- The premises of a verdict. -/
def dueB (check : Nat) (y : Tile) : Bool :=
  let s := checking check y
  let d := checkDesc check
  decide (s.nextCheck 0 = some (check, 0, 0)) && d.passes.length == 1 &&
    decide ((runOf 0 0 (if check = 1 then 0 else 1)).kept.find? (fun k => k.pass == 0) = some kept0)

theorem checking_of {check : Nat} {y : Tile}
    (h : (let s := checking check y
          s.wf && decide s.on && (U.tile 0).ok && s.has (U.tile 0) && decide (s.progOf 0 = some (tprog (insn 0 0 0 0) 1 0 1)) &&
            decide (((s.tileOf 0).queue 1).head? = some ⟨0, .matrix (checkDesc check) (runOf 0 0 (if check = 1 then 0 else 1))⟩) &&
            s.tileWorks 0 (tprog (insn 0 0 0 0) 1 0 1)) = true) :
    (checking check y).wf = true ∧ (checking check y).flying 0 1 (tprog (insn 0 0 0 0) 1 0 1)
      ⟨0, .matrix (checkDesc check) (runOf 0 0 (if check = 1 then 0 else 1))⟩ := mopping_of h

/-- The operation's pass. -/
def pass0 (check : Nat) : Pass := (checkDesc check).passes.getD 0 default

/-- A vector's verdict as CheckVerdictsDecideReplay computes it. -/
def vecVerdict (check : Nat) (u : ColUpset) : Verdict :=
  let o := (checkDesc check).op
  let b := (Tile.idle.streamVec o (Prd.ofBytes (checkDesc check).prd) (pass0 check) 0).map (·.vs)
  o.vectorVerdict (pass0 check) 0 0 (o.valuesOf kept0.operand) b (upsetCols (o.columns (pass0 check) 0 (o.valuesOf kept0.cells) b) u) u

/-- Each check falls due first, as a replay, after a REPEATED outcome and under an injection; with nothing upset it passes, with
column 0 or the sum row upset it fails. -/
theorem test_hyps_CheckVerdictsDecideReplay :
    (∀ check < 3, dueB check Tile.idle = true ∧ dueB check { Tile.idle with repeated := true } = true ∧
      dueB check { Tile.idle with inj := some ⟨check, 0, true, true⟩ } = true ∧
      dueB check { Tile.idle with retrying := [⟨check, 0, 0, false, false, false⟩] } = true ∧
      dueB check { Tile.idle with retrying := [⟨check, 0, 0, true, true, true⟩] } = true) ∧
    (∀ check ∈ [0, 2], (vecVerdict check ColUpset.none).pass = true ∧
      (vecVerdict check { ColUpset.none with cols := [(0, 0x3F800000)] }).pass = false) ∧
    ((checkDesc 1).op.frontVerdict kept0 LoadUpset.none).pass = true ∧
    ((checkDesc 1).op.frontVerdict kept0 { LoadUpset.none with sumRow := some 0x3F800000 }).pass = false := by decide

/-- The state and the tile of those witnesses are well formed, with the operation in flight. -/
theorem test_hyps_CheckVerdicts_flying :
    ((checking 0 Tile.idle).wf = true ∧ (checking 0 Tile.idle).flying 0 1 (tprog (insn 0 0 0 0) 1 0 1) ⟨0, .matrix (checkDesc 0) (runOf 0 0 1)⟩) ∧
    ((checking 1 { Tile.idle with retrying := [⟨1, 0, 0, true, true, false⟩] }).wf = true ∧
      (checking 1 { Tile.idle with retrying := [⟨1, 0, 0, true, true, false⟩] }).flying 0 1 (tprog (insn 0 0 0 0) 1 0 1)
        ⟨0, .matrix (checkDesc 1) (runOf 0 0 0)⟩) ∧
    ((checking 2 { Tile.idle with repeated := true }).wf = true ∧
      (checking 2 { Tile.idle with repeated := true }).flying 0 1 (tprog (insn 0 0 0 0) 1 0 1)
        ⟨0, .matrix (checkDesc 2) (runOf 0 0 1)⟩) := by
  refine ⟨checking_of (by decide), checking_of (by decide), checking_of (by decide)⟩

/-- |s_Y - s_M| may be A 2^-14 + NCOLS 2^-24, and no more (R263). -/
theorem test_sum_tolerance : (sumVerdict 0 0x3F800000 0x3F800400 0x40000000).pass = true ∧
    (sumVerdict 0 0x3F800000 0x3F800401 0x40000000).pass = false ∧ (sumVerdict 1 0x3F800000 0x3F800401 0x40000000).pass = false ∧
    (sumVerdict 2 0x3F800000 0x3F800401 0x40000000).pass = true := by decide

/-- AUTO 1, at the boundary of epoch 2, with tile 1 flagged in epoch 0 and rows as given. -/
def flagging (r : RepairRow) : State :=
  let s := (T.setBit Reg.PFB.REPAIR_CTRL 0).setNum (Reg.TILE.SUSPECT 1) (2 ^ 31 + 2 ^ 30)
  { s with fabric := { s.fabric with rows := r :: s.fabric.rows.tail, autoFrom := none }, clock := { s.clock with epoch := 2 }
           tiles := [(1, { Tile.idle with flagEpoch := some 0 })] }

theorem test_hyps_RowRepairMovesTheGap :
    (let s := flagging ⟨8, true, false, false⟩
     s.wf = true ∧ s.on ∧ s.atBoundary = true ∧ s.autoRepair = true ∧ s.fabric.rows.length = 8 ∧
       (∀ r, r < 8 → (s.row r).gap ≤ 8) ∧ 0 < s.fuses.rows ∧ 1 ≠ (s.row 0).gap ∧ s.flagActs s.clock.epoch.toNat 1 = true ∧
       (s.row 0).spareFree = true ∧ s.flagged 8 = false ∧ (∀ d, d < 9 → d ≠ 1 → s.flagActs s.clock.epoch.toNat d = false)) ∧
    (let s := flagging ⟨0, false, false, false⟩
     s.wf = true ∧ s.flagActs s.clock.epoch.toNat 1 = true ∧ (s.row 0).spareFree = false) ∧
    (T.on ∧ (U.tile 71).ok = true ∧ T.has (U.tile 71) = true ∧ T.atBoundary = true ∧
      T.clock.epoch.toNat % Nat.max 1 (T.rfld (Reg.TILE.RETRY_CFG 71) 31 16) = 0 ∧ (T.tileOf 71).decayed ≠ some T.clock.epoch ∧
      T.rfld (Reg.TILE.TRANS_LEVEL 71) 7 0 = 0 ∧
      (T.setNum (Reg.TILE.TRANS_LEVEL 71) 255).rfld (Reg.TILE.TRANS_LEVEL 71) 7 0 ≠ 0) ∧
    (R.bus ∧ R.live? (U.tile 71) ∧ R.rbit (Reg.TILE.MIRROR_INJ 71) 31 = false ∧ tst 0x80000000 31 = true ∧
      (R.setBit (Reg.TILE.MIRROR_INJ 71) 31).rbit (Reg.TILE.MIRROR_INJ 71) 31 = true) ∧
    (fld 0xA5000047 31 24 = 0xA5 ∧ fld 0xA5000047 6 0 = 71 ∧ R.flagged 71 = false ∧ R.runState (U.tile 71) ≠ 4 ∧
      fld 0xA4000047 31 24 ≠ 0xA5 ∧ 72 ≤ fld 0xA5000048 6 0) := by
  refine ⟨⟨by decide, by decide, by decide, by decide, by decide, by decide, by decide, by decide, by decide, by decide,
    by decide, by decide⟩, by decide, by decide, by decide, by decide⟩

/-- Retiring column 1 of row 0 moves its gap there, and the logical tiles from column 1 on serve one column further (R275). -/
theorem test_repair : (match exec .repair (flagging ⟨8, true, false, false⟩) with
    | .next u => (u.runState (U.tile 1), (u.row 0).gap, u.physTile 0, u.physTile 1, u.physTile 7)
    | _ => (0, 0, 0, 0, 0)) = (4, 1, 0, 2, 8) := by decide

/-! ### Network ingress (03) -/

/-- An untagged frame of 64 bytes of an EtherType, with its FCS. -/
def frame (ety : Nat) : Bytes :=
  let b : Bytes := List.replicate 12 0 ++ beBytes 2 ety ++ List.replicate 46 0
  b ++ fcsOf b

/-- A context's state put. -/
def scxd (n : Nat) (x : Scx) (s : State) : State := { s with scx := [(n, x)] }

theorem test_hyps_FramesAndPolicing :
    (let s := ((up U.ing (ported 11 T)).setNum Reg.TMU.SYNC_CFG (11 * 2 ^ 16)).setNum Reg.DEVCTL.PAIR_CFG (2 ^ 31 + 11 * 2 ^ 24)
     s.wf = true ∧ s.on ∧ s.has (U.nix 11) = true ∧ s.running (U.nix 11) = true ∧ s.linkUp 11 = true ∧
       11 = fld (s.reg Reg.TMU.SYNC_CFG) 19 16 ∧ tst (s.reg Reg.DEVCTL.PAIR_CFG) 31 = true ∧
       11 = fld (s.reg Reg.DEVCTL.PAIR_CFG) 27 24 ∧ s.running U.ing = true) ∧
    fcsOk [] = false ∧ fcsOk (frame 0x0800) = true ∧ twoTags (frame 0x0800) = false ∧ (parseEth (frame 0x0800)).etype = 0x0800 ∧
    (parseEth (frame 0x88F7)).etype = 0x88F7 ∧ (parseEth (frame 0x88B5)).etype = 0x88B5 ∧ fcsOk (frame 0x88F7) = true ∧
    fcsOk (frame 0x88B5) = true ∧ (frame 0x0800).length = 64 ∧
    ((R.setNum (Reg.NIX.MAX_FRAME 11) 63).rfld (Reg.NIX.MAX_FRAME 11) 13 0 < 64) ∧
    (let s : State := { T.setNum (Reg.SCX.STATE 255) 1 with clock := { T.clock with refilled := 255 } }
     s.wf = true ∧ s.on ∧ s.ticking = true ∧ s.clock.refilled = (255 : BitVec 8).toNat ∧ s.streamState 255 ≠ 0) := by decide +kernel

/-- A packet held since epoch 0, phase 0. -/
def pkt : Packet := { (default : Packet) with seq := 2 }

theorem test_hyps_IngressTimers :
    (let s := scxd 255 { Scx.free with next := some 1, held := [pkt] } (timed 0 0xFFFF (T.setNum Reg.ING.REORDER_TIMEOUT 0xFFFF))
     s.on ∧ firstHeld (s.scxOf 255).held = some pkt ∧
       s.afterPu pkt.epoch pkt.phase (s.rfld Reg.ING.REORDER_TIMEOUT 23 0) = some s) ∧
    (let s := scxd 255 { Scx.free with asm := some default } (timed 0 0xFFFF (T.setNum Reg.ING.REORDER_TIMEOUT 0xFFFF))
     s.wf = true ∧ s.on ∧ (s.scxOf 255).asm = some default ∧ (s.scxOf 255).held = [] ∧
       s.afterPu (default : Assembly).lastEpoch (default : Assembly).lastPhase (s.rfld Reg.ING.REORDER_TIMEOUT 23 0) = some s) ∧
    (let s := scxd 255 { Scx.free with gaps := [7] } (T.setNum (Reg.SCX.STREAM_CFG 255) 0x80)
     s.wf = true ∧ s.on ∧ tst (s.streamCfg 255) 7 = true ∧ (s.scxOf 255).gaps ≠ [] ∧ s.rtcpPort 255 = none) ∧
    (let d : RtcpDest := { (default : RtcpDest) with port := 11 }
     let s := scxd 255 { Scx.free with gaps := [7], rtcp := some d } ((ported 11 T).setNum (Reg.SCX.STREAM_CFG 255) 0x80)
     s.wf = true ∧ s.rtcpPort 255 = some d) ∧
    (let d : RtcpDest := { (default : RtcpDest) with port := 11 }
     let s := scxd 255 { Scx.free with rtcp := some d } (((ported 11 T).setNum (Reg.SCX.STATE 255) 2).setNum Reg.ING.RTCP_CFG 0x10000)
     let s : State := { s with clock := { s.clock with epoch := 1 } }
     s.wf = true ∧ s.on ∧ s.streamState 255 ≠ 0 ∧ 0 < s.rfld Reg.ING.RTCP_CFG 23 16 ∧
       s.rfld Reg.ING.RTCP_CFG 23 16 ≤ s.clock.epoch.toNat - (s.scxOf 255).lastRr.toNat ∧ s.rtcpPort 255 = some d) ∧
    (let s := scxd 255 { Scx.free with latched := true, history := [[{ (default : HeardSsrc) with ssrc := 7 }]] }
       ((T.setNum (Reg.SCX.STATE 255) 3).setNum (Reg.SCX.STREAM_CFG 255) 0x10000)
     s.wf = true ∧ s.on ∧ s.ssrcCandidate 255 = some 7 ∧ s.streamState 255 ≠ 0 ∧ s.clock.phase = 0 ∧ s.streamState 255 = 3) := by
  decide +kernel

/-- Policing shares of rate 1000: none is lost, and step 255 carries the remainder (R100). -/
theorem test_refill : refillStep 1000 0 = 3 ∧ refillStep 1000 255 = 4 ∧ refillStep 256 7 = 1 := by decide

theorem test_hyps_StreamCommandsMoveStates :
    (let s := (up (U.scx 255) (sealed R)).setNum (Reg.SCX.MAX_AU 255) 1
     s.wf = true ∧ s.bus ∧ s.live? (U.scx 255) ∧ s.streamState 255 = 0 ∧ s.running (U.scx 255) = true ∧ s.isSealed = true ∧
       s.tpe 255 % s.phi 255 = 0 ∧ s.rfld (Reg.SCX.MAX_AU 255) 23 0 ≠ 0) ∧
    (up (U.scx 255) (sealed R)).rfld (Reg.SCX.MAX_AU 255) 23 0 = 0 ∧
    (R.setNum (Reg.SCX.STATE 255) 2).streamState 255 = 2 ∧ (R.setNum (Reg.SCX.STATE 255) 3).streamState 255 = 3 ∧
    (let s := R.setNum (Reg.SCX.STATE 255) 1
     s.wf = true ∧ s.live? (U.scx 255) ∧ s.streamState 255 = 1 ∧ s.served 255 = false) ∧
    (R.setNum (Reg.SCX.STATE 255) 4).streamState 255 = 4 ∧ (planned (window 0) (winRun .waiting)).served 0 = true := by decide

theorem test_hyps_PortLinksTrain :
    R.wf = true ∧ R.on ∧ R.has (U.nix 11) = true ∧ (up (U.nix 11) R).running (U.nix 11) = true ∧ R.linkState 11 = 0 ∧
    (∀ k ∈ [1, 2, 3, 4], (R.setFld (Reg.NIX.LINK_STATUS 11) 2 0 k).linkState 11 = k ∧
      (R.setFld (Reg.NIX.LINK_STATUS 11) 2 0 k).wf = true) ∧ R.portClockLost 11 = false ∧
    (R.setBit Reg.DEVCTL.CLK_STATUS 1).portClockLost 11 = true ∧ (R.setBit Reg.DEVCTL.CLK_STATUS 1).portClockLost 7 = false := by
  decide

/-! ### Cell pool (04) -/

/-- A running CPM with one 2 KiB buffer and one 1 MiB buffer. -/
def pool : State := ((up U.cpm R).setNum (Reg.CPM.CLASS_COUNT 0) 1).setNum (Reg.CPM.CLASS_COUNT 3) 1

/-- A request for n bytes under way. -/
def asked (n : Nat) (s : State) : State := { s with cpm := { s.cpm with req := some n } }

theorem test_hyps_CellPoolGrantsAndReturns :
    (pool.bus ∧ pool.running U.cpm = true ∧ pool.rfld Reg.CPM.ALLOC_STATUS 2 0 ≠ 1 ∧
      (pool.setFld Reg.CPM.ALLOC_STATUS 2 0 1).rfld Reg.CPM.ALLOC_STATUS 2 0 = 1 ∧ R.running U.cpm = false) ∧
    ((asked 0 pool).wf = true ∧ (asked 0 pool).cpm.req = some 0) ∧
    (classFor 2048 = 0 ∧ classFor 2049 = 1 ∧ classFor 1048576 = 3 ∧ pool.classCount 0 = 1 ∧ pool.bufOwner 0 0 = 0 ∧
      pool.classCount 1 = 0 ∧ pool.classCount 3 = 1 ∧ pool.bufOwner 3 0 = 0) ∧
    (let s := pool.setBuf 0 0 1
     s.bufOwner 0 0 ≠ 0 ∧ ((BitVec.ofNat 32 1048576 : Word).toNat + 2 ^ 32 * fld s.cpm.freeHi 4 0 =
       s.cellAddr (s.classStart 0 + 0 * classCells 0)) ∧ s.cellAddr s.chainStart ≤ 1050624) ∧
    (let s : State := { pool with cpm := { pool.cpm with asked := [⟨0, 0, 0, 0⟩] } }
     s.on ∧ s.cpm.asked = ⟨0, 0, 0, 0⟩ :: [] ∧ s.cpm.walking = [] ∧ s.running U.cpm = true) ∧
    (∀ c : Fin 2, let s : State := { pool with cpm := { pool.cpm with walking := [(⟨0, 0, 0, 0⟩, c.val, [5])] } }
      s.wf = true ∧ s.on ∧ s.cpm.walking = [(⟨0, 0, 0, 0⟩, c.val, [5])] ∧ s.running U.cpm = true) := by decide

/-- A request of 2049 bytes with no 16 KiB class is EMPTY, one of 2048 gets the 2 KiB buffer (R117, R122, Table 4.5). -/
theorem test_alloc : (match exec .allocDone (asked 2049 pool) with
      | .next u => u.rfld Reg.CPM.ALLOC_STATUS 2 0 | _ => 0) = 3 ∧
    (match exec .allocDone (asked 2048 pool) with
      | .next u => (u.rfld Reg.CPM.ALLOC_STATUS 2 0, u.reg Reg.CPM.ALLOC_ADDR_LO) | _ => (0, 0)) = (2, 0x100000) := by decide

/-! ### Decode, lens, records (05, 06, 11) -/

/-- A picture under work. -/
def pic : PicRun := ⟨default, 0, 0, 0, default, false, [], [], [], [], [], 0, 0, [], [0], false, false⟩

/-- The core as the only one at work on window 0, whose picture is pic; another core is at work too when `two`. -/
def decoding (j : DecJob) (two : Bool) : State :=
  let s := planned (window 0) { winRun .fired with pic := some pic, au := some default }
  { s with dec := (if two then [(22, some { j with part := 0, done := false })] else []) ++ [(23, some j)] }

theorem test_hyps_DecodeCoresStopAndFinish :
    (∀ ov stop two : Bool, let s := decoding ⟨0, 1, ov, stop, false, 0⟩ two
      s.wf = true ∧ s.on ∧ (U.dec 23).ok = true ∧ s.has (U.dec 23) = true ∧
        s.decAt 23 = some (⟨0, 1, ov, stop, false, 0⟩, window 0, pic) ∧ (window 0).stream < 256) ∧
    (decoding ⟨0, 1, false, false, false, 0⟩ true).decOf 22 = some ⟨0, 0, false, false, false, 0⟩ ∧
    (∀ m k, m < 24 → m ≠ 23 → (decoding ⟨0, 1, false, false, false, 0⟩ false).decOf m = some k → k.done = true) ∧
    ((decoding ⟨0, 1, false, false, false, 0⟩ false).win 0).au = some default ∧ pic.elapsed = false := by
  refine ⟨by decide, by decide, ?_, by decide, by decide⟩
  have h : ∀ m, m < 24 → m ≠ 23 → (decoding ⟨0, 1, false, false, false, 0⟩ false).decOf m = none := by decide
  intro m k hm hn e
  rw [h m hm hn] at e
  cases e

/-- An engine at work on a fired LENS window, its read outstanding or not. -/
def lensing (j : LnsJob) (read : Bool) : State :=
  let p : Plan := { plan [{ window 1 with lns := 128, progNum := 1 }] with programs := [{ (default : PlanProgram) with target := 7 }] }
  let s := planned (window 1) (winRun .fired)
  { s with ple := { s.ple with plan := some p }, lns := [(7, some j)]
           pep := { s.pep with reads := if read then [⟨3, .augment 8191 7, 0, 64, 0, false⟩] else [] } }

theorem test_hyps_LensEnginesFinish :
    (∀ read, let j : LnsJob := ⟨0, true, some 8191, if read then some 3 else none, none, 0, false, [], none, false⟩
      let s := lensing j read
      s.wf = true ∧ s.on ∧ (U.lns 7).ok = true ∧ s.has (U.lns 7) = true ∧ (s.lensAt 7).map (·.1) = some j ∧ s.augPending j = read ∧
        j.raw = none) ∧
    (let j : LnsJob := ⟨0, true, some 8191, none, none, 0, true, [], none, false⟩
     (lensing j false).wf = true ∧ ((lensing j false).lensAt 7).map (·.1) = some j) := by decide

/-- A fired decode window whose work is done before its deadline, at its moment (R134). -/
theorem test_hyps_DecodeCores_windowDone :
    let s := timed 0 299 (decoding ⟨0, 0, false, false, true, 0⟩ false)
    s.wf = true ∧ s.on ∧ s.ple.plan = some (plan [window 0]) ∧ s.running U.ple = true ∧ s.ticking = true ∧
      s.decAt 23 = some (⟨0, 0, false, false, true, 0⟩, window 0, pic) ∧ (s.win 0).st = .fired ∧ (s.win 0).au = some default ∧
      s.workDone 0 (window 0) = true ∧ s.clock.phase.toNat < (window 0).deadline ∧ s.calm (eventKey s.clock.phase.toNat 0) := by
  refine ⟨by decide, by decide, by decide, by decide, by decide, by decide, by decide, by decide, by decide, by decide,
    calm_of (by decide)⟩

/-- A record for stream 0, owed to ring 8191 and sink 63. -/
def rec0 : Rec := ⟨List.replicate 64 0, 0, some 8191, [63], 0⟩

/-- The record in the store. -/
def owing (s : State) : State := { s with egr := { s.egr with store := [rec0] } }

/-- Sink 63 in use on port 11. -/
def sinked (s : State) : State :=
  { s with egr := { s.egr with sinks := [(63, { SinkSet.reset with cfg := 0x80000000, phy := 0x000B0000 })] } }

/-- Sealed, link up, Bus Master Enable, PEP running. -/
def hosted : State :=
  let s := (up U.pep (sealed R)).setFld Reg.PEP.LINK_STATUS 3 0 3
  { s with pep := { s.pep with cfg := { s.pep.cfg with busMaster := true } } }

theorem test_hyps_RecordsReachDestinations :
    (∀ st ∈ [WinSt.done, .skipped, .forced],
      let s := (planned (window 2) (winRun st)).setNum (Reg.SCX.STATE 0) 2
      s.wf = true ∧ s.on ∧ s.ple.plan = some (plan [window 2]) ∧ (plan [window 2]).windows[(0 : BitVec 12).toNat]? = some (window 2) ∧
        s.running U.ple = true ∧ s.ticking = true ∧ s.recordDue (window 2) = true ∧ (s.win 0).handed = false ∧ (s.win 0).st = st ∧
        (s.win 0).left = []) ∧
    (let s := tiled (tprog (insn 0 0 0 0) 0 4 3) { Tile.idle with emitting := true }
     let s : State := { s.setNum (Reg.SCX.STATE 0) 2 with ple := { s.ple with plan := some (plan [window 2]) } }
     s.wf = true ∧ s.recordDue (window 2) = true ∧ (s.win 0).handed = false ∧ (s.win 0).st = .fired ∧ s.emitter (window 2) = some 0) ∧
    ((owing R).on ∧ (owing R).owedRing 8191 = some rec0 ∧ (owing R).egrStopped = true ∧ (owing R).owedSink 63 = some rec0) ∧
    (let s := up U.egr (owing R)
     s.owedRing 8191 = some rec0 ∧ s.egrStopped = false ∧ s.hostLinkUp = false) ∧
    (let s := up U.egr (owing hosted)
     s.owedRing 8191 = some rec0 ∧ s.egrStopped = false ∧ s.hostState = 0 ∧ s.canIssue = true ∧ s.hostLinkUp = true ∧ s.ringState 8191 ≠ 1) ∧
    (let s := sinked (owing (up U.egr (ported 11 R)))
     s.egrStopped = false ∧ s.owedSink 63 = some rec0 ∧ tst (s.sinkOf 63).cfg 31 = true ∧ fld (s.sinkOf 63).phy 19 16 = 11 ∧
       (s.running (U.nix 11) && s.linkUp 11) = true) ∧
    (let s := sinked (owing (up U.egr R))
     s.egrStopped = false ∧ tst (s.sinkOf 63).cfg 31 = true ∧ (s.running (U.nix 11) && s.linkUp 11) = false) ∧
    tst ((owing R).sinkOf 63).cfg 31 = false ∧ R.bus ∧ R.live? U.egr := by decide

/-! ### Memory (12) -/

/-- A read beat in channel 7's queue. -/
def queuedRead (u : Inst) (time : Nat) : MemRead := ⟨u, 0, time, false⟩

theorem test_hyps_DramBeatsReadWhatWasWritten :
    (let s := ctl warm R
     let a := s.usable - 1
     let x := s.spot (a / 64 * 64)
     s.wf = true ∧ s.on ∧ (BitVec.ofNat 37 a).toNat < s.usable ∧ s.memReady x.ctl = true ∧ s.deadRank x = false ∧
       ((s.dmcOf x.ctl).queue (s.chanOf x)).length < 64 ∧ (s.readBlock (a / 64)).2 = false ∧ s.queued (a / 64) = none ∧
       (s.dmcOf x.ctl).reads (s.readRank x / 2) = [] ∧ s.dram.held = [] ∧ s.marked (a / 64) = false ∧
       linkDead ((s.blockFaults (a / 64)).2 + 0) = false ∧ (s.blockFaults (a / 64)).1 = 0) ∧
    (let s := ctl warm R
     let x := s.spot 0
     let t : State := { s with dram := { s.dram with poison := [(blockPlace x.ctl (s.readRank x) x.r 0, true)] } }
     t.wf = true ∧ t.marked 0 = true ∧ t.queued 0 = none) ∧
    (R.wf = true ∧ R.on ∧ R.memReady (R.spot (R.usable - 64)).ctl = false ∧ (R.dmcOf 15).initDone = false) ∧
    (let s := ctl { warm with wq := [(7, [⟨0, List.replicate 64 0, 1, false⟩])] } R
     s.wf = true ∧ s.on ∧ s.dram.held = [] ∧ (s.dmcOf 15).initDone = true ∧ ((s.dmcOf 15).queue 7).length = 1 ∧
       (s.dmcOf 15).reads 7 = []) ∧
    (let s := ctl { warm with rq := [(7, [queuedRead (U.dec 0) 0])] } R
     ((s.dmcOf 15).queue 7).length ≤ 48 ∧ (s.dmcOf 15).reads 7 ≠ []) ∧
    (let s := ctl { warm with wq := [(7, List.replicate 49 ⟨0, List.replicate 64 0, 1, false⟩)], rq := [(7, [queuedRead (U.dec 0) 0])] } R
     (s.dmcOf 15).initDone = true ∧ 48 < ((s.dmcOf 15).queue 7).length ∧ (s.dmcOf 15).reads 7 ≠ []) := by decide

/-- The read that is served next: of two of equal age the port of higher priority, here the second; once the first is older than
AGE_LIMIT, the first (R322). -/
theorem test_hyps_DramBeats_nextRead :
    (let s := ctl { warm with prio := 0x00E00000, age := 100, rq := [(7, [queuedRead (U.ple) 0, queuedRead (U.stw) 0])] } R
     s.wf = true ∧ s.dram.held = [] ∧ s.nextRead 15 7 = some (queuedRead (U.stw) 0)) ∧
    (let s := ctl { warm with prio := 0x00E00000, age := 100, rq := [(7, [queuedRead (U.ple) 0, queuedRead (U.stw) 50])] } R
     let s : State := { s with clock := { s.clock with up := 101 } }
     s.wf = true ∧ s.nextRead 15 7 = some (queuedRead (U.ple) 0)) := by decide

/-- Controller 15 migrating physical rank 3 to 12, at a segment. -/
def moving (seg : Nat) : State := (ctl warm R).setNum (Reg.DMC.MIG_STATUS 15) (2 ^ 30 + 3 * 2 ^ 24 + 12 * 2 ^ 20 + seg)

theorem test_hyps_DramMaintenance :
    (∀ up ∈ [0, 1000000], let s : State := { ctl warm R with clock := { R.clock with up := up } }
     s.wf = true ∧ s.on ∧ (s.dmcOf 15).initDone = true ∧ -8 < s.owes 15 15 7 ∧ s.pairBusy 15 15 7 = false ∧
       s.owes 15 15 7 = (if up = 0 then 0 else 8)) ∧
    (let s := ctl { warm with owed := [(127, (-8, 0))] } R
     s.wf = true ∧ s.owes 15 15 7 = -8) ∧
    (R.wf = true ∧ R.on) ∧
    (let s := ctl { warm with hours := 1 } R
     let k := blockPlace 15 15 (7864319 / 4) (7864319 % 4)
     s.wf = true ∧ (s.dmcOf 15).initDone = true ∧ (s.dmcOf 15).hours ≠ 0 ∧ (7864319 : BitVec 23).toNat < 4 * rankGranules ∧
       s.rankState 15 15 ≠ 4 ∧ s.dram.poison.get noPoison k = false ∧ linkDead (s.faultsAt k).2 = false ∧ (s.faultsAt k).2 = 0 ∧
       (s.faultsAt k).1 = 0 ∧
       ({ s with dram := { s.dram with poison := [(k, true)] } } : State).dram.poison.get noPoison k = true) ∧
    (∀ seg ∈ [0, rankSegments - 1], (moving seg).wf = true ∧ (moving seg).on ∧ (moving seg).migrating 15 = true ∧
      (moving seg).rfld (Reg.DMC.MIG_STATUS 15) 27 24 = 3 ∧ (moving seg).rfld (Reg.DMC.MIG_STATUS 15) 23 20 = 12 ∧
      (moving seg).rfld (Reg.DMC.MIG_STATUS 15) 17 0 = seg ∧ (moving seg).dram.faults = [] ∧
      (((moving seg).dmcOf 15).queue (3 / 2)).length + (((moving seg).dmcOf 15).queue (12 / 2)).length ≤ 64) ∧
    (R.dmcOf 15).initDone = false ∧ R.dram.held = [] ∧ R.runState (U.dmc 15) = 0 := by decide

/-! ### Host interface (13) -/

/-- The PCIe link in a state, with a PM field. -/
def pcie (st pm : Nat) (s : State) : State := (s.setFld Reg.PEP.LINK_STATUS 3 0 st).setFld Reg.PEP.LINK_STATUS 14 12 pm

/-- What the host enables of link power management. -/
def allowed (s : State) : State :=
  let s := s.setNum Reg.PEP.PM_CTRL 7
  { s with pep := { s.pep with cfg := { s.pep.cfg with
      prog := { s.pep.cfg.prog with l1En := true, l11En := true, l12En := true, l0pEn := true, l12Threshold := 50000 } } } }

theorem test_hyps_PcieLinkTrainsAndSleeps :
    ((up U.pep R).on ∧ (up U.pep R).running U.pep = true ∧ (up U.pep R).pcieState = 0 ∧ (pcie 4 0 R).pcieState = 4) ∧
    ((pcie 2 0 R).on ∧ (pcie 2 0 R).pcieState = 2 ∧ (pcie 2 0 R).pcieClkLost = false ∧
      (∀ rate ∈ [4, 5], rate ≤ ladderRate (pcie 2 0 R).pep.attempt)) ∧
    ((pcie 3 0 R).wf = true ∧ (pcie 3 0 R).pcieState = 3 ∧ (pcie 3 0 R).hostState = 0) ∧
    (∀ pm ∈ [0, 1, 2, 3, 4], let s := allowed (pcie 3 pm R)
      s.on ∧ s.pcieState = 3 ∧ s.pep.reads = [] ∧ s.pep.cfg.prog.l1En = true ∧ s.pep.cfg.prog.l11En = true ∧ s.pep.cfg.prog.l12En = true ∧
        s.pep.cfg.prog.l12Threshold ≤ 50000 ∧
        s.rbit Reg.PEP.PM_CTRL 0 = true ∧ s.rbit Reg.PEP.PM_CTRL 1 = true ∧ s.linkPm = pm) ∧
    (let s := (allowed (pcie 3 0 R)).setBit Reg.PEP.LINK_STATUS 15
     s.rbit Reg.PEP.LINK_STATUS 15 = true ∧ s.linkPm = 0 ∧ s.pep.cfg.prog.l0pEn = true ∧ s.rbit Reg.PEP.PM_CTRL 2 = true) := by decide

theorem test_hyps_HostLossFreezesTheHostSide :
    R.wf = true ∧ R.on ∧ R.hostState = 0 ∧ R.streamsInUse = false ∧
    (let s := R.setNum (Reg.SCX.STATE 255) 1
     s.wf = true ∧ s.hostState = 0 ∧ s.streamsInUse = true) ∧
    (({ R with pep := { R.pep with cfg := { R.pep.cfg with d3hot := true } } } : State).pep.cfg.d3hot = true) ∧
    (∀ k ∈ [1, 2], (R.setFld Reg.PEP.HOSTLOSS_STATUS 1 0 k).wf = true ∧ (R.setFld Reg.PEP.HOSTLOSS_STATUS 1 0 k).hostState = k) ∧
    fld 0x6F3A 15 0 = 0x6F3A ∧ fld 0x16F3B 15 0 ≠ 0x6F3A ∧ R.bus := by decide +kernel

/-- A read of ring 8191 outstanding under tag 5. -/
def reading : State := { hosted with pep := { hosted.pep with reads := [⟨5, .descriptor 8191, 0, 64, 0, false⟩] } }

theorem test_hyps_PcieTrafficIsAnswered :
    (∀ off ∈ [0, 2 ^ 33 - 64], (ctl warm R).bar2Ready (BitVec.ofNat 37 off) (.read 64) = true ∧
      (ctl warm R).bar2Ready (BitVec.ofNat 37 off) (.write (List.replicate 64 0) [] false) = true ∧
      R.bar2Ready (BitVec.ofNat 37 off) (.read 64) = false) ∧
    (let r : HostRead := ⟨5, .descriptor 8191, 0, 64, 0, true⟩
     let s : State := { hosted with pep := { hosted.pep with reads := [r] } }
     s.wf = true ∧ s.pep.reads.find? (fun r => r.tag = 5) = some r ∧ s.gaveUp r = true ∧
       reading.gaveUp ⟨5, .descriptor 8191, 0, 64, 0, false⟩ = false) ∧
    R.on ∧ (BitVec.ofNat 37 (2 ^ R.pep.cfg.prog.bar2Log2 - 1)).toNat < 2 ^ R.pep.cfg.prog.bar2Log2 ∧
    R.bar2Inside 0 64 = 64 ∧
    (let s := (R.setNum Reg.PEP.BAR2_BASE_LO 0xC0000000).setNum Reg.PEP.BAR2_BASE_HI 29
     s.bar2Inside (2 ^ 30 - 1) 2 = 1 ∧ s.bar2Inside (2 ^ 30 - 1) 1 = 1) ∧
    R.pep.reads.find? (fun r => r.tag = 5) = none ∧
    reading.wf = true ∧ reading.pep.reads.find? (fun r => r.tag = 5) = some ⟨5, .descriptor 8191, 0, 64, 0, false⟩ ∧
    (ReadBy.descriptor 8191).ring < 8192 := by decide

/-- Ring 8191 in a state, of a kind, with both indices. -/
def ringed (st kind host dev : Nat) (s : State) : State :=
  let s := (s.setNum (Reg.RING.CFG 8191) (2 ^ 31 + kind * 2 ^ 29 + 6 * 2 ^ 24)).setRing 8191 st
  (s.setNum (Reg.RING.HOST_IDX 8191) host).setNum (Reg.RING.DEV_IDX 8191) dev

/-- Ring 8191's indices owed to the host, its mirror address inside a requester window of classes 0 to 3. -/
def mirrorable (s : State) : State :=
  ((List.range 4).foldl (fun s c => (s.setNum (Reg.SEC.REQ_WIN_LO c 15) 3).setNum (Reg.SEC.REQ_WIN_SIZE c 15) 1) s).setIdxOwed 8191 true

theorem test_hyps_RingsAreSetUpAndRung :
    (6 ≤ fld 0x90000000 28 24 ∧ fld 0x90000000 28 24 ≤ 16 ∧ (sealed R).wf = true ∧ (sealed R).bus ∧ (sealed R).ringState 8191 = 0 ∧
      (sealed R).isSealed = true) ∧
    (∀ st ∈ [1, 2, 3], (ringed st 0 0 0 (sealed R)).wf = true ∧ (ringed st 0 0 0 (sealed R)).ringState 8191 = st) ∧
    (R.ringSecure 8191 = true ∨ R.fenceSecure (fld 0x1FFF 12 0) = false) ∧
    (let s := R.setNum Reg.SEC.PART_CFG (1 * 2 ^ 16)
     s.ringSecure 8191 = false ∧ s.fenceSecure (fld 0 12 0) = true) ∧
    (let s := ringed 1 2 0 0 (sealed R)
     s.hostProduced 8191 = true ∧
       ((64 : Word) - s.hostIdx 8191).toNat ≤ (s.devIdx 8191 + BitVec.ofNat 32 (s.ringSize 8191) - s.hostIdx 8191).toNat ∧
       (s.devIdx 8191 + BitVec.ofNat 32 (s.ringSize 8191) - s.hostIdx 8191).toNat < ((65 : Word) - s.hostIdx 8191).toNat) ∧
    (let s := mirrorable (ringed 1 0 0 0 hosted)
     s.wf = true ∧ s.bus ∧ s.idxOwed 8191 = true ∧ s.ringState 8191 = 1 ∧ s.canIssue = true ∧
       s.winOk (s.ringClass 8191) true (fld (s.reg (Reg.RING.MIRROR_LO 8191)) 31 2 * 4) 4 = true) ∧
    ((mirrorable (ringed 1 0 0 0 hosted)).setFld Reg.PEP.HOSTLOSS_STATUS 1 0 1).hostState ≠ 0 := by decide

/-- Ring 8191 served with a descriptor. -/
def serving (u : Upload) : State := (mirrorable (ringed 1 2 1 0 hosted)).setUpload 8191 (some u)

theorem test_hyps_UploadsAndFencesComplete :
    (let s := mirrorable (ringed 1 2 1 0 hosted)
     s.on ∧ s.ringState 8191 = 1 ∧ s.ringKind 8191 = 2 ∧ s.upload 8191 = none ∧ s.canRead = true ∧ s.hostIdx 8191 ≠ s.devIdx 8191 ∧
       s.pep.uploads.length < 4 ∧ s.winOk (s.ringClass 8191) false (s.entryAddr 8191 (s.devIdx 8191)) 64 = true) ∧
    (let u : Upload := { Upload.fetching 0 with raw := some (List.replicate 64 0) }
     (serving u).upload 8191 = some u ∧ u.checked = false) ∧
    (∀ op ∈ [0, 1, 2], let u : Upload := ⟨none, some [], true, op, 0, 0, 64, none, false⟩
      let s := serving u
      s.upload 8191 = some u ∧ u.tag = none ∧
        s.winOk (s.copyClass 8191) true u.hostAddr u.length = true ∧ s.poisoned u.devAddr u.length = false) ∧
    (let u : Upload := ⟨none, some [], true, 2, 0, 0, 0, some 8191, true⟩
     let s := (serving u).setNum (Reg.FENCE.CFG 8191) (2 ^ 31)
     s.wf = true ∧ s.upload 8191 = some u ∧ s.fenceEn 8191 = true ∧ (serving u).fenceEn 8191 = false ∧
       (s.clrBit (Reg.RING.CFG 8191) 23).rbit (Reg.RING.CFG 8191) 23 = false) ∧
    (let s := ((mirrorable hosted).setNum (Reg.FENCE.CFG 8191) (3 * 2 ^ 30)).setFenceOwed 8191 true
     let s : State := { s with pep := { s.pep with idxOwed := [] } }
     s.wf = true ∧ s.bus ∧ s.fenceOwed 8191 = true ∧ R.fenceOwed 8191 = false ∧ R.fenceEn 8191 = false ∧
       s.canIssue = true ∧ s.pep.idxOwed = [] ∧ s.winOk (if s.fenceSecure 8191 then 0 else 1) true 0 8 = true) := by decide

/-! ### Boot, steward, mailboxes (14) -/

/-- An image of the steward. -/
def img : BootImage := ⟨9, 1⟩

/-- Whether an image passes rests on the signature (Config, log 12), so the clauses of one that passes have their other
premises here; one that the flash does not read fails with cause 1. -/
theorem test_hyps_BootImagesAndSeal :
    (R.wf = true ∧ R.on ∧ R.stage = 0 ∧ R.power.straps = 0 ∧ R.stw.trySlot = 0) ∧
    (let s : State := R.setFld Reg.STW.BOOT_STATUS 31 28 2
     s.on ∧ s.stage = 2 ∧ (List.range 16).all s.memReady = false) ∧
    (let s : State := { (ctl warm R).setFld Reg.STW.BOOT_STATUS 31 28 2 with stw := { R.stw with hostTry := some 512 } }
     s.wf = true ∧ s.stage = 2 ∧ (List.range 16).all s.memReady = true ∧ s.stw.hostTry = some 512 ∧
       s.poisoned 0 (Nat.max 512 (min (imgSize (s.readMem 0 512)) 1572864)) = false ∧ imgSize (s.readMem 0 512) = 0 ∧
       imgFormatOk (s.readMem 0 512) (some 512) = false) ∧
    ((R.setFld Reg.STW.BOOT_STATUS 31 28 1).bus ∧ (R.setFld Reg.STW.BOOT_STATUS 31 28 1).stage = 1) ∧
    (let s : State := { R.setFld Reg.STW.BOOT_STATUS 31 28 15 with stw := { R.stw with hostFailed := true } }
     s.stage = 15 ∧ s.stw.hostFailed = true) ∧
    (sealed R).isSealed = true ∧ (R.isSealed = false ∧ R.stw.sealing = false ∧ tst 0x5EA10001 0 = true ∧
      (R.setNum Reg.STW.CODE_LIMIT 4096).sealCheck 0x5EA10001 = 0 ∧ R.sealCheck 0x5EA00001 ≠ 0) ∧
    (let s : State := { R with stw := { R.stw with sealing := true } }
     s.wf = true ∧ s.stw.sealing = true ∧ s.queuesEmpty = true) ∧
    (let s : State := { ctl { warm with rq := [(7, [queuedRead (U.dec 0) 0])] } R with stw := { R.stw with sealing := true } }
     s.on ∧ s.stw.sealing = true ∧ s.queuesEmpty = false) ∧
    (let s : State := { R with stw := { R.stw with followOn := true, image := some img, flash := [(repairList, 71)] } }
     s.wf = true ∧ s.stw.followOn = true ∧ s.stw.image.isSome = true ∧ s.spillRing = none ∧ s.stw.asleep = false ∧ s.savedRepairs = [71] ∧ s.has (U.tile 71) = true) := by
  decide +kernel

theorem test_hyps_StewardDomainSleepsAndResets :
    (let s : State := { R with stw := { R.stw with image := some img } }
     s.on ∧ s.stw.asleep = false ∧ s.stw.image.isSome = true ∧ s.rfld Reg.STW.WAKE_STATUS 4 0 = 0 ∧
       (s.setBit Reg.STW.WAKE_STATUS 4).rfld Reg.STW.WAKE_STATUS 4 0 ≠ 0) ∧
    (let s : State := { R.setBit Reg.STW.WAKE_STATUS 4 with stw := { R.stw with asleep := true } }
     s.stw.asleep = true ∧ s.rfld Reg.STW.WAKE_STATUS 4 0 ≠ 0) ∧
    (R.setBit Reg.STW.WDT_CFG 31).rbit Reg.STW.WDT_CFG 31 = true ∧ R.stw.asleep = false ∧ R.mbxWaiting = false ∧ R.wf = true ∧ R.bus := by decide

/-- Mailbox 31 in a state, owned. -/
def boxed (st : Nat) (m : Mbx) (s : State) : State := { s.setFld (Reg.MBX.STATUS 31) 2 0 st with mbx := [(31, m)] }

theorem test_hyps_MailboxesCarryRequests :
    (R.bus ∧ (R.mbxOf 31).owner = 0) ∧
    (let s := boxed 0 { Mbx.free with owner := 5 } (sealed R)
     s.wf = true ∧ s.bus ∧ (s.mbxOf 31).owner ≠ 0 ∧ (s.mbxOf 31).owner = 5 ∧ (s.mbxOf 31).owner ≠ 6 ∧ s.mbxState 31 ≠ 1 ∧
       s.mbxState 31 ≠ 2 ∧ s.isSealed = true ∧ s.mbxBarred 31 5 = false ∧ s.mbxBarred 31 6 = true ∧ s.mbxState 31 = 0) ∧
    ((boxed 1 { Mbx.free with owner := 5 } R).mbxState 31 = 1 ∧ R.stw.asleep = false) ∧
    (let s := boxed 2 { Mbx.free with result := some (0, []) } (R.setNum (Reg.MBX.REQ 31 0) (1 * 2 ^ 16))
     s.wf = true ∧ s.mbxState 31 = 2 ∧ knownCmd (s.reqCmd 31) = true ∧ (s.mbxOf 31).result = some (0, [])) ∧
    (let s := boxed 2 { Mbx.free with owner := 5 } R
     s.wf = true ∧ knownCmd (s.reqCmd 31) = false ∧ s.stw.asleep = false ∧ s.rbit (Reg.MBX.STATUS 31) 3 = false ∧
       (s.setBit (Reg.MBX.STATUS 31) 3).rbit (Reg.MBX.STATUS 31) 3 = true) ∧
    tst (1 : Word) 0 = true ∧ tst (2 : Word) 0 = false ∧
    (∀ k ∈ [3, 4], 3 ≤ (boxed k { Mbx.free with owner := 5 } R).mbxState 31) := by decide

/-- FLASH_WRITE of an image that passes rests on the signature (Config, log 12). -/
theorem test_hyps_StewardCommandsAreServed :
    (∀ cmd ∈ [1, 2, 0x10, 0x11, 0x20, 0x21, 0x30, 0x31, 0x32],
      let s := boxed 2 Mbx.free ((R.setNum (Reg.MBX.REQ 31 0) (cmd * 2 ^ 16 + 256)).setBit (Reg.MBX.STATUS 31) 3)
      s.on ∧ s.mbxState 31 = 2 ∧ (s.mbxOf 31).result = none ∧ s.stw.asleep = false ∧ s.reqCmd 31 = cmd ∧
        s.rbit (Reg.MBX.STATUS 31) 3 = true ∧ fld (s.req 31 0) 15 0 ≤ 256 ∧ s.dumpState = 0 ∧
        (s.setFld Reg.ERC.DUMP_STATUS 2 0 2).dumpState ≠ 0 ∧ (s.clrBit (Reg.MBX.STATUS 31) 3).rbit (Reg.MBX.STATUS 31) 3 = false) ∧
    (({ R with stw := { R.stw with image := some img } } : State).stw.image = some img) ∧ R.stw.svn.toNat < img.svn.toNat := by
  decide

/-! ### Errors and dump (15) -/

/-- A report of class 3 of tile 71. -/
def rep : Report := ⟨U.tile 71, 3, 3, 1, false, true, none, 0, 0, 0⟩

theorem test_hyps_ErrorCollectorTakesReports :
    (let s : State := { R with erc := { R.erc with pending := [rep] } }
     s.wf = true ∧ s.on ∧ s.nextReport = some rep ∧ s.erc.reset = false ∧ rep.unit.ok = true ∧ rep.cls ≤ 3 ∧ s.logRoom rep.cls = true ∧
       (s.setNum Reg.ERC.LOG_TAIL 1024).logRoom rep.cls = false ∧ (s.setNum Reg.ERC.LOG_TAIL 1023).logRoom 3 = true ∧
       (s.setNum Reg.ERC.LOG_TAIL 1023).logRoom 2 = false) ∧
    (let f : FatalNote := ⟨U.tile 71, 3, true, 0, 0, 0, 0⟩
     let s : State := { R with erc := { R.erc with fatalPend := [f] } }
     s.wf = true ∧ s.erc.fatalPend = f :: [] ∧ s.rbit Reg.ERC.FATAL_STATUS 31 = false ∧
       (s.setBit Reg.ERC.FATAL_STATUS 31).rbit Reg.ERC.FATAL_STATUS 31 = true) ∧
    (let s := R.setNum Reg.ERC.LOG_TAIL 5
     s.bus ∧ s.rbit Reg.ERC.CTRL 30 = false ∧ ((5 : Word) - s.reg Reg.ERC.LOG_HEAD).toNat ≤ s.logHeld ∧
       ¬((6 : Word) - s.reg Reg.ERC.LOG_HEAD).toNat ≤ s.logHeld) ∧
    (let s := ((ringed 1 3 0 0 hosted).setNum Reg.ERC.LOG_TAIL 1).setNum Reg.ERC.CTRL (2 ^ 30 + 8191)
     s.on ∧ s.spillRing = some 8191 ∧ 0 < s.logHeld) ∧
    (let s := ((ringed 1 3 0 0 hosted).setNum Reg.ERC.CTRL (2 ^ 30 + 8191))
     let s : State := { s with stw := { s.stw with fwLog := [4] } }
     s.on ∧ s.spillRing = some 8191 ∧ s.logHeld = 0 ∧ s.stw.asleep = false ∧ s.stw.fwLog = 4 :: []) := by decide

/-- The lock of a mailbox lapses without a window event on the way. -/
theorem test_hyps_Mailboxes_lapse :
    let s := boxed 0 { Mbx.free with owner := 5 } R
    (s.mbxOf 31).owner ≠ 0 ∧ s.mbxState 31 ≠ 1 ∧ s.mbxState 31 ≠ 2 ∧
      s.calmFor (fun s => s.toTime ((s.mbxOf 31).lastWrite + 10 ^ 9)) :=
  ⟨by decide, by decide, by decide, calm_of_none rfl⟩

/-- A dump in progress. -/
def dumping (st : Nat) (d : DumpRun) (s : State) : State :=
  { s.setFld Reg.ERC.DUMP_STATUS 1 0 st with erc := { s.erc with dump := some d } }

theorem test_hyps_DumpIsWrittenAndRead :
    (let d : DumpRun := ⟨false, [], false, [], 0, 0, false⟩
     let s := dumping 1 d (sealed R)
     s.wf = true ∧ s.on ∧ s.erc.dump = some d ∧ s.dumpState = 1 ∧ s.fwRuns = true ∧ s.dumpToDram = false ∧
       (s.setBit Reg.SEC.DUMP_CFG 31).dumpToDram = true ∧ d.now = false ∧
       d.began + 10 ^ 9 ≤ (s.toTime (d.began + 10 ^ 9)).clock.time.toNat) ∧
    (let d : DumpRun := ⟨true, [0], true, [], 4096, 0, false⟩
     let s := dumping 1 d (sealed R)
     s.wf = true ∧ s.dumpState = 1 ∧ s.fwRuns = true ∧ d.written = true ∧ d.fallback = true) ∧
    (∀ k ∈ [2, 3], (dumping k ⟨true, [0], true, [], 4096, 0, false⟩ R).wf = true ∧
      2 ≤ (dumping k ⟨true, [0], true, [], 4096, 0, false⟩ R).dumpState) ∧ R.bus ∧ R.dumpState < 2 ∧ R.erc.dump = none := by decide

/-! ### Meter die and bridge (16) -/

/-- The meter die changed. -/
def met (f : Meter → Meter) : State := { R with meter := f R.meter }

theorem test_hyps_WheelCountsMoveDistance :
    (R.meter.stopped = false ∧ 0 < R.meter.params.k0 ∧ quadStep 0 2 = some 1 ∧ quadStep 2 0 = some (-1) ∧ quadStep 0 3 = none ∧
      quadStep 0 0 = some 0 ∧ R.meter.backlog = 0 ∧ R.meter.ch0.ab = 0 ∧ R.meter.ch1.ab = 0) ∧
    (let s := met fun m => { m with backlog := 1 }
     s.meter.stopped = false ∧ 0 < s.meter.backlog ∧ quadStep s.meter.ch0.ab 2 = some 1 ∧ quadStep s.meter.ch0.ab 1 = some (-1)) := by
  decide

theorem test_hyps_SpeedAndFaultOfTheMeter :
    R.meter.stopped = false ∧ 0 < R.meter.params.k0 ∧ (quadStep R.meter.ch0.ab 2 = some 1 ∨ quadStep R.meter.ch0.ab 2 = some (-1)) ∧
    (let s := met fun m => { m with fault := true, clean := m.hundred - 1 }
     (s.meter.fault && decide (s.meter.clean + 1 < s.meter.hundred)) = false ∧ s.meter.zFault = false ∧ s.meter.crossBad = false) ∧
    (let s := met fun m => { m with params := { m.params with ppr1 := 1 }, ch1 := { m.ch1 with zBad := 3 } }
     s.meter.stopped = false ∧ s.meter.zFault = true) := by decide

/-- Which image runs rests on its signature (Config, log 12); the other premises of those clauses hold here. -/
theorem test_hyps_SealAndServiceUart :
    (R.meter.stopped = false ∧ R.meter.sealOpen = false ∧ R.meter.image.isSome = true ∧ R.meter.newImage = none) ∧
    (let s := met fun m => { m with sealOpen := true, newImage := some ⟨1, [1]⟩, prevImage := some ⟨2, [2]⟩ }
     s.meter.stopped = false ∧ s.meter.sealOpen = true ∧ s.meter.battery = false ∧ s.meter.newImage = some ⟨1, [1]⟩ ∧
       s.meter.prevImage = some ⟨2, [2]⟩) ∧
    (met fun m => { m with battery := true }).meter.battery = true ∧ paramsOk ⟨1000, 16384, 100000000, 0, 200, -512⟩ = true := by
  decide

theorem test_hyps_MeterLinksPowerAndReset :
    (R.meter.stopped = false ∧ R.meter.battery = false ∧ R.meter.running = true) ∧ R.meter.key = none ∧
    (met fun m => { m with battery := true }).meter.linked = false ∧ (met fun m => { m with key := some 7 }).meter.key = some 7 ∧
    (met fun m => { m with stopped := true }).meter.stopped = true ∧ (Instr.speedUpdate).ofMeter = true ∧
    Instr.speedUpdate ≠ .vddMetReturn := by decide

/-- A TIME_ADJ of −1,000 ms that carries the right code is good. -/
theorem test_hyps_MeterLinks_timeAdj :
    let s := met fun m => { m with key := some 7, time := 2000 }
    let mac : Word := BitVec.ofNat 32 (leNat (s.meter.adjCode (-1000) 0))
    s.meter.stopped = false ∧ s.meter.linked = true ∧ s.meter.key.isSome = true ∧ leNat (s.meter.adjCode (-1000) 0) = mac.toNat ∧
      (0 : Word) = s.meter.frameCtr ∧ s.meter.sealOpen = false ∧ s.meter.lastAdj = none := by
  refine ⟨rfl, by decide, rfl, ?_, rfl, rfl, rfl⟩
  have h : (met fun m => { m with key := some 7, time := 2000 }).meter.adjCode (-1000) 0 =
      (List.range 4).map fun i => Config.aesCmac 7 (leBytes 4 (wrapN 32 (-1000)) ++ leBytes 4 0) (Fin.ofNat 16 i) := rfl
  rw [h]
  simp only [List.range, List.range.loop, List.map_cons, List.map_nil, leNat, BitVec.toNat_ofNat]
  omega

/-- The worked example of R409 to R411: a count is worth 8 mm, 20 counts in 250 ms are 64 cm/s, 8 reverse ones 25 (16). -/
theorem test_meter_example :
    (match exec (.quadratureCount false true false) (met fun m => { m with distance := 1000000 }) with
      | .next s => s.meter.distance | _ => 0) = 1000008 ∧
    (match exec .speedUpdate (met fun m => { m with slice := 20 }) with
      | .next s => (s.meter.speed, s.meter.motion) | _ => (0, 0)) = (64, 1) ∧
    (match exec .speedUpdate (met fun m => { m with slice := -8 }) with
      | .next s => (s.meter.speed, s.meter.motion) | _ => (0, 0)) = (25, 2) := by decide

/-- The bridge with frames on the line or kept, at a device time. -/
def bridged (t : Nat) (f : Met → Met) : State := { timed t 0 T with met := f T.met }

theorem test_hyps_BridgeFramesReachMet :
    (({ R with power := { R.power with strobe := true } } : State).power.strobe = true ∧ R.on ∧ R.meter.linked = true ∧
      R.meter.latched = none) ∧
    (let s := bridged 5 fun m => { m with line := [R.meter.bridgeFrame 0] }
     s.wf = true ∧ s.met.line = R.meter.bridgeFrame 0 :: [] ∧ bridgeOk (R.meter.bridgeFrame 0) = true ∧
       leAt (R.meter.bridgeFrame 0) 23 1 = 0 ∧ bridgeOk [] = false) ∧
    leAt (R.meter.bridgeFrame 1) 23 1 = 1 ∧
    (let s := bridged 1000000 fun m => { m with awaiting := some (7, 0) }
     s.wf = true ∧ s.on ∧ s.met.awaiting = some (7, 0) ∧ 0 + 1000000 ≤ (s.toTime (0 + 1000000)).clock.time.toNat) ∧
    (let s := (bridged 1000000000 fun m => { m with newest := some (R.meter.bridgeFrame 0, 0) }).setBit Reg.MET.STATUS 31
     s.wf = true ∧ s.bus ∧ s.rbit Reg.MET.STATUS 31 = true ∧ s.met.absent = false ∧
       s.metSince + 10000000 ≤ (s.toTime (s.metSince + 10000000)).clock.time.toNat ∧
       s.clock.time.toNat % 1000000000 = 0 ∧ s.met.cmpSec ≠ s.clock.time.toNat / 1000000000) := by decide +kernel

/-! ### Pairs (17) -/

/-- The pair logic on, over port 11. -/
def paired (s : State) : State := s.setNum Reg.DEVCTL.PAIR_CFG (2 ^ 31 + 11 * 2 ^ 24 + 3 * 2 ^ 16)

/-- A heartbeat of node 0 with a term and a claim (Table 17.2). -/
def beat (term claim : Nat) : Bytes :=
  let b : Bytes := leBytes 2 0x4842 ++ [1, BitVec.ofNat 8 claim] ++ leBytes 4 0 ++ leBytes 4 term ++ List.replicate 16 0
  b ++ leBytes 4 (crc32c b)

theorem test_hyps_PairHeartbeatsAndPrimacy :
    (let s := paired (ported 11 T)
     s.on ∧ s.rbit Reg.DEVCTL.PAIR_CFG 31 = true ∧ s.ticking = true ∧ s.pair.sentEpoch ≠ some s.clock.epoch ∧
       (let t := s.toPhase (s.rfld Reg.DEVCTL.HB_PHASE 23 0)
        t.reached (s.rfld Reg.DEVCTL.HB_PHASE 23 0) = true ∧ t.running (U.nix 11) = true ∧ t.linkUp 11 = true)) ∧
    (let s : State := { paired T with pair := { T.pair with inbox := [beat 8 1] } }
     s.wf = true ∧ s.pair.inbox = beat 8 1 :: [] ∧ s.hbValid (beat 8 1) = true ∧ s.hbValid [] = false) ∧
    (({ R with pair := { R.pair with lostOwed := true } } : State).pair.lostOwed = true) ∧
    (let s := R.setNum Reg.DEVCTL.PRIMACY_TERM 1
     s.bus ∧ s.live? U.devctl ∧ s.reg Reg.DEVCTL.PRIMACY_TERM_REQ < s.reg Reg.DEVCTL.PRIMACY_TERM ∧ tst 0x80000000 31 = true) ∧
    (let s : State := { T with pair := { T.pair with ended := some (true, 8, 0) } }
     s.wf = true ∧ s.on ∧ s.atBoundary = true ∧ s.pair.updated ≠ some s.clock.epoch) := by decide +kernel

/-- A claim of a higher term at a boundary ends the device's own (R433). -/
theorem test_demoted : (match exec .primacyUpdate
      { (paired T).setBit Reg.DEVCTL.PRIMACY 31 with pair := { T.pair with ended := some (true, 8, 0x12) } } with
    | .next s => (s.claim, s.rbit (pgErr U.devctl) 11) | _ => (true, false)) = (false, true) := by decide

/-! ### Whole-machine statements -/

theorem test_hyps_MeterDieStandsApart :
    (Instr.seal 0).ofMeter = false ∧ (Instr.sealOpen).ofMeter = true ∧
    (let s := up U.tmu ({ R with power := { R.power with core := .unpowered } } : State)
     s.meter = R.meter ∧ s.power.strobe = R.power.strobe ∧ s.fuses.meterKeyHash = R.fuses.meterKeyHash) := by decide

theorem test_hyps_EveryCommandAnswers : (Instr.warmResetComplete).wf = true ∧ (Instr.linkUp 11).wf = true := by decide

/-- The moments of the bridge, the pair and a dump are reached with no window event on the way. -/
theorem test_hyps_calm_timers :
    (let s := bridged 1000000 fun m => { m with awaiting := some (7, 0) }
     s.calmFor (fun s => s.toTime (0 + 1000000))) ∧
    (let s := (bridged 1000000000 fun m => { m with newest := some (R.meter.bridgeFrame 0, 0) }).setBit Reg.MET.STATUS 31
     s.calmFor (fun t => t.toTime (s.metSince + 10000000)) ∧ s.calm (eventKey s.clock.phase.toNat 0)) ∧
    (paired (ported 11 T)).calmFor (fun s => s.toPhase (s.rfld Reg.DEVCTL.HB_PHASE 23 0)) ∧
    (dumping 1 ⟨false, [], false, [], 0, 0, false⟩ (sealed R)).calmFor (fun s => s.toTime (0 + 10 ^ 9)) :=
  ⟨calm_of_none rfl, ⟨calm_of_none rfl, calm_of_none rfl⟩, calm_of_none rfl, calm_of_none rfl⟩

/-- A state in canonical form whose step goes on. -/
theorem test_hyps_StepKeepsCanonicalForm :
    (let s : State := { T with pending := [.warmResetComplete, .sealOpen] }
     s.wf = true ∧ (match step s with | .next t => t.pending | _ => []) = [.sealOpen]) := by decide

theorem test_hyps_DeviceAddressesMapOneToOne :
    0 < 16 ∧ 16 ≤ 16 ∧ 16 * 16 * 1966080 - 1 < 16 * 16 * 1966080 ∧ R.dram.na = 16 ∧ 0 < 1 ∧ 15 < 16 ∧ 1966079 < 1966080 := by decide

theorem test_hyps_MemoriesChangeOnlyByTheirWriters :
    (Instr.seal 0).mayWriteDram = false ∧ (Instr.seal 0).mayWriteStore = false ∧ (Instr.seal 0).mayWriteSteward = false ∧
    (Instr.topk ⟨0, 0, 0, 0, 0, 0⟩).mayWriteStore = true ∧
    (match exec (.seal 0) R with | .next _ => true | _ => false) = true := by decide

/-! ### The worked examples of the spec -/

/-- The directory words of TILE[3,4], instance 31 (01). -/
theorem test_directory : blockEntry (U.tile 31) = [0x0101F402, 0x005F0000, 0x00100000, 0] := by decide

/-- The device addresses 0x4A00 and 0x1234567800 under the seed 0x0123456789ABCDEF and 15 active ranks (12). -/
theorem test_address_map :
    mapGranule 0x0123456789ABCDEF 15 0x4A = ⟨13, 4, 0⟩ ∧ mapGranule 0x0123456789ABCDEF 15 0x12345678 = ⟨14, 14, 1272582⟩ ∧
    bankRow 1272582 = (14, 10604) := by decide

/-- The lens charge of the long-range stream (06). -/
theorem test_lens_charge : ({ (default : LnsDesc) with
    rw := 3840, rh := 2160
    outs := { (default : LnsOut) with ow := 1920, oh := 1088 } :: List.replicate 4 { (default : LnsOut) with ow := 640, oh := 640 } } :
    LnsDesc).charge = 2904480 := by decide

/-- 34.65625 with MUL 0.25 and ZP −3 is INT8 6; as FP4 E2M1 it is clipped to 6.0, code 7 (07). -/
theorem test_requantisation : requant 6 (f32 0x420AA000) (f32 0x3E800000) (-3) = (6, false, false) ∧
    requant 3 (f32 0x420AA000) (f32 0x3E800000) 0 = (7, true, false) := by decide

/-- The pool of the example: 20,000 bytes get 0x08_4100_0000, then 2,048 bytes 0x08_41C0_0000 (04). -/
theorem test_pool :
    let s := [((Reg.CPM.REGION_BASE_LO), 0x40000000), (Reg.CPM.REGION_BASE_HI, 8), (Reg.CPM.CLASS_COUNT 0, 1024),
      (Reg.CPM.CLASS_COUNT 1, 256), (Reg.CPM.CLASS_COUNT 2, 64), (Reg.CPM.CLASS_COUNT 3, 16)].foldl
        (fun s e => s.setNum e.1 e.2) (up U.cpm R)
    s.chainStart = 122880 ∧ s.cellAddr (s.classStart (classFor 20000)) = 0x0841000000 ∧
      s.cellAddr (s.classStart (classFor 2048)) = 0x0841C00000 ∧ s.cellAddr s.chainStart = 0x0841E00000 := by decide

/-- The access units 4 and 5 of the example: slot 3 after jitter of 4,490 ticks, slot −694 after the restart (03). -/
theorem test_slots : nearestSlot 4490 2 3000 = 3 ∧ nearestSlot (-1040384) 2 3000 = -694 := by decide

/-- The depth-wise layer of the example: 10 packs in 25 blocks, the last pack one vector, 14,337 bubble cycles (08). -/
theorem test_bubbles :
    let o : Opd := Opd.ofBytes ([0x06660020, 0x00400000, 9, 6400, 0, 0, 0, 0, 0x00500050, 0x00400040, 0x33111140, 0x11110000].flatMap
      fun w => leBytes 4 w)
    o.diag = true ∧ (o.passes []).length = 250 ∧ bubbles 1 (o.passes []) none = 14337 := by decide +kernel

end Sys2Proof.Tests
end

/-!
SUPPORT. What no command changes. `State.kept` gathers the parts of the state that all commands of the core die leave alone,
but for SVN_COMMIT: the queue, the fuses, the meter die and the fused security version. One lemma for each operation says that
it keeps them; one for each command says what it answers. O55 and O56 follow at the end.
-/
namespace Sys2Proof.Machine

/-- The queue of waiting commands, the fuses, the meter die and the fused security version. -/
def State.kept (s : State) := (s.pending, s.fuses, s.meter, s.stw.svn)

/-! ### The shapes an operation is made of

The lemmas are tried before the operands of an operation are looked at (`↓`), so that a proof follows the chain of operations
and never the data that they carry. The first two are not proved by `rfl` itself: the kernel would then compare whole states. -/

/-- An update of the other parts of the state. -/
@[simp ↓] theorem kept_update (s : State)
    (power regs live clock sync ple scx cpm dec lns tiles fabric egr dram pep mbx erc met pair out rdata fresh) :
    State.kept { s with
      power, regs, live, clock, sync, ple, scx, cpm, dec, lns, tiles, fabric, egr, dram, pep, mbx, erc, met, pair, out, rdata,
      fresh } = s.kept := by
  simp only [State.kept]

/-- An update of the steward domain that leaves the fused security version alone. -/
@[simp ↓] theorem kept_update_stw (s : State)
    (power regs live clock sync ple scx cpm dec lns tiles fabric egr dram pep mbx erc met pair out rdata fresh)
    (sram flash asleep image hostTry hostFailed trySlot sealing retired followOn fwLog) :
    State.kept { s with
      power, regs, live, clock, sync, ple, scx, cpm, dec, lns, tiles, fabric, egr, dram, pep, mbx, erc, met, pair, out, rdata,
      fresh, stw := { s.stw with
        sram, flash, asleep, image, hostTry, hostFailed, trySlot, sealing, retired, followOn, fwLog } } = s.kept := by
  simp only [State.kept]

@[simp ↓] theorem ite_kept {c : Prop} [Decidable c] (a b : State) :
    (if c then a else b).kept = if c then a.kept else b.kept := by
  split <;> rfl

@[simp ↓] theorem ite_snd_kept {β : Type} {c : Prop} [Decidable c] (a b : β × State) :
    (if c then a else b).2.kept = if c then a.2.kept else b.2.kept := by
  split <;> rfl

@[simp ↓] theorem ite_snd_snd_kept {α β : Type} {c : Prop} [Decidable c] (a b : α × β × State) :
    (if c then a else b).2.2.kept = if c then a.2.2.kept else b.2.2.kept := by
  split <;> rfl

@[simp ↓] theorem when_kept (s : State) (c : Bool) (f : State → State) :
    (s.when c f).kept = if c then (f s).kept else s.kept := by
  unfold State.when
  split <;> rfl

theorem when_kept_of {s : State} {c : Bool} {f : State → State} (h : (f s).kept = s.kept) : (s.when c f).kept = s.kept := by
  rw [when_kept, h, ite_self]

@[simp ↓] theorem foldl_kept {α : Type} (f : State → α → State) (l : List α) (s : State)
    (h : ∀ b a, (f b a).kept = b.kept) : (l.foldl f s).kept = s.kept :=
  foldl_keeps (P := fun b => b.kept = s.kept) f (fun b a hb => (h b a).trans hb) l rfl

@[simp ↓] theorem foldl_snd_kept {α β : Type} (f : β × State → α → β × State) (l : List α) (a : β × State)
    (h : ∀ a x, (f a x).2.kept = a.2.kept) : (l.foldl f a).2.kept = a.2.kept :=
  foldl_keeps (P := fun b => b.2.kept = a.2.kept) f (fun b x hb => (h b x).trans hb) l rfl

/-- The state of a pair that is known. -/
theorem kept_of_fst_eq {β : Type} {p : State × β} {s t : State} {b : β} (h : p = (t, b)) (hp : p.1.kept = s.kept) :
    t.kept = s.kept := by
  rwa [h] at hp

theorem kept_of_snd_eq {β : Type} {p : β × State} {s t : State} {b : β} (h : p = (b, t)) (hp : p.2.kept = s.kept) :
    t.kept = s.kept := by
  rwa [h] at hp

theorem kept_of_apart {s t : State} (h : t.apart = s.apart) : t.kept = s.kept := by
  simp only [State.apart, Prod.mk.injEq] at h
  simp [State.kept, h]

/-! ### Registers, blocks and error events -/

@[simp ↓] theorem setReg_kept (s : State) (a : Nat) (v : Word) : (s.setReg a v).kept = s.kept := by simp [State.setReg]
@[simp ↓] theorem setFld_kept (s : State) (a hi lo v : Nat) : (s.setFld a hi lo v).kept = s.kept := by simp [State.setFld]
@[simp ↓] theorem setBit_kept (s : State) (a n : Nat) : (s.setBit a n).kept = s.kept := by simp [State.setBit]
@[simp ↓] theorem clrBit_kept (s : State) (a n : Nat) : (s.clrBit a n).kept = s.kept := by simp [State.clrBit]
@[simp ↓] theorem incW_kept (s : State) (a : Nat) (n : Nat) : (s.incW a n).kept = s.kept := by simp [State.incW]
@[simp ↓] theorem incS_kept (s : State) (a : Nat) (n : Nat) : (s.incS a n).kept = s.kept := by simp [State.incS]
@[simp ↓] theorem incHi_kept (s : State) (a : Nat) : (s.incHi a).kept = s.kept := by simp [State.incHi]
@[simp ↓] theorem setNum_kept (s : State) (a n : Nat) : (s.setNum a n).kept = s.kept := by simp [State.setNum]
@[simp ↓] theorem setReg64_kept (s : State) (lo hi n : Nat) : (s.setReg64 lo hi n).kept = s.kept := by simp [State.setReg64]
@[simp ↓] theorem emit_kept (s : State) (o : Out) : (s.emit o).kept = s.kept := by simp [State.emit]
@[simp ↓] theorem answer_kept (s : State) (w : Word) : (s.answer w).kept = s.kept := by simp [State.answer]
@[simp ↓] theorem drawn_kept (s : State) : s.drawn.kept = s.kept := by simp [State.drawn]
@[simp ↓] theorem setRun_kept (s : State) (u : Inst) (n : Nat) : (s.setRun u n).kept = s.kept := by simp [State.setRun]
@[simp ↓] theorem setScx_kept (s : State) (n : Nat) (x : Scx) : (s.setScx n x).kept = s.kept := by simp [State.setScx]
@[simp ↓] theorem setTile_kept (s : State) (t : Nat) (x : Tile) : (s.setTile t x).kept = s.kept := by simp [State.setTile]
@[simp ↓] theorem setDmc_kept (s : State) (c : Nat) (x : Dmc) : (s.setDmc c x).kept = s.kept := by simp [State.setDmc]

@[simp ↓] theorem setDec_kept (s : State) (n : Nat) (x : Option DecJob) : (s.setDec n x).kept = s.kept := by
  simp [State.setDec]

@[simp ↓] theorem setLns_kept (s : State) (n : Nat) (x : Option LnsJob) : (s.setLns n x).kept = s.kept := by
  simp [State.setLns]

@[simp ↓] theorem setMbx_kept (s : State) (n : Nat) (x : Mbx) : (s.setMbx n x).kept = s.kept := by simp [State.setMbx]
@[simp ↓] theorem setWin_kept (s : State) (w : Nat) (x : WinRun) : (s.setWin w x).kept = s.kept := by simp [State.setWin]
@[simp ↓] theorem markSummary_kept (s : State) (u : Inst) : (s.markSummary u).kept = s.kept := by simp [State.markSummary]

@[simp ↓] theorem markErr_kept (s : State) (u : Inst) (bit : Nat) : (s.markErr u bit).kept = s.kept :=
  kept_of_apart (markErr_apart s u bit)

@[simp ↓] theorem queueReport_kept (s : State) (u : Inst) (bit cls : Nat) (win : EvWin) (inj fatal : Bool) :
    (s.queueReport u bit cls win inj fatal).kept = s.kept := by
  simp [State.queueReport]

@[simp ↓] theorem report_kept (s : State) (u : Inst) (bit cls : Nat) (win : EvWin) (inj : Bool) :
    (s.report u bit cls win inj).kept = s.kept := kept_of_apart (report_apart s u bit cls win inj)

@[simp ↓] theorem event_kept (s : State) (u : Inst) (bit : Nat) (win : EvWin) (inj : Bool) :
    (s.event u bit win inj).kept = s.kept := kept_of_apart (event_apart s u bit win inj)

@[simp ↓] theorem flagTile_kept (s : State) (t cause : Nat) (inj : Bool) : (s.flagTile t cause inj).kept = s.kept :=
  kept_of_apart (flagTile_apart s t cause inj)

@[simp ↓] theorem noteFatal_kept (s : State) (u : Inst) (inj : Bool) : (s.noteFatal u inj).kept = s.kept := by
  simp [State.noteFatal]

@[simp ↓] theorem portStops_kept (s : State) (n : Nat) : (s.portStops n).kept = s.kept := by simp [State.portStops]

@[simp ↓] theorem enterFaulted_kept (s : State) (u : Inst) (inj : Bool) : (s.enterFaulted u inj).kept = s.kept :=
  kept_of_apart (enterFaulted_apart s u inj)

@[simp ↓] theorem raise_kept (s : State) (u : Inst) (bit : Nat) (win : EvWin) (inj : Bool) :
    (s.raise u bit win inj).kept = s.kept := kept_of_apart (raise_apart s u bit win inj)

@[simp ↓] theorem protocol_kept (s : State) (u : Inst) : (s.protocol u).kept = s.kept := by simp [State.protocol]
@[simp ↓] theorem access_kept (s : State) (u : Inst) : (s.access u).kept = s.kept := by simp [State.access]
@[simp ↓] theorem noteUnmapped_kept (s : State) (a : Nat) : (s.noteUnmapped a).kept = s.kept := by simp [State.noteUnmapped]
@[simp ↓] theorem tileWr_kept (s : State) (t a : Nat) (d : Bytes) : (s.tileWr t a d).kept = s.kept := by simp [State.tileWr]

/-! ### DRAM: beats, queues and requesters -/

@[simp ↓] theorem setNib_kept (s : State) (lo hi n v : Nat) : (s.setNib lo hi n v).kept = s.kept := by simp [State.setNib]

@[simp ↓] theorem setRankState_kept (s : State) (c p v : Nat) : (s.setRankState c p v).kept = s.kept := by
  simp [State.setRankState]

@[simp ↓] theorem setFaults_kept (s : State) (k : Nat) (v : Nat × Nat) : (s.setFaults k v).kept = s.kept := by
  simp [State.setFaults]

@[simp ↓] theorem upset_kept (s : State) (x : Upset) : (s.upset x).kept = s.kept := by simp [State.upset]

@[simp ↓] theorem storeBlock_kept (s : State) (blk : Nat) (data : Bytes) (mark : Bool) :
    (s.storeBlock blk data mark).kept = s.kept := by
  unfold State.storeBlock
  exact foldl_kept _ _ _ fun _ _ => rfl

@[simp ↓] theorem setQueue_kept (s : State) (c ch : Nat) (q : List WqEntry) : (s.setQueue c ch q).kept = s.kept := by
  simp [State.setQueue]

@[simp ↓] theorem setReads_kept (s : State) (c ch : Nat) (q : List MemRead) : (s.setReads c ch q).kept = s.kept := by
  simp [State.setReads]

@[simp ↓] theorem noteUe_kept (s : State) (c p blk : Nat) : (s.noteUe c p blk).kept = s.kept := by simp [State.noteUe]
@[simp ↓] theorem countUe_kept (s : State) (c p blk : Nat) : (s.countUe c p blk).kept = s.kept := by simp [State.countUe]
@[simp ↓] theorem countCe_kept (s : State) (c : Nat) : (s.countCe c).kept = s.kept := by simp [State.countCe]

@[simp ↓] theorem rankFault_kept (s : State) (c p : Nat) : (s.rankFault c p).kept = s.kept := by
  unfold State.rankFault
  repeat' split
  all_goals simp

@[simp ↓] theorem linkRetry_kept (s : State) (c fails : Nat) : (s.linkRetry c fails).kept = s.kept := by
  simp [State.linkRetry]

@[simp ↓] theorem settle_kept (s : State) (c rank pair : Nat) (n : Int) : (s.settle c rank pair n).kept = s.kept := by
  simp [State.settle]

@[simp ↓] theorem refreshPair_kept (s : State) (c rank pair : Nat) : (s.refreshPair c rank pair).kept = s.kept := by
  simp [State.refreshPair]

@[simp ↓] theorem activate_kept (s : State) (c p bank row : Nat) : (s.activate c p bank row).kept = s.kept := by
  simp [State.activate]

@[simp ↓] theorem touch_kept (s : State) (c p r : Nat) : (s.touch c p r).kept = s.kept := by simp [State.touch]

@[simp ↓] theorem beatTo_kept (s : State) (c p r k : Nat) : (s.beatTo c p r k).2.kept = s.kept := by
  simp [State.beatTo]

@[simp ↓] theorem beatsTo_kept (s : State) (c r k : Nat) (l : List Nat) : (s.beatsTo c r k l).1.kept = s.kept := by
  induction l generalizing s with
  | nil => rfl
  | cons p l ih => simp [State.beatsTo, ih]

@[simp ↓] theorem countBeat_kept (s : State) (c ch port : Nat) : (s.countBeat c ch port).kept = s.kept := by
  simp [State.countBeat]

@[simp ↓] theorem rmwErrors_kept (s : State) (c p blk errs : Nat) : (s.rmwErrors c p blk errs).kept = s.kept := by
  simp [State.rmwErrors]

@[simp ↓] theorem drainEntry_kept (s : State) (c : Nat) (e : WqEntry) : (s.drainEntry c e).kept = s.kept := by
  unfold State.drainEntry
  dsimp only
  split
  · rfl
  · rw [foldl_kept _ _ _ fun s t => rankFault_kept s c t]
    simp

@[simp ↓] theorem drainTo_kept (s : State) (c ch n : Nat) : (s.drainTo c ch n).kept = s.kept := by simp [State.drainTo]

@[simp ↓] theorem enqueueWrite_kept (s : State) (e : WqEntry) : (s.enqueueWrite e).kept = s.kept := by
  simp [State.enqueueWrite]

@[simp ↓] theorem readStored_kept (s : State) (blk : Nat) : (s.readStored blk).kept = s.kept := by simp [State.readStored]

@[simp ↓] theorem readEffect_kept (s : State) (port blk : Nat) : (s.readEffect port blk).kept = s.kept := by
  unfold State.readEffect
  dsimp only
  split
  · rfl
  · split
    · split <;> simp
    · simp

@[simp ↓] theorem readBeats_kept (s : State) (u : Inst) (a n : Nat) : (s.readBeats u a n).kept = s.kept := by
  simp [State.readBeats]

@[simp ↓] theorem holdReq_kept (s : State) (r : MemReq) : (s.holdReq r).kept = s.kept := by simp [State.holdReq]

@[simp ↓] theorem writeBlock_kept (s : State) (u : Inst) (e : WqEntry) : (s.writeBlock u e).kept = s.kept := by
  simp [State.writeBlock]

@[simp ↓] theorem writeBytes_kept (s : State) (u : Inst) (a : Nat) (data : Bytes) (en : List Bool) (mark : Bool) :
    (s.writeBytes u a data en mark).kept = s.kept := by
  simp [State.writeBytes]

@[simp ↓] theorem writeMem_kept (s : State) (u : Inst) (a : Nat) (data : Bytes) (mark : Bool) :
    (s.writeMem u a data mark).kept = s.kept := by
  simp [State.writeMem]

@[simp ↓] theorem dropBeats_kept (s : State) (u : Inst) : (s.dropBeats u).kept = s.kept := by simp [State.dropBeats]

/-! ### The cell pool -/

@[simp ↓] theorem noteFree_kept (s : State) : s.noteFree.kept = s.kept := by simp [State.noteFree]
@[simp ↓] theorem cpmStart_kept (s : State) : s.cpmStart.kept = s.kept := by simp [State.cpmStart]
@[simp ↓] theorem cpmStop_kept (s : State) : s.cpmStop.kept = s.kept := by simp [State.cpmStop]
@[simp ↓] theorem setAlloc_kept (s : State) (i : Nat) (b : Bool) : (s.setAlloc i b).kept = s.kept := by simp [State.setAlloc]

@[simp ↓] theorem grantCell_kept (s : State) : s.grantCell.2.kept = s.kept := by
  unfold State.grantCell
  split
  · split
    · simp
    · split <;> simp
  · simp

@[simp ↓] theorem grantCells_kept (n : Nat) (s : State) : (State.grantCells n s).2.2.kept = s.kept := by
  induction n generalizing s with
  | zero => rfl
  | succ n ih =>
    unfold State.grantCells
    split
    · rename_i hg
      exact (ih _).trans (kept_of_snd_eq hg (grantCell_kept s))
    · rename_i hg
      exact kept_of_snd_eq hg (grantCell_kept s)

@[simp ↓] theorem writeChain_kept (s : State) (n : Nat) (cells : List Nat) (data : Bytes) (first : Bool) :
    (s.writeChain n cells data first).kept = s.kept := by
  induction cells generalizing s data first with
  | nil => rfl
  | cons i rest ih => simp [State.writeChain, ih]

@[simp ↓] theorem askReturn_kept (s : State) (r : ChainRet) : (s.askReturn r).kept = s.kept := by simp [State.askReturn]

@[simp ↓] theorem ingReturn_kept (s : State) (n : Nat) (cells : List Nat) : (s.ingReturn n cells).kept = s.kept := by
  unfold State.ingReturn
  split <;> simp

@[simp ↓] theorem setBuf_kept (s : State) (k i v : Nat) : (s.setBuf k i v).kept = s.kept := by simp [State.setBuf]

@[simp ↓] theorem rejectReturn_kept (s : State) (cause source unit addr : Nat) :
    (s.rejectReturn cause source unit addr).kept = s.kept := by
  simp [State.rejectReturn]

@[simp ↓] theorem clearAlloc_kept (s : State) (i : Nat) : (s.clearAlloc i).kept = s.kept := by simp [State.clearAlloc]

@[simp ↓] theorem transmit_kept (s : State) (n : Nat) (frame : Bytes) : (s.transmit n frame).kept = s.kept := by
  simp [State.transmit]

/-! ### Ports and the clock -/

@[simp ↓] theorem toPhase_kept (s : State) (p : Nat) : (s.toPhase p).kept = s.kept := by simp [State.toPhase]

theorem afterPu_kept {s t : State} {e : BitVec 40} {p : BitVec 24} {pu : Nat} (h : s.afterPu e p pu = some t) :
    t.kept = s.kept := by
  unfold State.afterPu at h
  dsimp only at h
  split at h
  · cases h; rfl
  · split at h
    · cases h; simp
    · cases h

@[simp ↓] theorem toTime_kept (s : State) (t : Nat) : (s.toTime t).kept = s.kept := by simp [State.toTime]
@[simp ↓] theorem tmuStart_kept (s : State) : s.tmuStart.kept = s.kept := by simp [State.tmuStart]
@[simp ↓] theorem tmuStop_kept (s : State) : s.tmuStop.kept = s.kept := by simp [State.tmuStop]
@[simp ↓] theorem tmuReset_kept (s : State) : s.tmuReset.kept = s.kept := by simp [State.tmuReset]

/-! ### Stream contexts, access units and packets -/

@[simp ↓] theorem setStream_kept (s : State) (n st reason : Nat) : (s.setStream n st reason).kept = s.kept := by
  simp [State.setStream]

@[simp ↓] theorem violation_kept (s : State) (n bit : Nat) : (s.violation n bit).kept = s.kept := by simp [State.violation]

@[simp ↓] theorem sendRtcp_kept (s : State) (n : Nat) (d : RtcpDest) (feedback : Word → Word → Bytes) :
    (s.sendRtcp n d feedback).kept = s.kept := by
  simp [State.sendRtcp]

@[simp ↓] theorem pli_kept (s : State) (n : Nat) : (s.pli n).kept = s.kept := by
  unfold State.pli
  split <;> simp

@[simp ↓] theorem returnAll_kept (s : State) (n : Nat) : (s.returnAll n).kept = s.kept := by
  unfold State.returnAll
  dsimp only
  split <;> simp

@[simp ↓] theorem enterFree_kept (s : State) (n : Nat) : (s.enterFree n).kept = s.kept := by simp [State.enterFree]
@[simp ↓] theorem enterActive_kept (s : State) (n : Nat) : (s.enterActive n).kept = s.kept := by simp [State.enterActive]

@[simp ↓] theorem enterHeld_kept (s : State) (n reason : Nat) : (s.enterHeld n reason).kept = s.kept := by
  simp [State.enterHeld]

@[simp ↓] theorem anchorAt_kept (s : State) (n : Nat) (ts : Word) (slot : Int) : (s.anchorAt n ts slot).kept = s.kept := by
  simp [State.anchorAt]

@[simp ↓] theorem slotOf_kept (s : State) (n : Nat) (a : Assembly) : (s.slotOf n a).2.2.2.kept = s.kept := by
  unfold State.slotOf
  dsimp only
  repeat' split
  all_goals simp

@[simp ↓] theorem fillChain_kept (s : State) (n : Nat) (a : Assembly) : (s.fillChain n a).1.kept = s.kept := by
  simp [State.fillChain]

@[simp ↓] theorem discardAu_kept (s : State) (n : Nat) (cells : List Nat) (viol : Option Nat) (ask : Bool) :
    (s.discardAu n cells viol ask).kept = s.kept := by
  unfold State.discardAu
  split <;> simp

@[simp ↓] theorem deliverAu_kept (s : State) (n : Nat) (a : Assembly) (slot : Int) (jump noMarker anchors : Bool) :
    (s.deliverAu n a slot jump noMarker anchors).kept = s.kept := by
  unfold State.deliverAu
  extract_lets phi s1 x1 s2 s3 au x3 s4 s5 s6 x6
  have h6 : s6.kept = s.kept := by simp [s6, s5, s4, s3, s2, s1]
  split
  · split <;> simp [h6]
  · exact h6

@[simp ↓] theorem completeAu_kept (s : State) (n : Nat) (a : Assembly) (noMarker : Bool) :
    (s.completeAu n a noMarker).kept = s.kept := by
  unfold State.completeAu
  dsimp only
  split
  · simp
  · split
    · simp
    · split
      · simp
      · split <;> simp

@[simp ↓] theorem endAu_kept (s : State) (n : Nat) (noMarker : Bool) : (s.endAu n noMarker).kept = s.kept := by
  unfold State.endAu
  dsimp only
  split <;> simp

@[simp ↓] theorem chargeLoss_kept (s : State) (n : Nat) : (s.chargeLoss n).kept = s.kept := by
  unfold State.chargeLoss
  dsimp only
  split <;> simp

@[simp ↓] theorem declareLost_kept (s : State) (n : Nat) : (s.declareLost n).kept = s.kept := by simp [State.declareLost]

@[simp ↓] theorem keepPacket_kept (s : State) (n : Nat) (p : Packet) (a : Assembly)
    (fresh unsupported brokenFrag tooBig : Bool) :
    (s.keepPacket n p a fresh unsupported brokenFrag tooBig).kept = s.kept := by
  unfold State.keepPacket
  extract_lets x follow s1 x1 a1 f s2 a2 y s3 s4 s5 z s6
  have hf : f.1.kept = s1.kept := by
    dsimp only [f]
    split <;> simp
  have h5 : s5.kept = s.kept := by simp [s5, s4, s3, s2, hf, s1]
  split
  · simp [s6, h5]
  · exact h5

@[simp ↓] theorem deliverPacket_kept (s : State) (n : Nat) (p : Packet) : (s.deliverPacket n p).kept = s.kept := by
  simp [State.deliverPacket]

@[simp ↓] theorem drainReorder_kept (n fuel : Nat) (s : State) : (State.drainReorder n fuel s).kept = s.kept := by
  induction fuel generalizing s with
  | zero => rfl
  | succ fuel ih =>
    unfold State.drainReorder
    dsimp only
    split
    · rfl
    · split <;> simp [ih]

@[simp ↓] theorem reorder_kept (s : State) (n : Nat) (p : Packet) : (s.reorder n p).kept = s.kept := by simp [State.reorder]
@[simp ↓] theorem setRtcp_kept (s : State) (n : Nat) (d : RtcpDest) : (s.setRtcp n d).kept = s.kept := by simp [State.setRtcp]

@[simp ↓] theorem rtcpRx_kept (s : State) (n : Nat) (dest : RtcpDest) (d : Bytes) : (s.rtcpRx n dest d).kept = s.kept := by
  simp [State.rtcpRx]

@[simp ↓] theorem rtpRx_kept (s : State) (n port : Nat) (f : EthFrame) (u : Udp) : (s.rtpRx n port f u).kept = s.kept := by
  unfold State.rtpRx
  split <;> simp

@[simp ↓] theorem ingest_kept (s : State) (port : Nat) (f : EthFrame) : (s.ingest port f).kept = s.kept := by
  unfold State.ingest
  repeat' split
  all_goals simp

/-! ### The host interface -/

@[simp ↓] theorem leaveL1_kept (s : State) : s.leaveL1.kept = s.kept := by simp [State.leaveL1]
@[simp ↓] theorem updInta_kept (s : State) : s.updInta.kept = s.kept := by simp [State.updInta]
@[simp ↓] theorem attn_kept (s : State) (bit : Nat) : (s.attn bit).kept = s.kept := by simp [State.attn]

@[simp ↓] theorem winFail_kept (s : State) (cls : Nat) (write fence : Bool) (n : Nat) :
    (s.winFail cls write fence n).kept = s.kept := by
  simp [State.winFail]

@[simp ↓] theorem hostWrite_kept (s : State) (addr : Nat) (data : Bytes) (poisoned : Bool) :
    (s.hostWrite addr data poisoned).kept = s.kept := by
  simp [State.hostWrite]

@[simp ↓] theorem hostRead_kept (s : State) (by' : ReadBy) (addr len : Nat) : (s.hostRead by' addr len).kept = s.kept := by
  simp [State.hostRead]

@[simp ↓] theorem dropOut_kept (s : State) (n : Nat) : (s.dropOut n).kept = s.kept := by simp [State.dropOut]
@[simp ↓] theorem setRing_kept (s : State) (r st : Nat) : (s.setRing r st).kept = s.kept := by simp [State.setRing]

@[simp ↓] theorem ringFault_kept (s : State) (r cause : Nat) : (s.ringFault r cause).kept = s.kept := by
  simp [State.ringFault]

@[simp ↓] theorem mirrorIdx_kept (s : State) (r : Nat) : (s.mirrorIdx r).kept = s.kept := by simp [State.mirrorIdx]

@[simp ↓] theorem setIdxOwed_kept (s : State) (r : Nat) (b : Bool) : (s.setIdxOwed r b).kept = s.kept := by
  simp [State.setIdxOwed]

@[simp ↓] theorem setFence_kept (s : State) (f : Nat) (v : BitVec 64) : (s.setFence f v).kept = s.kept := by
  simp [State.setFence]

@[simp ↓] theorem setFenceOwed_kept (s : State) (f : Nat) (b : Bool) : (s.setFenceOwed f b).kept = s.kept := by
  simp [State.setFenceOwed]

@[simp ↓] theorem incFence_kept (s : State) (f n : Nat) : (s.incFence f n).kept = s.kept := by simp [State.incFence]

@[simp ↓] theorem ringFenceInc_kept (s : State) (r n : Nat) : (s.ringFenceInc r n).kept = s.kept := by
  simp [State.ringFenceInc]

@[simp ↓] theorem mirrorFence_kept (s : State) (f : Nat) : (s.mirrorFence f).kept = s.kept := by simp [State.mirrorFence]

@[simp ↓] theorem publish_kept (s : State) (r : Nat) (data : Bytes) (incs : Nat) : (s.publish r data incs).kept = s.kept := by
  simp [State.publish]

@[simp ↓] theorem consume_kept (s : State) (r n : Nat) : (s.consume r n).kept = s.kept := by simp [State.consume]
@[simp ↓] theorem mbxHostLoss_kept (s : State) : s.mbxHostLoss.kept = s.kept := by simp [State.mbxHostLoss]
@[simp ↓] theorem cfgReset_kept (s : State) (d3 : Bool) : (s.cfgReset d3).kept = s.kept := by simp [State.cfgReset]
@[simp ↓] theorem hostLoss_kept (s : State) (cause : Nat) : (s.hostLoss cause).kept = s.kept := by simp [State.hostLoss]
@[simp ↓] theorem pcieDrop_kept (s : State) : s.pcieDrop.kept = s.kept := by simp [State.pcieDrop]
@[simp ↓] theorem pcieLost_kept (s : State) : s.pcieLost.kept = s.kept := by simp [State.pcieLost]
@[simp ↓] theorem errMsg_kept (s : State) (level : Nat) : (s.errMsg level).kept = s.kept := by simp [State.errMsg]
@[simp ↓] theorem aerUnc_kept (s : State) (bit : Nat) : (s.aerUnc bit).kept = s.kept := by simp [State.aerUnc]
@[simp ↓] theorem aerCor_kept (s : State) (bit : Nat) : (s.aerCor bit).kept = s.kept := by simp [State.aerCor]
@[simp ↓] theorem program_kept (s : State) (c : HostCfg) : (s.program c).kept = s.kept := by simp [State.program]

@[simp ↓] theorem dropReads_kept (s : State) (f : HostRead → Bool) : (s.dropReads f).kept = s.kept := by
  simp [State.dropReads]

@[simp ↓] theorem bar2Beyond_kept (s : State) (off : Nat) : (s.bar2Beyond off).kept = s.kept := by simp [State.bar2Beyond]

/-! ### Reports -/

@[simp ↓] theorem wake_kept (s : State) (b : Nat) : (s.wake b).kept = s.kept := by simp [State.wake]

@[simp ↓] theorem coalesce_kept (s : State) (r : Report) : (s.coalesce r).kept = s.kept := by
  unfold State.coalesce
  dsimp only
  split
  · simp
  · split <;> simp

@[simp ↓] theorem logWrite_kept (s : State) (r : Report) : (s.logWrite r).kept = s.kept := by simp [State.logWrite]
@[simp ↓] theorem takeReport_kept (s : State) (r : Report) : (s.takeReport r).kept = s.kept := by simp [State.takeReport]

@[simp ↓] theorem firmwareEntry_kept (s : State) : s.firmwareEntry.kept = s.kept := by
  unfold State.firmwareEntry
  split <;> simp

@[simp ↓] theorem coalClear_kept (s : State) : s.coalClear.kept = s.kept := by simp [State.coalClear]

/-! ### The bridge -/

@[simp ↓] theorem setSnap_kept (s : State) (e : BitVec 40) (d : Bytes) (ok : Bool) : (s.setSnap e d ok).kept = s.kept := by
  simp [State.setSnap]

@[simp ↓] theorem strobeFrame_kept (s : State) (f : Bytes) : (s.strobeFrame f).kept = s.kept := by
  unfold State.strobeFrame
  split <;> simp

@[simp ↓] theorem periodicFrame_kept (s : State) (f : Bytes) : (s.periodicFrame f).kept = s.kept := by
  simp [State.periodicFrame]

@[simp ↓] theorem missStrobe_kept (s : State) : s.missStrobe.kept = s.kept := by
  unfold State.missStrobe
  split <;> simp

/-! ### Plans -/

@[simp ↓] theorem setSlot_kept (s : State) (n st reason : Nat) : (s.setSlot n st reason).kept = s.kept := by
  simp [State.setSlot]

@[simp ↓] theorem setCommit_kept (s : State) (st : Nat) : (s.setCommit st).kept = s.kept := by simp [State.setCommit]
@[simp ↓] theorem commitSlot_kept (s : State) (n : Nat) : (s.commitSlot n).kept = s.kept := by simp [State.commitSlot]

@[simp ↓] theorem cancelCommit_kept (s : State) : s.cancelCommit.kept = s.kept := by
  unfold State.cancelCommit
  split <;> simp

@[simp ↓] theorem commitWrite_kept (s : State) (v : Word) : (s.commitWrite v).kept = s.kept := by simp [State.commitWrite]

/-! ### Records -/

@[simp ↓] theorem setStore_kept (s : State) (l : List Rec) : (s.setStore l).kept = s.kept := by simp [State.setStore]

@[simp ↓] theorem setDropBefore_kept (s : State) (n r : Nat) (b : Bool) : (s.setDropBefore n r b).kept = s.kept := by
  simp [State.setDropBefore]

@[simp ↓] theorem acceptRecord_kept (s : State) (p : Plan) (w : Nat) (e : PlanWindow) :
    (s.acceptRecord p w e).kept = s.kept := by
  simp [State.acceptRecord]

@[simp ↓] theorem egrStreamStart_kept (s : State) (n : Nat) : (s.egrStreamStart n).kept = s.kept := by
  simp [State.egrStreamStart]

/-! ### Decode -/

@[simp ↓] theorem readCopies_kept (s : State) (u : Inst) (base n : Nat) : (s.readCopies u base n).kept = s.kept := by
  rw [State.readCopies]
  cases s.newerCopy base with
  | none => simp
  | some i => simp

@[simp ↓] theorem writeCopy_kept (s : State) (u : Inst) (pic : PicRun) (table : Bytes) (lost : Bool) (store : List StorePic)
    (epoch sub slot : Nat) :
    (s.writeCopy u pic table lost store epoch sub slot).kept = s.kept := by
  simp [State.writeCopy]

@[simp ↓] theorem decIdle_kept (s : State) (n : Nat) : (s.decIdle n).kept = s.kept := by simp [State.decIdle]
@[simp ↓] theorem decAbort_kept (s : State) (w : Nat) : (s.decAbort w).kept = s.kept := by simp [State.decAbort]

@[simp ↓] theorem noteConceal_kept (s : State) (n stream permille event : Nat) (win : EvWin) :
    (s.noteConceal n stream permille event win).kept = s.kept := by
  simp [State.noteConceal]

@[simp ↓] theorem flagWin_kept (s : State) (w : Nat) (f : Word) : (s.flagWin w f).kept = s.kept := by simp [State.flagWin]

@[simp ↓] theorem writePicture_kept (s : State) (q : PicRun) (cores : List (Nat × DecJob)) (addr : Nat) (b : Bytes) :
    (s.writePicture q cores addr b).kept = s.kept := by
  simp [State.writePicture]

@[simp ↓] theorem readRefs_kept (s : State) (q : PicRun) (u : Inst) (l : List Concealed) :
    (s.readRefs q u l).kept = s.kept := by
  simp [State.readRefs]

@[simp ↓] theorem finishPicture_kept (s : State) (w : Nat) (e : PlanWindow) (au : AccessUnit) (q : PicRun) :
    (s.finishPicture w e au q).kept = s.kept := by
  simp [State.finishPicture]

@[simp ↓] theorem finishDecode_kept (s : State) (w : Nat) (e : PlanWindow) : (s.finishDecode w e).kept = s.kept := by
  unfold State.finishDecode
  split <;> simp

@[simp ↓] theorem refuseSeq_kept (s : State) (w : Nat) (e : PlanWindow) (au : AccessUnit) (q : PicRun) (seq : SeqInfo)
    (cause : Nat) :
    (s.refuseSeq w e au q seq cause).kept = s.kept := by
  simp [State.refuseSeq]

@[simp ↓] theorem startCores_kept (s : State) (w : Nat) (e : PlanWindow) (parts : List (Nat × Nat)) (beyond : Nat → Bool)
    (done : Bool) :
    (s.startCores w e parts beyond done).kept = s.kept := by
  simp [State.startCores]

@[simp ↓] theorem decDescFail_kept (s : State) (p : Plan) (w : Nat) (e : PlanWindow) (au : AccessUnit) :
    (s.decDescFail p w e au).kept = s.kept := by
  unfold State.decDescFail
  dsimp only
  split <;> simp

@[simp ↓] theorem readAtFiring_kept (s : State) (p : Plan) (e : PlanWindow) (refs : List PlanRef) (au : AccessUnit) :
    (s.readAtFiring p e refs au).kept = s.kept := by
  simp [State.readAtFiring]

@[simp ↓] theorem fireDecode_kept (s : State) (p : Plan) (w : Nat) (e : PlanWindow) (au : AccessUnit) :
    (s.fireDecode p w e au).kept = s.kept := by
  unfold State.fireDecode State.when
  dsimp only
  repeat' split
  all_goals simp

/-! ### Tile programs -/

@[simp ↓] theorem setProg_kept (s : State) (t : Nat) (p : TileProg) : (s.setProg t p).kept = s.kept := by simp [State.setProg]

@[simp ↓] theorem stageMark_kept (s : State) (t : Nat) : (s.stageMark t).kept = s.kept := by
  unfold State.stageMark
  split <;> simp

@[simp ↓] theorem invalidInsn_kept (s : State) (t cause : Nat) : (s.invalidInsn t cause).kept = s.kept := by
  unfold State.invalidInsn
  split <;> simp

@[simp ↓] theorem lookNext_kept (s : State) (t : Nat) : (s.lookNext t).kept = s.kept := by
  unfold State.lookNext
  repeat' split
  all_goals simp

@[simp ↓] theorem issued_kept (s : State) (t : Nat) : (s.issued t).kept = s.kept := by
  unfold State.issued
  split <;> simp

@[simp ↓] theorem enqueue_kept (s : State) (t : Nat) (c : Nat) (p : TileProg) (o : UnitOp) :
    (s.enqueue t c p o).kept = s.kept := by
  simp [State.enqueue]

@[simp ↓] theorem noteEnd_kept (s : State) (t : Nat) : (s.noteEnd t).kept = s.kept := by
  unfold State.noteEnd
  split <;> simp

@[simp ↓] theorem popUnit_kept (s : State) (t c : Nat) : (s.popUnit t c).kept = s.kept := by simp [State.popUnit]

@[simp ↓] theorem setHead_kept (s : State) (t c : Nat) (o : UnitOp) : (s.setHead t c o).kept = s.kept := by
  simp [State.setHead]

@[simp ↓] theorem countClips_kept (s : State) (t : Nat) (p : TileProg) (exp req bad : Nat) :
    (s.countClips t p exp req bad).kept = s.kept := by
  simp [State.countClips]

@[simp ↓] theorem arrive_kept (s : State) (t k : Nat) : (s.arrive t k).kept = s.kept := by simp [State.arrive]

@[simp ↓] theorem readStamps_kept (s : State) (t : Nat) (p : TileProg) : (s.readStamps t p).kept = s.kept := by
  simp [State.readStamps]

@[simp ↓] theorem stateReset_kept (s : State) (t : Nat) (p : TileProg) : (s.stateReset t p).kept = s.kept := by
  simp [State.stateReset]

@[simp ↓] theorem setStale_kept (s : State) (n l : Nat) (b : Bool) : (s.setStale n l b).kept = s.kept := by
  simp [State.setStale]

@[simp ↓] theorem noteStale_kept (s : State) (w : Nat) (e : PlanWindow) : (s.noteStale w e).kept = s.kept := by
  simp [State.noteStale]

@[simp ↓] theorem swapIn_kept (s : State) (t : Nat) (p : TileProg) : (s.swapIn t p).kept = s.kept := by
  rw [State.swapIn]
  cases s.newerState p with
  | none => simp
  | some j => simp

@[simp ↓] theorem swapOut_kept (s : State) (t : Nat) (p : TileProg) : (s.swapOut t p).kept = s.kept := by simp [State.swapOut]

@[simp ↓] theorem beginTile_kept (s : State) (t w n : Nat) (q : TileProg) : (s.beginTile t w n q).kept = s.kept := by
  simp [State.beginTile]

@[simp ↓] theorem fireOne_kept (s : State) (p : Plan) (w : Nat) (e : PlanWindow) (l : Nat) :
    (s.fireOne p w e l).kept = s.kept := by
  simp [State.fireOne]

@[simp ↓] theorem fireTiles_kept (s : State) (p : Plan) (w : Nat) (e : PlanWindow) : (s.fireTiles p w e).kept = s.kept := by
  simp [State.fireTiles]

/-! ### Matrix operations -/

@[simp ↓] theorem showOp_kept (s : State) (t : Nat) : (s.showOp t).kept = s.kept := by
  unfold State.showOp
  split <;> simp

@[simp ↓] theorem setMop_kept (s : State) (t : Nat) (d : MopDesc) (r : MopRun) : (s.setMop t d r).kept = s.kept := by
  simp [State.setMop]

@[simp ↓] theorem loadFront_kept (s : State) (t : Nat) (p : TileProg) : (s.loadFront t p).kept = s.kept := by
  unfold State.loadFront
  repeat' split
  all_goals simp

@[simp ↓] theorem loadFronts_kept (s : State) (t : Nat) (p : TileProg) : (s.loadFronts t p).kept = s.kept := by
  simp [State.loadFronts]

@[simp ↓] theorem retryCost_kept (s : State) (t : Nat) (p : TileProg) (cycles : Nat) (inj : Bool) :
    (s.retryCost t p cycles inj).kept = s.kept := by
  simp [State.retryCost]

@[simp ↓] theorem mismatch_kept (s : State) (t : Nat) (p : TileProg) (check pass vec outcome : Nat) (inj : Bool)
    (diff : Option (Nat × Nat)) :
    (s.mismatch t p check pass vec outcome inj diff).kept = s.kept := by
  unfold State.mismatch
  split <;> simp

@[simp ↓] theorem firstVerdict_kept (s : State) (t : Nat) (p : TileProg) (check pass vec : Nat) (v : Verdict) :
    (s.firstVerdict t p check pass vec v).kept = s.kept := by
  simp [State.firstVerdict]

@[simp ↓] theorem replayVerdict_kept (s : State) (t : Nat) (p : TileProg) (r : Replay) (pass : Bool) :
    (s.replayVerdict t p r pass).kept = s.kept := by
  simp [State.replayVerdict]

@[simp ↓] theorem judge_kept (s : State) (t : Nat) (p : TileProg) (c : CheckAt) (v : Verdict) :
    (s.judge t p c v).kept = s.kept := by
  unfold State.judge State.when
  dsimp only
  repeat' split
  all_goals simp

@[simp ↓] theorem passDone_kept (s : State) (t : Nat) (cycles : Nat) : (s.passDone t cycles).kept = s.kept := by
  simp [State.passDone]

@[simp ↓] theorem takeLoad_kept (s : State) (t : Nat) (p : TileProg) (c : CheckAt) (u : LoadUpset) :
    (s.takeLoad t p c u).kept = s.kept := by
  unfold State.takeLoad
  repeat' split
  all_goals simp

@[simp ↓] theorem takeVector_kept (s : State) (t : Nat) (p : TileProg) (c : CheckAt) (u : ColUpset) :
    (s.takeVector t p c u).kept = s.kept := by
  unfold State.takeVector
  repeat' split
  all_goals simp

@[simp ↓] theorem takeCheck_kept (s : State) (t : Nat) (p : TileProg) (c : CheckAt) : (s.takeCheck t p c).kept = s.kept := by
  simp [State.takeCheck]

@[simp ↓] theorem takeChecks_kept (t : Nat) (p : TileProg) (stop : Option CheckAt) (n : Nat) (s : State) :
    (State.takeChecks t p stop n s).kept = s.kept := by
  induction n generalizing s with
  | zero => rfl
  | succ n ih =>
    unfold State.takeChecks
    split <;> simp [ih]

@[simp ↓] theorem countFreeze_kept (s : State) (t : Nat) : (s.countFreeze t).kept = s.kept := by simp [State.countFreeze]

@[simp ↓] theorem outputs_kept (s : State) (t : Nat) (p : TileProg) (d : MopDesc) (r : MopRun) (blocks : Nat) :
    (s.outputs t p d r blocks).kept = s.kept := by
  simp [State.outputs]

@[simp ↓] theorem endMop_kept (s : State) (t : Nat) (p : TileProg) : (s.endMop t p).kept = s.kept := by
  unfold State.endMop
  split <;> simp

@[simp ↓] theorem cutPasses_kept (t cpv : Nat) (l : List Pass) (n : Nat) (s : State) :
    (State.cutPasses t cpv l n s).kept = s.kept := by
  induction l generalizing n s with
  | nil => rfl
  | cons P l ih => simp [State.cutPasses, ih]

@[simp ↓] theorem cutShort_kept (s : State) (t : Nat) : (s.cutShort t).kept = s.kept := by
  unfold State.cutShort State.when
  dsimp only
  repeat' split
  all_goals simp

@[simp ↓] theorem closeTile_kept (s : State) (w n : Nat) (t : Nat) : (s.closeTile w n t).kept = s.kept := by
  simp [State.closeTile]

@[simp ↓] theorem closeTiles_kept (s : State) (w : Nat) (e : PlanWindow) : (s.closeTiles w e).kept = s.kept := by
  simp [State.closeTiles]

@[simp ↓] theorem satAhead_kept (s : State) (w : Nat) (e : PlanWindow) : (s.satAhead w e).kept = s.kept := by
  simp [State.satAhead]

/-! ### Tile programs -/

@[simp ↓] theorem landLoad_kept (s : State) (t : Nat) (p : TileProg) (addr ts left : Nat) (ctr : Option Nat) :
    (s.landLoad t p addr ts left ctr).kept = s.kept := by
  unfold State.landLoad
  split <;> simp

@[simp ↓] theorem collide_kept (s : State) (t : Nat) (w : Nat) : (s.collide t w).kept = s.kept := by
  unfold State.collide
  split
  · rfl
  · refine foldl_kept _ _ _ fun s b => ?_
    split <;> simp

@[simp ↓] theorem landSend_kept (s : State) (t : Nat) (p : TileProg) (dest src dst left ctr slots issued : Nat) :
    (s.landSend t p dest src dst left ctr slots issued).kept = s.kept := by
  unfold State.landSend
  dsimp only
  rw [setHead_kept]
  refine (foldl_kept _ _ _ fun s l => ?_).trans ?_
  · rfl
  · simp

/-! ### Lens engines -/

@[simp ↓] theorem augRead_kept (s : State) (n ring : Nat) (j : LnsJob) : (s.augRead n ring j).kept = s.kept := by
  simp [State.augRead]

@[simp ↓] theorem augDefault_kept (s : State) (n cause : Nat) (j : LnsJob) (e : PlanWindow) :
    (s.augDefault n cause j e).kept = s.kept := by
  simp [State.augDefault]

@[simp ↓] theorem augAct_kept (s : State) (n : Nat) (j : LnsJob) (e : PlanWindow) (ring : Nat) :
    (s.augAct n j e ring).kept = s.kept := by
  unfold State.augAct
  split <;> simp

@[simp ↓] theorem lnsIdle_kept (s : State) (n : Nat) : (s.lnsIdle n).kept = s.kept := by simp [State.lnsIdle]
@[simp ↓] theorem lensAbort_kept (s : State) (w : Nat) : (s.lensAbort w).kept = s.kept := by simp [State.lensAbort]

@[simp ↓] theorem lensOpen_kept (s : State) (p : Plan) (w : Nat) (e : PlanWindow) : (s.lensOpen p w e).kept = s.kept := by
  unfold State.lensOpen
  refine foldl_kept _ _ _ fun s n => ?_
  split <;> simp

@[simp ↓] theorem fireLens_kept (s : State) (p : Plan) (w : Nat) (e : PlanWindow) : (s.fireLens p w e).kept = s.kept := by
  unfold State.fireLens
  dsimp only
  split
  · simp
  · rw [foldl_kept _ _ _ fun s n => ?_, foldl_kept _ _ _ fun s n => setNum_kept s _ _]
    split <;> simp

/-! ### The steward domain and SEAL -/

@[simp ↓] theorem setStage_kept (s : State) (n : Nat) : (s.setStage n).kept = s.kept := by simp [State.setStage]
@[simp ↓] theorem bootFail_kept (s : State) (cause : Nat) : (s.bootFail cause).kept = s.kept := by simp [State.bootFail]

@[simp ↓] theorem flashStore_kept (s : State) (a : Nat) (d : Bytes) : (s.flashStore a d).kept = s.kept := by
  simp [State.flashStore]

@[simp ↓] theorem bootImage_kept (s : State) (source : Nat) (h img : Bytes) : (s.bootImage source h img).kept = s.kept := by
  simp [State.bootImage]

@[simp ↓] theorem sealRank_kept (s : State) (c p : Nat) : (s.sealRank c p).kept = s.kept := by
  unfold State.sealRank
  dsimp only
  split
  · simp
  · split <;> simp

@[simp ↓] theorem sealDmc_kept (s : State) (c : Nat) : (s.sealDmc c).kept = s.kept := by
  unfold State.sealDmc
  split <;> simp

@[simp ↓] theorem sealNow_kept (s : State) : s.sealNow.kept = s.kept := by simp [State.sealNow]
@[simp ↓] theorem mbxAbort_kept (s : State) : s.mbxAbort.kept = s.kept := by simp [State.mbxAbort]

@[simp ↓] theorem stewardDomainReset_kept (s : State) : s.stewardDomainReset.kept = s.kept := by
  simp [State.stewardDomainReset]

@[simp ↓] theorem watchdogReset_kept (s : State) (inj : Bool) : (s.watchdogReset inj).kept = s.kept := by
  simp [State.watchdogReset]

@[simp ↓] theorem lockstepReset_kept (s : State) (inj : Bool) : (s.lockstepReset inj).kept = s.kept := by
  simp [State.lockstepReset]

/-! ### Fields, run states and resets -/

@[simp ↓] theorem autoOn_kept (s : State) (was : Bool) : (s.autoOn was).kept = s.kept := by simp [State.autoOn]

@[simp ↓] theorem landLive_kept (s : State) (a : Nat) (mask v : Word) : (s.landLive a mask v).kept = s.kept := by
  simp [State.landLive]

@[simp ↓] theorem writeLive_kept (s : State) (u : Inst) (a : Nat) (mask v : Word) :
    (s.writeLive u a mask v).kept = s.kept := by
  simp [State.writeLive]

@[simp ↓] theorem applyLive_kept (s : State) (p : Inst → Bool) : (s.applyLive p).kept = s.kept := by simp [State.applyLive]
@[simp ↓] theorem flushLive_kept (s : State) : s.flushLive.kept = s.kept := by simp [State.flushLive]

@[simp ↓] theorem staticReject_kept (s : State) (u : Inst) (a : Nat) : (s.staticReject u a).kept = s.kept := by
  simp [State.staticReject]

@[simp ↓] theorem writeW1c_kept (s : State) (u : Inst) (a : Nat) (mask v : Word) : (s.writeW1c u a mask v).kept = s.kept := by
  simp [State.writeW1c]

@[simp ↓] theorem writeFields_kept (s : State) (u : Inst) (a : Nat) (d : RegDesc) (v : Word) :
    (s.writeFields u a d v).kept = s.kept := by
  simp [State.writeFields]

@[simp ↓] theorem runStarts_kept (s : State) (u : Inst) : (s.runStarts u).kept = s.kept := by
  unfold State.runStarts
  repeat' split
  all_goals simp

@[simp ↓] theorem releaseUnit_kept (s : State) (u : Inst) : (s.releaseUnit u).kept = s.kept := by simp [State.releaseUnit]

@[simp ↓] theorem releaseUnits_kept (s : State) (e : PlanWindow) : (s.releaseUnits e).kept = s.kept := by
  simp [State.releaseUnits]

@[simp ↓] theorem dropWork_kept (s : State) (w : Nat) (e : PlanWindow) : (s.dropWork w e).kept = s.kept := by
  unfold State.dropWork
  split <;> simp

@[simp ↓] theorem returnAu_kept (s : State) (e : PlanWindow) (r : WinRun) : (s.returnAu e r).kept = s.kept := by
  unfold State.returnAu
  repeat' split
  all_goals simp

@[simp ↓] theorem closeWin_kept (s : State) (w : Nat) (e : PlanWindow) : (s.closeWin w e).kept = s.kept := by
  simp [State.closeWin]

@[simp ↓] theorem endWindows_kept (s : State) : s.endWindows.kept = s.kept := by
  unfold State.endWindows
  split
  · rfl
  · refine foldl_kept _ _ _ fun s w => ?_
    split <;> simp

@[simp ↓] theorem runStops_kept (s : State) (u : Inst) : (s.runStops u).kept = s.kept := by
  unfold State.runStops
  split <;> simp

@[simp ↓] theorem writeRun_kept (s : State) (u : Inst) (run : Bool) : (s.writeRun u run).kept = s.kept := by
  unfold State.writeRun
  dsimp only
  repeat' split
  all_goals simp

@[simp ↓] theorem resetFields_kept (s : State) (u : Inst) : (s.resetFields u).kept = s.kept := by
  unfold State.resetFields
  refine foldl_kept _ _ _ fun s a => ?_
  split <;> simp

@[simp ↓] theorem resetHeader_kept (s : State) (u : Inst) : (s.resetHeader u).kept = s.kept := by simp [State.resetHeader]
@[simp ↓] theorem zeroRegs_kept (s : State) (l : List Nat) : (s.zeroRegs l).kept = s.kept := by simp [State.zeroRegs]
@[simp ↓] theorem pleReset_kept (s : State) : s.pleReset.kept = s.kept := by simp [State.pleReset]
@[simp ↓] theorem tileReset_kept (s : State) (t : Nat) : (s.tileReset t).kept = s.kept := by simp [State.tileReset]
@[simp ↓] theorem cpmReset_kept (s : State) : s.cpmReset.kept = s.kept := by simp [State.cpmReset]
@[simp ↓] theorem ingReset_kept (s : State) : s.ingReset.kept = s.kept := by simp [State.ingReset]
@[simp ↓] theorem failWin_kept (s : State) (w : BitVec 12) : (s.failWin w).kept = s.kept := by simp [State.failWin]

@[simp ↓] theorem resetWork_kept (s : State) (u : Inst) : (s.resetWork u).kept = s.kept := by
  unfold State.resetWork
  repeat' split
  all_goals simp

@[simp ↓] theorem unitReset_kept (s : State) (u : Inst) : (s.unitReset u).kept = s.kept := by simp [State.unitReset]
@[simp ↓] theorem warmDevctl_kept (s : State) : s.warmDevctl.kept = s.kept := by simp [State.warmDevctl]
@[simp ↓] theorem warmPep_kept (s : State) : s.warmPep.kept = s.kept := by simp [State.warmPep]
@[simp ↓] theorem warmDone_kept (s : State) : s.warmDone.kept = s.kept := by simp [State.warmDone]

/-! ### Verdicts, repair and injection -/

@[simp ↓] theorem decayTile_kept (s : State) (t : Nat) : (s.decayTile t).kept = s.kept := by simp [State.decayTile]
@[simp ↓] theorem decayAll_kept (s : State) : s.decayAll.kept = s.kept := by simp [State.decayAll]
@[simp ↓] theorem retireTile_kept (s : State) (t : Nat) : (s.retireTile t).kept = s.kept := by simp [State.retireTile]
@[simp ↓] theorem setRow_kept (s : State) (r : Nat) (x : RepairRow) : (s.setRow r x).kept = s.kept := by simp [State.setRow]
@[simp ↓] theorem blockRow_kept (s : State) (r : Nat) : (s.blockRow r).kept = s.kept := by simp [State.blockRow]
@[simp ↓] theorem spareRuns_kept (s : State) (t : Nat) : (s.spareRuns t).kept = s.kept := by simp [State.spareRuns]

@[simp ↓] theorem repairRow_kept (s : State) (e r : Nat) : (s.repairRow e r).kept = s.kept := by
  unfold State.repairRow
  dsimp only
  split
  · simp
  · split <;> simp

@[simp ↓] theorem repairRows_kept (s : State) : s.repairRows.kept = s.kept := by simp [State.repairRows]
@[simp ↓] theorem writeInj_kept (s : State) (t : Nat) (v : Word) : (s.writeInj t v).kept = s.kept := by simp [State.writeInj]

/-! ### Decode -/

@[simp ↓] theorem setPic_kept (s : State) (w : Nat) (q : PicRun) : (s.setPic w q).kept = s.kept := by simp [State.setPic]

@[simp ↓] theorem noteCharge_kept (s : State) (n charge elapsed : Nat) : (s.noteCharge n charge elapsed).kept = s.kept := by
  simp [State.noteCharge]

/-! ### DRAM ports -/

@[simp ↓] theorem askRead_kept (s : State) (u : Inst) (blk : Nat) : (s.askRead u blk).kept = s.kept := by simp [State.askRead]
@[simp ↓] theorem askReq_kept (s : State) (r : DramReq) : (s.askReq r).kept = s.kept := by simp [State.askReq]

@[simp ↓] theorem bar2Serve_kept (s : State) (off : BitVec 37) (acc : Bar2Acc) : (s.bar2Serve off acc).kept = s.kept := by
  unfold State.bar2Serve
  split <;> simp

@[simp ↓] theorem bar2_kept (s : State) (off : BitVec 37) (acc : Bar2Acc) : (s.bar2 off acc).kept = s.kept := by
  simp [State.bar2]

@[simp ↓] theorem bar2Request_kept (s : State) (off : BitVec 37) (acc : Bar2Acc) : (s.bar2Request off acc).kept = s.kept := by
  simp [State.bar2Request]

@[simp ↓] theorem serveHeld_kept (s : State) : s.serveHeld.kept = s.kept := by
  unfold State.serveHeld
  refine (foldl_kept _ _ _ fun s r => ?_).trans rfl
  split <;> simp

@[simp ↓] theorem returnBeat_kept (s : State) (c : Nat) (m : MemRead) (r : Bytes × Bool) :
    (s.returnBeat c m r).kept = s.kept := by
  simp [State.returnBeat]

@[simp ↓] theorem serveRead_kept (s : State) (c ch errs fails : Nat) : (s.serveRead c ch errs fails).kept = s.kept := by
  unfold State.serveRead
  split <;> simp

/-! ### DRAM controllers -/

@[simp ↓] theorem upsets_kept (s : State) (l : List Upset) : (s.upsets l).kept = s.kept := by simp [State.upsets]

@[simp ↓] theorem copyBlock_kept (s : State) (c f t seg : Nat) (i : Nat) : (s.copyBlock c f t seg i).kept = s.kept := by
  rw [State.copyBlock]
  generalize State.deviceBlock _ c f ((seg * 15 + i / 4) * 4 + i % 4) = o
  cases o <;> simp

@[simp ↓] theorem migCommit_kept (s : State) (c f t : Nat) : (s.migCommit c f t).kept = s.kept := by simp [State.migCommit]
@[simp ↓] theorem balance_kept (s : State) (all c : Nat) : (s.balance all c).kept = s.kept := by simp [State.balance]

/-! ### Windows and the passing of time -/

@[simp ↓] theorem tryClose_kept (s : State) (w : Nat) (e : PlanWindow) : (s.tryClose w e).kept = s.kept := by
  simp [State.tryClose]

@[simp ↓] theorem skipWin_kept (s : State) (w : Nat) (e : PlanWindow) : (s.skipWin w e).kept = s.kept := by
  simp [State.skipWin]

@[simp ↓] theorem skipDeps_kept (s : State) (p : Plan) : (s.skipDeps p).kept = s.kept := by
  unfold State.skipDeps
  refine foldl_kept _ _ _ fun s v => ?_
  split <;> simp

@[simp ↓] theorem openWin_kept (s : State) (p : Plan) (w : Nat) (e : PlanWindow) : (s.openWin p w e).kept = s.kept := by
  simp [State.openWin]

@[simp ↓] theorem takeAu_kept (s : State) (w : Nat) (e : PlanWindow) : (s.takeAu w e).1.kept = s.kept := by
  unfold State.takeAu
  dsimp only
  split <;> simp

@[simp ↓] theorem doneWin_kept (s : State) (w : Nat) (e : PlanWindow) : (s.doneWin w e).kept = s.kept := by
  simp [State.doneWin]

@[simp ↓] theorem fireWin_kept (s : State) (p : Plan) (w : Nat) (e : PlanWindow) : (s.fireWin p w e).kept = s.kept := by
  unfold State.fireWin
  extract_lets x s1
  have h1 : s1.kept = s.kept := by simp [s1]
  split
  · split
    · split <;> rename_i hr <;> simp [kept_of_fst_eq hr (takeAu_kept ..), h1]
    · simp [h1]
  all_goals simp [h1]

@[simp ↓] theorem forceWin_kept (s : State) (p : Plan) (w : Nat) (e : PlanWindow) : (s.forceWin p w e).kept = s.kept := by
  simp [State.forceWin]

@[simp ↓] theorem acceptOne_kept (s : State) (p : Plan) (x : PlanWindow × Nat) : (s.acceptOne p x).kept = s.kept := by
  simp [State.acceptOne]

@[simp ↓] theorem acceptDue_kept (s : State) (p : Plan) : (s.acceptDue p).kept = s.kept := by simp [State.acceptDue]

@[simp ↓] theorem acceptWin_kept (s : State) (p : Plan) (w : Nat) (e : PlanWindow) : (s.acceptWin p w e).kept = s.kept := by
  unfold State.acceptWin
  repeat' split
  all_goals simp

@[simp ↓] theorem winEvent_kept (s : State) (p : Plan) (w : Nat) (e : PlanWindow) (m : Nat) :
    (s.winEvent p w e m).kept = s.kept := by
  unfold State.winEvent
  dsimp only
  split
  all_goals simp

@[simp ↓] theorem runEvents_kept (p : Plan) (n key : Nat) (s : State) : (State.runEvents p n key s).kept = s.kept := by
  induction n generalizing s with
  | zero => rfl
  | succ n ih =>
    unfold State.runEvents
    split
    · rfl
    · split <;> simp [ih]

@[simp ↓] theorem runBefore_kept (s : State) (key : Nat) : (s.runBefore key).kept = s.kept := by
  unfold State.runBefore
  split <;> simp

@[simp ↓] theorem passing_kept (s : State) (f : State → State) (h : ∀ s, (f s).kept = s.kept) :
    (s.passing f).kept = s.kept := by
  simp [State.passing, h]

@[simp ↓] theorem passPhase_kept (s : State) (p : Nat) : (s.passPhase p).kept = s.kept := by simp [State.passPhase]
@[simp ↓] theorem passTime_kept (s : State) (t : Nat) : (s.passTime t).kept = s.kept := by simp [State.passTime]

theorem passPu_kept {s t : State} {e : BitVec 40} {p : BitVec 24} {pu : Nat} (h : s.passPu e p pu = some t) :
    t.kept = s.kept := by
  obtain ⟨_, _, h⟩ := Option.bind_eq_some_iff.1 h
  exact (afterPu_kept h).trans (runBefore_kept _ _)

@[simp ↓] theorem settleWin_kept (s : State) (p : Plan) (w : Nat) (e : PlanWindow) : (s.settleWin p w e).kept = s.kept := by
  unfold State.settleWin
  dsimp only
  split <;> simp

@[simp ↓] theorem settleWindows_kept (s : State) (last : Nat) : (s.settleWindows last).kept = s.kept := by
  unfold State.settleWindows State.when
  dsimp only
  repeat' split
  all_goals simp

@[simp ↓] theorem startWins_kept (s : State) (e : Nat) : (s.startWins e).kept = s.kept := by simp [State.startWins]

@[simp ↓] theorem takePlan_kept (s : State) (p : Plan) : (s.takePlan p).kept = s.kept := by
  unfold State.takePlan
  split <;> simp

@[simp ↓] theorem planChange_kept (s : State) (e : Nat) : (s.planChange e).kept = s.kept := by
  unfold State.planChange
  split <;> simp

/-! ### Mailboxes -/

@[simp ↓] theorem mbxTouch_kept (s : State) (n : Nat) (src : Stamp) : (s.mbxTouch n src).kept = s.kept := by
  simp [State.mbxTouch]

/-! ### The dump -/

@[simp ↓] theorem fallbackWr_kept (s : State) (l : List Nat) (d : Bytes) : (State.fallbackWr s l d).kept = s.kept := by
  induction l generalizing s d with
  | nil => rfl
  | cons t l ih => simp [State.fallbackWr, ih]

@[simp ↓] theorem mediumWr_kept (s : State) (d : DumpRun) (b : Bytes) : (s.mediumWr d b).kept = s.kept := by
  simp [State.mediumWr]

@[simp ↓] theorem mediumBeats_kept (s : State) (u : Inst) (d : DumpRun) (o n : Nat) :
    (s.mediumBeats u d o n).kept = s.kept := by
  simp [State.mediumBeats]

@[simp ↓] theorem dumpRearm_kept (s : State) : s.dumpRearm.kept = s.kept := by simp [State.dumpRearm]

/-! ### Records -/

@[simp ↓] theorem storeTake_kept (s : State) (f : Rec → Bool) (g : Rec → Rec) : (s.storeTake f g).kept = s.kept := by
  unfold State.storeTake
  split <;> simp

@[simp ↓] theorem writeFiller_kept (s : State) (r n : Nat) : (s.writeFiller r n).1.kept = s.kept := by
  unfold State.writeFiller
  dsimp only
  repeat' split
  all_goals simp

@[simp ↓] theorem ringDrop_kept (s : State) (n r : Nat) (hostLoss : Bool) : (s.ringDrop n r hostLoss).kept = s.kept := by
  simp [State.ringDrop]

@[simp ↓] theorem deliver_kept (s : State) (r : Nat) (x : Rec) : (s.deliver r x).kept = s.kept := by
  unfold State.deliver
  dsimp only
  split
  · simp
  · split
    · simp
    · split
      · simp
      · split <;> rename_i hr <;> simp [kept_of_fst_eq hr (writeFiller_kept ..)]

/-! ### Ingress -/

@[simp ↓] theorem loseMissing_kept (n fuel : Nat) (s : State) : (State.loseMissing n fuel s).kept = s.kept := by
  induction fuel generalizing s with
  | zero => rfl
  | succ fuel ih =>
    unfold State.loseMissing
    dsimp only
    split <;> simp [ih]

@[simp ↓] theorem ssrcChange_kept (s : State) (n : Nat) : (s.ssrcChange n).kept = s.kept := by
  unfold State.ssrcChange
  split <;> simp

@[simp ↓] theorem ssrcChanges_kept (s : State) : s.ssrcChanges.kept = s.kept := by simp [State.ssrcChanges]

/-! ### Lens engines -/

@[simp ↓] theorem lensInput_kept (s : State) (n w : Nat) (blocks : List Nat) : (s.lensInput n w blocks).kept = s.kept := by
  simp [State.lensInput]

@[simp ↓] theorem lensOutput_kept (s : State) (n : Nat) (p : Plan) (q : PlanProgram) (d : LnsDesc) (j : LnsJob)
    (src : Option LnsSrc) (k : Nat) (o : LnsOut) : (s.lensOutput n p q d j src k o).2.kept = s.kept := by
  simp [State.lensOutput]

@[simp ↓] theorem sendBridge_kept (s : State) (f : Bytes) : (s.sendBridge f).kept = s.kept := by simp [State.sendBridge]

/-! ### Ports -/

@[simp ↓] theorem setLink_kept (s : State) (n st : Nat) : (s.setLink n st).kept = s.kept := by simp [State.setLink]

@[simp ↓] theorem trainFails_kept (s : State) (n code : Nat) : (s.trainFails n code).kept = s.kept := by
  simp [State.trainFails]

@[simp ↓] theorem portLinkDown_kept (s : State) (n : Nat) : (s.portLinkDown n).kept = s.kept := by simp [State.portLinkDown]

/-! ### The pair -/

@[simp ↓] theorem hbTake_kept (s : State) (b : Bytes) : (s.hbTake b).kept = s.kept := by simp [State.hbTake]
@[simp ↓] theorem peerLost_kept (s : State) : s.peerLost.kept = s.kept := by simp [State.peerLost]
@[simp ↓] theorem takePrimacy_kept (s : State) (d : PairDue) : (s.takePrimacy d).kept = s.kept := by simp [State.takePrimacy]

@[simp ↓] theorem demote_kept (s : State) : s.demote.kept = s.kept := by
  unfold State.demote
  split <;> simp

@[simp ↓] theorem updatePrimacy_kept (s : State) : s.updatePrimacy.kept = s.kept := by
  unfold State.updatePrimacy State.when
  dsimp only
  repeat' split
  all_goals simp

/-! ### The host interface -/

@[simp ↓] theorem warmBegin_kept (s : State) (causeBit : Nat) : (s.warmBegin causeBit).kept = s.kept := by
  simp [State.warmBegin]

@[simp ↓] theorem funcReset_kept (s : State) (cause : Nat) : (s.funcReset cause).kept = s.kept := by simp [State.funcReset]
@[simp ↓] theorem flushMirrors_kept (s : State) : s.flushMirrors.kept = s.kept := by simp [State.flushMirrors]

@[simp ↓] theorem readLost_kept (s : State) (r : HostRead) (st : CplStatus) (data : Bytes) :
    (s.readLost r st data).kept = s.kept := by
  unfold State.readLost
  repeat' split
  all_goals simp

@[simp ↓] theorem endRead_kept (s : State) (tag : Nat) : (s.endRead tag).kept = s.kept := by simp [State.endRead]

@[simp ↓] theorem readDone_kept (s : State) (r : HostRead) (data : Bytes) : (s.readDone r data).kept = s.kept := by
  unfold State.readDone
  repeat' split
  all_goals simp

@[simp ↓] theorem complete_kept (s : State) (tag : Nat) (status : CplStatus) (data : Bytes) :
    (s.complete tag status data).kept = s.kept := by
  unfold State.complete
  repeat' split
  all_goals simp

/-! ### Power and clocks -/

@[simp ↓] theorem repower_kept (s : State) (straps : BitVec 2) : (s.repower straps).kept = s.kept := rfl
@[simp ↓] theorem coreOff_kept (s : State) : s.coreOff.kept = s.kept := by simp [State.coreOff]
@[simp ↓] theorem portsLose_kept (s : State) (lo n : Nat) : (s.portsLose lo n).kept = s.kept := by simp [State.portsLose]
@[simp ↓] theorem clkLost_kept (s : State) (bit : Nat) : (s.clkLost bit).kept = s.kept := by simp [State.clkLost]

/-! ### Rings -/

@[simp ↓] theorem cfgIgnored_kept (s : State) (r : Nat) : (s.cfgIgnored r).kept = s.kept := by simp [State.cfgIgnored]

@[simp ↓] theorem ringCfgWrite_kept (s : State) (r : Nat) (v : Word) : (s.ringCfgWrite r v).kept = s.kept := by
  simp [State.ringCfgWrite]

@[simp ↓] theorem forgetAug_kept (s : State) (r : Nat) : (s.forgetAug r).kept = s.kept := by
  unfold State.forgetAug
  refine foldl_kept _ _ _ fun s n => ?_
  split <;> simp

@[simp ↓] theorem ringSetup_kept (s : State) (r a mask : Nat) (v : Word) (allowed : Bool) :
    (s.ringSetup r a mask v allowed).kept = s.kept := by
  simp [State.ringSetup]

@[simp ↓] theorem setUpload_kept (s : State) (r : Nat) (u : Option Upload) : (s.setUpload r u).kept = s.kept := by
  simp [State.setUpload]

/-! ### The epoch boundary and synchronisation -/

@[simp ↓] theorem pairBoundary_kept (s : State) : s.pairBoundary.kept = s.kept := by simp [State.pairBoundary]
@[simp ↓] theorem rollSeen_kept (s : State) : s.rollSeen.kept = s.kept := by simp [State.rollSeen]
@[simp ↓] theorem raiseStrobe_kept (s : State) : s.raiseStrobe.kept = s.kept := by simp [State.raiseStrobe]
@[simp ↓] theorem boundaryWork_kept (s : State) : s.boundaryWork.kept = s.kept := by simp [State.boundaryWork]

@[simp ↓] theorem boundary_kept (s : State) (start rate count : Nat) : (s.boundary start rate count).kept = s.kept := by
  simp [State.boundary]

@[simp ↓] theorem nextEpoch_kept (s : State) (start rate : Nat) : (s.nextEpoch start rate).kept = s.kept := by
  simp [State.nextEpoch]

@[simp ↓] theorem edgeEpoch_kept (s : State) (rate : Nat) : (s.edgeEpoch rate).kept = s.kept := by simp [State.edgeEpoch]

@[simp ↓] theorem setPtp_kept (s : State) (alt : Bool) (p : PtpPort) : (s.setPtp alt p).kept = s.kept := by
  simp [State.setPtp]

@[simp ↓] theorem steer_kept (s : State) (offset : Int) : (s.steer offset).kept = s.kept := by simp [State.steer]

@[simp ↓] theorem synced_kept (s : State) (alt : Bool) (gmTime : Int) (arrival : Nat) :
    (s.synced alt gmTime arrival).kept = s.kept := by
  simp [State.synced]

@[simp ↓] theorem ptpMessage_kept (s : State) (alt : Bool) (b : Bytes) (arrival : Nat) :
    (s.ptpMessage alt b arrival).kept = s.kept := by
  unfold State.ptpMessage State.when
  dsimp only
  repeat' split
  all_goals simp

@[simp ↓] theorem ptpSend_kept (s : State) (n : Nat) (body : Bytes) : (s.ptpSend n body).kept = s.kept := by
  simp [State.ptpSend]

@[simp ↓] theorem syncLost_kept (s : State) : s.syncLost.kept = s.kept := by simp [State.syncLost]

/-! ### Resets and injected events -/

@[simp ↓] theorem beginReset_kept (s : State) (u : Inst) : (s.beginReset u).kept = s.kept := by simp [State.beginReset]

@[simp ↓] theorem countCorrected_kept (s : State) (u : Inst) : (s.countCorrected u).kept = s.kept := by
  simp [State.countCorrected]

@[simp ↓] theorem inject_kept (s : State) (u : Inst) (bit : Nat) : (s.inject u bit).kept = s.kept := by simp [State.inject]
@[simp ↓] theorem fenceCfg_kept (s : State) (f : Nat) (v : Word) : (s.fenceCfg f v).kept = s.kept := by simp [State.fenceCfg]

/-! ### Vector lanes -/

@[simp ↓] theorem lanewise_kept (s : State) (t : Nat) (x : TileInsn) (f : Word → Word → Word → Word) :
    (s.lanewise t x f).kept = s.kept := setTile_kept ..

@[simp ↓] theorem allLanes_kept (s : State) (t : Nat) (x : TileInsn) (w : Word) : (s.allLanes t x w).kept = s.kept :=
  setTile_kept ..

/-! ## What the commands answer -/

/-- The answer to a command in state `s`: a next state that keeps what `State.kept` names, or, where the command names a
unit that does not exist (`ok` is false), a fault. -/
inductive Keeps (ok : Bool) (s : State) : Res → Prop
  | next {t : State} (h : t.kept = s.kept) : Keeps ok s (.next t)
  | fault {x : Fault} (h : ok = false) : Keeps ok s (.fault x)

/-- A command that names an existing unit answers a next state. -/
theorem Keeps.of_ok {ok b : Bool} {s : State} {r : Res} (hok : ok = true) : Keeps ok s r → Keeps b s r
  | .next h => .next h
  | .fault h => absurd (h.symm.trans hok) (by decide)

theorem Keeps.after {ok : Bool} {s t : State} {r : Res} (ht : t.kept = s.kept) : Keeps ok t r → Keeps ok s r
  | .next h => .next (h.trans ht)
  | .fault h => .fault h

theorem ite_keeps {ok : Bool} {s : State} {c : Prop} [Decidable c] {a b : Res} (ha : Keeps ok s a) (hb : Keeps ok s b) :
    Keeps ok s (if c then a else b) := by
  split <;> assumption

/-! ### The shared wrappers -/

section
variable {ok : Bool} {s t : State} {u : Inst} {a : Nat} {f : State → State}

theorem onCore_keeps (h : (f s).kept = s.kept) : Keeps ok s (onCore s f) := by
  unfold onCore
  split
  · exact .next h
  · exact .next rfl

theorem onUnit_keeps (h : (f s).kept = s.kept) : Keeps u.ok s (onUnit s u f) := by
  unfold onUnit
  split
  · rename_i hu
    exact .fault (by simpa using hu)
  · exact onCore_keeps (by simp [h])

theorem onBus_keeps (h : (f s).kept = s.kept) : Keeps ok s (onBus s f) :=
  onCore_keeps (by simp [h])

theorem onRead_keeps (h : (f s).kept = s.kept) : Keeps ok s (onRead s f) :=
  onCore_keeps (by simp [h])

theorem onReg_keeps (h : (f s).kept = s.kept) : Keeps u.ok s (onReg s u a f) := by
  unfold onReg
  split
  · rename_i hu
    exact .fault (by simpa using hu)
  · exact onBus_keeps (by simp [h])

end

theorem onInsn_keeps {s : State} {x : TileInsn} {cls op : Nat} {check : State → Nat → TileProg → Nat}
    {act : State → Nat → TileProg → State} (h : ∀ s t p, (act s t p).kept = s.kept) :
    Keeps (U.tile x.tile.toNat).ok s (onInsn s x cls op check act) := by
  refine onUnit_keeps ?_
  dsimp only
  split <;> simp [h]

theorem onVec_keeps {s : State} {x : TileInsn} {op size : Nat} {more : State → Nat → TileProg → List (Bool × Nat)}
    {act : State → Nat → TileProg → State} (h : ∀ s t p, (act s t p).kept = s.kept) :
    Keeps (U.tile x.tile.toNat).ok s (onVec s x op size more act) :=
  onInsn_keeps fun s t p => by simp [h]

theorem onFlight_keeps {s : State} {t c : Nat} {f : State → TileProg → Flight → State}
    (h : ∀ s p g, (f s p g).kept = s.kept) : Keeps (U.tile t).ok s (onFlight s t c f) := by
  refine onUnit_keeps ?_
  split <;> simp [h]

theorem onVerdict_keeps {s : State} {t : BitVec 7} {c : CheckAt} {f : State → Nat → TileProg → State}
    (h : ∀ s t p, (f s t p).kept = s.kept) : Keeps (U.tile t.toNat).ok s (onVerdict s t c f) := by
  unfold onVerdict
  exact onFlight_keeps fun s p g => by simp [h]

theorem onWin_keeps {ok : Bool} {s : State} {w : BitVec 12} {f : State → Plan → PlanWindow → State}
    (h : ∀ s p e, (f s p e).kept = s.kept) : Keeps ok s (onWin s w f) := by
  refine onCore_keeps ?_
  split
  · rfl
  · split <;> simp [h]

theorem onEvent_keeps {ok : Bool} {s : State} {w : BitVec 12} {kind : State → Plan → PlanWindow → WinRun → Bool} :
    Keeps ok s (onEvent s w kind) := by
  refine onWin_keeps fun s p e => ?_
  dsimp only
  split <;> simp

/-- A steward command changes what its own action changes, or nothing (Table 14.6). -/
theorem serve_kept_or (s : State) (n c : Nat) (any : Bool) (f : State → Nat × Bytes × State) :
    (s.serve n c any f).kept = s.kept ∨ (s.serve n c any f).kept = (f s).2.2.kept := by
  unfold State.serve State.when
  split
  · dsimp only
    split
    · exact .inl (setMbx_kept ..)
    · split
      · exact .inl (setMbx_kept ..)
      · exact .inr (setMbx_kept ..)
  · exact .inl rfl

theorem serve_kept_of {s : State} {n c : Nat} {any : Bool} {f : State → Nat × Bytes × State}
    (h : ∀ r, f s = r → r.2.2.kept = s.kept) : (s.serve n c any f).kept = s.kept :=
  (serve_kept_or s n c any f).elim id fun hk => hk.trans (h _ rfl)

theorem serve_kept {s : State} {n c : Nat} {any : Bool} {f : State → Nat × Bytes × State} (h : (f s).2.2.kept = s.kept) :
    (s.serve n c any f).kept = s.kept :=
  serve_kept_of fun _ hr => hr ▸ h

/-! ### The cell pool -/

theorem execAllocReq_keeps (value : Word) (s : State) : Keeps true s (execAllocReq value s) := onBus_keeps (by simp)

theorem execAllocDone_keeps (s : State) : Keeps true s (execAllocDone s) := by
  refine onCore_keeps ?_
  dsimp only
  repeat' split
  all_goals simp

theorem execFreeAddrLo_keeps (value : Word) (s : State) : Keeps true s (execFreeAddrLo value s) := by
  refine onBus_keeps ?_
  dsimp only
  repeat' split
  all_goals simp

theorem execChainReturn_keeps (s : State) : Keeps true s (execChainReturn s) := by
  refine onCore_keeps ?_
  split <;> simp

theorem execChainReturnDone_keeps (s : State) : Keeps true s (execChainReturnDone s) := by
  refine onCore_keeps ?_
  split <;> simp

/-! ### Reports -/

theorem execErcReport_keeps (s : State) : Keeps true s (execErcReport s) := by
  refine onCore_keeps ?_
  split <;> simp

theorem execFatalError_keeps (s : State) : Keeps true s (execFatalError s) := by
  refine onCore_keeps ?_
  split <;> simp

theorem execLogHeadWrite_keeps (value : Word) (s : State) : Keeps true s (execLogHeadWrite value s) := onBus_keeps (by simp)

theorem execLogSpill_keeps (s : State) : Keeps true s (execLogSpill s) := by
  refine onCore_keeps ?_
  split <;> simp

theorem execCoalClear_keeps (s : State) : Keeps true s (execCoalClear s) := onBus_keeps (by simp)

/-! ### Tile programs -/

theorem execNop_keeps (x : TileInsn) (s : State) : Keeps (U.tile x.tile.toNat).ok s (execNop x s) :=
  onInsn_keeps fun s t p => by simp

theorem execEndProg_keeps (x : TileInsn) (s : State) : Keeps (U.tile x.tile.toNat).ok s (execEndProg x s) :=
  onInsn_keeps fun s t p => by simp

theorem execStage_keeps (x : TileInsn) (s : State) : Keeps (U.tile x.tile.toNat).ok s (execStage x s) := by
  unfold execStage
  refine onInsn_keeps fun s t p => ?_
  simp

theorem execWaitctr_keeps (x : TileInsn) (s : State) : Keeps (U.tile x.tile.toNat).ok s (execWaitctr x s) := by
  unfold execWaitctr
  refine onInsn_keeps fun s t p => ?_
  simp

theorem execWaitctrRelease_keeps (t : BitVec 7) (s : State) : Keeps (U.tile t.toNat).ok s (execWaitctrRelease t s) := by
  refine onUnit_keeps ?_
  split <;> simp

theorem execEmitobj_keeps (x : TileInsn) (s : State) : Keeps (U.tile x.tile.toNat).ok s (execEmitobj x s) :=
  onInsn_keeps fun s t p => by simp

theorem execLoad_keeps (x : TileInsn) (s : State) : Keeps (U.tile x.tile.toNat).ok s (execLoad x s) :=
  onInsn_keeps fun s t p => by simp

theorem execStore_keeps (x : TileInsn) (s : State) : Keeps (U.tile x.tile.toNat).ok s (execStore x s) :=
  onInsn_keeps fun s t p => by simp

theorem execXferComplete_keeps (t : BitVec 7) (s : State) : Keeps (U.tile t.toNat).ok s (execXferComplete t s) := by
  refine onFlight_keeps fun s p g => ?_
  split <;> simp

theorem execSend_keeps (x : TileInsn) (s : State) : Keeps (U.tile x.tile.toNat).ok s (execSend x s) :=
  onInsn_keeps fun s t p => by simp

theorem execBeatLand_keeps (src : BeatSrc) (s : State) : Keeps (Instr.beatLand src).wf s (execBeatLand src s) := by
  unfold execBeatLand
  cases src with
  | load t =>
    show Keeps (U.tile t.toNat).ok s _
    dsimp only
    refine onFlight_keeps fun s p g => ?_
    split <;> simp
  | fabric t =>
    show Keeps (U.tile t.toNat).ok s _
    dsimp only
    refine onFlight_keeps fun s p g => ?_
    split <;> simp

theorem execSendComplete_keeps (t : BitVec 7) (s : State) : Keeps (U.tile t.toNat).ok s (execSendComplete t s) := by
  refine onFlight_keeps fun s p g => ?_
  split <;> simp

theorem execSwapInDone_keeps (t : BitVec 7) (s : State) : Keeps (U.tile t.toNat).ok s (execSwapInDone t s) := by
  refine onUnit_keeps ?_
  split <;> simp

theorem execSwapOutDone_keeps (t : BitVec 7) (s : State) : Keeps (U.tile t.toNat).ok s (execSwapOutDone t s) := by
  refine onUnit_keeps ?_
  split <;> simp

/-! ### The matrix array -/

theorem execMop_keeps (x : TileInsn) (s : State) : Keeps (U.tile x.tile.toNat).ok s (execMop x s) :=
  onInsn_keeps fun s t p => by simp

theorem execMopComplete_keeps (t : BitVec 7) (s : State) : Keeps (U.tile t.toNat).ok s (execMopComplete t s) := by
  unfold execMopComplete
  refine onFlight_keeps fun s p g => ?_
  split <;> simp

theorem execFusedVectorEntry_keeps (t : BitVec 7) (s : State) : Keeps (U.tile t.toNat).ok s (execFusedVectorEntry t s) := by
  unfold execFusedVectorEntry
  refine onFlight_keeps fun s p g => ?_
  split <;> simp

/-! ### Verdicts, repair and injection -/

theorem execSumCheckVerdict_keeps (t : BitVec 7) (pass vec : BitVec 32) (u : ColUpset) (s : State) :
    Keeps (U.tile t.toNat).ok s (execSumCheckVerdict t pass vec u s) := onVerdict_keeps fun s t p => by simp

theorem execDupCheckVerdict_keeps (t : BitVec 7) (pass vec : BitVec 32) (u : ColUpset) (s : State) :
    Keeps (U.tile t.toNat).ok s (execDupCheckVerdict t pass vec u s) := onVerdict_keeps fun s t p => by simp

theorem execLoadCheckVerdict_keeps (t : BitVec 7) (pass : BitVec 32) (u : LoadUpset) (s : State) :
    Keeps (U.tile t.toNat).ok s (execLoadCheckVerdict t pass u s) := onVerdict_keeps fun s t p => by simp

theorem execTransDecay_keeps (t : BitVec 7) (s : State) : Keeps (U.tile t.toNat).ok s (execTransDecay t s) :=
  onUnit_keeps (by simp)

theorem execRepair_keeps (s : State) : Keeps true s (execRepair s) := onCore_keeps (by simp)

theorem execMirrorInj_keeps (t : BitVec 7) (value : Word) (s : State) :
    Keeps (U.tile t.toNat).ok s (execMirrorInj t value s) := onReg_keeps (by simp)

theorem execRepairReq_keeps (value : Word) (s : State) : Keeps true s (execRepairReq value s) := onBus_keeps (by simp)

/-! ### Decode -/

theorem execDecodeChargeStop_keeps (core : BitVec 5) (s : State) :
    Keeps (U.dec core.toNat).ok s (execDecodeChargeStop core s) := by
  refine onUnit_keeps ?_
  dsimp only
  split <;> simp

theorem execDecodeElapsedAbandon_keeps (core : BitVec 5) (s : State) :
    Keeps (U.dec core.toNat).ok s (execDecodeElapsedAbandon core s) := by
  refine onUnit_keeps ?_
  split
  · rfl
  · split <;> simp

theorem execDecodeCoreComplete_keeps (core : BitVec 5) (elapsed : Word) (s : State) :
    Keeps (U.dec core.toNat).ok s (execDecodeCoreComplete core elapsed s) := by
  refine onUnit_keeps ?_
  dsimp only
  split <;> simp

/-! ### DRAM controllers -/

theorem execDramRead_keeps (reqs : List DramReq) (c : BitVec 4) (ch : BitVec 3) (errs linkFails : Nat) (s : State) :
    Keeps true s (execDramRead reqs c ch errs linkFails s) := onCore_keeps (by simp)

theorem execDramWrite_keeps (unit : Inst) (addr : BitVec 37) (beats : List (Bytes × BitVec 64)) (s : State) :
    Keeps true s (execDramWrite unit addr beats s) := onCore_keeps (by simp)

theorem execWriteDrain_keeps (c : BitVec 4) (ch : BitVec 3) (upsets : List Upset) (s : State) :
    Keeps true s (execWriteDrain c ch upsets s) := onCore_keeps (by simp)

theorem execRefresh_keeps (c rank : BitVec 4) (pair : BitVec 3) (upsets : List Upset) (s : State) :
    Keeps true s (execRefresh c rank pair upsets s) := onCore_keeps (by simp)

theorem execRefreshRatePoll_keeps (c : BitVec 4) (rate : BitVec 2) (s : State) :
    Keeps true s (execRefreshRatePoll c rate s) := onCore_keeps (by simp)

theorem execHammerWindowReset_keeps (c : BitVec 4) (s : State) : Keeps true s (execHammerWindowReset c s) :=
  onCore_keeps (by simp)

theorem execScrubRead_keeps (c rank : BitVec 4) (block : BitVec 23) (errs : Nat) (s : State) :
    Keeps true s (execScrubRead c rank block errs s) := by
  refine onCore_keeps (when_kept_of ?_)
  dsimp only
  repeat' split
  all_goals simp

theorem execMigrationSegmentCopy_keeps (c : BitVec 4) (upsets : List Upset) (dstFail : Bool) (s : State) :
    Keeps true s (execMigrationSegmentCopy c upsets dstFail s) := onCore_keeps (by simp)

theorem execBalInterval_keeps (s : State) : Keeps true s (execBalInterval s) := onCore_keeps (by simp)

theorem execDramInitDone_keeps (c : BitVec 4) (failed : BitVec 16) (s : State) : Keeps true s (execDramInitDone c failed s) :=
  onCore_keeps (by simp)

/-! ### The steward domain and SEAL -/

theorem execBootImageCheckDone_keeps (readOk : Bool) (s : State) : Keeps true s (execBootImageCheckDone readOk s) := by
  refine onCore_keeps ?_
  repeat' split
  all_goals simp

theorem execHostBoot_keeps (value : Word) (s : State) : Keeps true s (execHostBoot value s) := onBus_keeps (by simp)
theorem execSeal_keeps (value : Word) (s : State) : Keeps true s (execSeal value s) := onBus_keeps (by simp)
theorem execSealComplete_keeps (s : State) : Keeps true s (execSealComplete s) := onCore_keeps (by simp)
theorem execStewardSleep_keeps (s : State) : Keeps true s (execStewardSleep s) := onCore_keeps (by simp)
theorem execStewardWake_keeps (s : State) : Keeps true s (execStewardWake s) := onCore_keeps (by simp)
theorem execWakeTimer_keeps (s : State) : Keeps true s (execWakeTimer s) := onCore_keeps (by simp)
theorem execWatchdogExpiry_keeps (s : State) : Keeps true s (execWatchdogExpiry s) := onCore_keeps (by simp)
theorem execStewardLockstep_keeps (s : State) : Keeps true s (execStewardLockstep s) := onCore_keeps (by simp)
theorem execStewardReset_keeps (s : State) : Keeps true s (execStewardReset s) := onBus_keeps (by simp)
theorem execBootFollowOn_keeps (s : State) : Keeps true s (execBootFollowOn s) := onCore_keeps (by simp)

/-! ### Mailboxes -/

theorem execMbxLockRead_keeps (src : Stamp) (n : BitVec 5) (s : State) : Keeps true s (execMbxLockRead src n s) :=
  onCore_keeps (by simp)

theorem execMbxUnlock_keeps (src : Stamp) (n : BitVec 5) (value : Word) (s : State) :
    Keeps true s (execMbxUnlock src n value s) := onBus_keeps (by simp)

theorem execMbxLockLapse_keeps (n : BitVec 5) (s : State) : Keeps true s (execMbxLockLapse n s) := onCore_keeps (by simp)

theorem execMbxSend_keeps (src : Stamp) (n : BitVec 5) (s : State) : Keeps true s (execMbxSend src n s) :=
  onBus_keeps (by simp)

theorem execMbxTake_keeps (n : BitVec 5) (s : State) : Keeps true s (execMbxTake n s) := onCore_keeps (by simp)

theorem execMbxReply_keeps (n : BitVec 5) (s : State) : Keeps true s (execMbxReply n s) := by
  refine onCore_keeps ?_
  dsimp only
  split <;> simp

theorem execMbxAck_keeps (src : Stamp) (n : BitVec 5) (s : State) : Keeps true s (execMbxAck src n s) := onBus_keeps (by simp)
theorem execPing_keeps (n : BitVec 5) (s : State) : Keeps true s (execPing n s) := onCore_keeps (serve_kept rfl)
theorem execStatus_keeps (n : BitVec 5) (s : State) : Keeps true s (execStatus n s) := onCore_keeps (serve_kept rfl)

theorem execRepairSave_keeps (n : BitVec 5) (s : State) : Keeps true s (execRepairSave n s) :=
  onCore_keeps (serve_kept (by simp))

theorem execRepairClear_keeps (n : BitVec 5) (s : State) : Keeps true s (execRepairClear n s) :=
  onCore_keeps (serve_kept (flashStore_kept ..))

theorem execFlashWrite_keeps (n : BitVec 5) (s : State) : Keeps true s (execFlashWrite n s) := by
  refine onCore_keeps (serve_kept_of fun r hr => ?_)
  dsimp only at hr
  split at hr <;> subst hr <;> simp

/-! ### The dump -/

theorem execDumpWrite_keeps (s : State) : Keeps true s (execDumpWrite s) := by
  refine onCore_keeps ?_
  repeat' split
  all_goals simp

theorem execDumpComplete_keeps (s : State) : Keeps true s (execDumpComplete s) := by
  refine onCore_keeps ?_
  dsimp only
  repeat' split
  all_goals simp

theorem execDumpTimeout_keeps (s : State) : Keeps true s (execDumpTimeout s) := by
  refine onCore_keeps ?_
  split <;> simp

theorem execDumpCtrlRearm_keeps (s : State) : Keeps true s (execDumpCtrlRearm s) := onBus_keeps (by simp)

theorem execDumpWindowRead_keeps (off : BitVec 26) (s : State) : Keeps true s (execDumpWindowRead off s) := by
  refine onCore_keeps ?_
  repeat' split
  all_goals simp

theorem execDumpInfo_keeps (n : BitVec 5) (s : State) : Keeps true s (execDumpInfo n s) := onCore_keeps (serve_kept (by
    dsimp only
    split <;> simp))

theorem execDumpRearm_keeps (n : BitVec 5) (s : State) : Keeps true s (execDumpRearm n s) :=
  onCore_keeps (serve_kept (by simp))

theorem execDumpNow_keeps (n : BitVec 5) (s : State) : Keeps true s (execDumpNow n s) := onCore_keeps (serve_kept (by simp))

/-! ### Records -/

theorem execRingDelivery_keeps (r : BitVec 13) (s : State) : Keeps true s (execRingDelivery r s) := by
  refine onCore_keeps ?_
  split <;> simp

theorem execSinkSend_keeps (k : BitVec 6) (s : State) : Keeps true s (execSinkSend k s) := by
  refine onCore_keeps ?_
  dsimp only
  split <;> simp

theorem execSinkCfgWrite_keeps (k : BitVec 6) (value : Word) (s : State) : Keeps true s (execSinkCfgWrite k value s) :=
  onReg_keeps (u := U.egr) (by simp)

/-! ### Ingress -/

theorem execFrameRx_keeps (port : BitVec 4) (frame : Bytes) (s : State) :
    Keeps (U.nix port.toNat).ok s (execFrameRx port frame s) := onUnit_keeps (by simp)

theorem execPoliceRefill_keeps (j : BitVec 8) (s : State) : Keeps true s (execPoliceRefill j s) := onCore_keeps (by simp)

theorem execReorderTimeout_keeps (n : BitVec 8) (s : State) : Keeps true s (execReorderTimeout n s) := by
  refine onCore_keeps ?_
  dsimp only
  split
  · rfl
  · split
    · rename_i ht
      simpa using passPu_kept ht
    · rfl

theorem execAuTimeout_keeps (n : BitVec 8) (s : State) : Keeps true s (execAuTimeout n s) := by
  refine onCore_keeps ?_
  dsimp only
  split
  · rfl
  · split
    · rfl
    · split
      · rename_i ht
        simpa using passPu_kept ht
      · rfl

theorem execNackSend_keeps (n : BitVec 8) (s : State) : Keeps true s (execNackSend n s) := by
  refine onCore_keeps (when_kept_of ?_)
  dsimp only
  split <;> simp

theorem execRrSend_keeps (n : BitVec 8) (s : State) : Keeps true s (execRrSend n s) := by
  refine onCore_keeps (when_kept_of ?_)
  dsimp only
  split <;> simp

theorem execSsrcChange_keeps (n : BitVec 8) (s : State) : Keeps true s (execSsrcChange n s) := onCore_keeps (by simp)

theorem execAdmitStream_keeps (n : BitVec 8) (s : State) : Keeps (U.scx n.toNat).ok s (execAdmitStream n s) :=
  onReg_keeps (by simp)

theorem execRelease_keeps (n : BitVec 8) (s : State) : Keeps (U.scx n.toNat).ok s (execRelease n s) := onReg_keeps (by simp)
theorem execCancel_keeps (n : BitVec 8) (s : State) : Keeps (U.scx n.toNat).ok s (execCancel n s) := onReg_keeps (by simp)

/-! ### Lens engines -/

theorem execAugReadDone_keeps (e : BitVec 3) (s : State) : Keeps (U.lns e.toNat).ok s (execAugReadDone e s) := by
  refine onUnit_keeps ?_
  split <;> simp

theorem execAugReadTimeout_keeps (e : BitVec 3) (s : State) : Keeps (U.lns e.toNat).ok s (execAugReadTimeout e s) := by
  refine onUnit_keeps ?_
  split <;> simp

theorem execLensProgramComplete_keeps (e : BitVec 3) (elapsed : Word) (s : State) :
    Keeps (U.lns e.toNat).ok s (execLensProgramComplete e elapsed s) := by
  refine onUnit_keeps ?_
  dsimp only
  split
  · rfl
  · split <;> simp

theorem execBridgeFrameRx_keeps (noise : Bytes) (s : State) : Keeps true s (execBridgeFrameRx noise s) := by
  refine onCore_keeps ?_
  split <;> simp

theorem execStrobeMiss_keeps (s : State) : Keeps true s (execStrobeMiss s) := by
  refine onCore_keeps ?_
  split <;> simp

theorem execMeterAbsent_keeps (s : State) : Keeps true s (execMeterAbsent s) := onCore_keeps (by simp)

theorem execMeterTimeCompare_keeps (s : State) : Keeps true s (execMeterTimeCompare s) := by
  refine onCore_keeps ?_
  split <;> simp

theorem execMetStatusRead_keeps (s : State) : Keeps true s (execMetStatusRead s) := by
  refine onCore_keeps ?_
  repeat' split
  all_goals simp

theorem execSnapshotWord0Read_keeps (i : Fin 5) (s : State) : Keeps true s (execSnapshotWord0Read i s) :=
  onCore_keeps (by simp)

/-! ### Ports -/

theorem execTrainingAttempt_keeps (port : BitVec 4) (s : State) :
    Keeps (U.nix port.toNat).ok s (execTrainingAttempt port s) := onUnit_keeps (by simp)

theorem execTrainingFail_keeps (port : BitVec 4) (cause : TrainCause) (s : State) :
    Keeps (U.nix port.toNat).ok s (execTrainingFail port cause s) := onUnit_keeps (by simp)

theorem execAnComplete_keeps (port : BitVec 4) (resolved : Bool) (s : State) :
    Keeps (U.nix port.toNat).ok s (execAnComplete port resolved s) := onUnit_keeps (by simp)

theorem execLinkUp_keeps (port : BitVec 4) (s : State) : Keeps (U.nix port.toNat).ok s (execLinkUp port s) :=
  onUnit_keeps (by simp)

theorem execLinkDown_keeps (port : BitVec 4) (s : State) : Keeps (U.nix port.toNat).ok s (execLinkDown port s) :=
  onUnit_keeps (by simp)

/-! ### The pair -/

theorem execHeartbeatSend_keeps (s : State) : Keeps true s (execHeartbeatSend s) := onCore_keeps (by simp)

theorem execHeartbeatRx_keeps (s : State) : Keeps true s (execHeartbeatRx s) := by
  refine onCore_keeps ?_
  split <;> simp

theorem execPeerLost_keeps (s : State) : Keeps true s (execPeerLost s) := onCore_keeps (by simp)

theorem execPrimacyReq_keeps (value : Word) (s : State) : Keeps true s (execPrimacyReq value s) :=
  onReg_keeps (u := U.devctl) (by simp)

theorem execPrimacyUpdate_keeps (s : State) : Keeps true s (execPrimacyUpdate s) := onCore_keeps (by simp)

/-! ### The host interface -/

theorem execPcieTrainingAttempt_keeps (s : State) : Keeps true s (execPcieTrainingAttempt s) := onCore_keeps (by simp)

theorem execPcieTrainingFail_keeps (cause last : BitVec 4) (s : State) : Keeps true s (execPcieTrainingFail cause last s) :=
  onCore_keeps (by simp)

theorem execPcieLinkUp_keeps (rate width : BitVec 4) (flit : Bool) (s : State) :
    Keeps true s (execPcieLinkUp rate width flit s) := onCore_keeps (by simp)

theorem execPcieLinkDown_keeps (s : State) : Keeps true s (execPcieLinkDown s) := onCore_keeps (by simp)
theorem execHotReset_keeps (s : State) : Keeps true s (execHotReset s) := onCore_keeps (by simp)
theorem execLinkDisable_keeps (s : State) : Keeps true s (execLinkDisable s) := onCore_keeps (by simp)
theorem execPerst_keeps (s : State) : Keeps true s (execPerst s) := onCore_keeps (by simp)
theorem execFlr_keeps (s : State) : Keeps true s (execFlr s) := onCore_keeps (by simp)
theorem execD3hotEntry_keeps (s : State) : Keeps true s (execD3hotEntry s) := onCore_keeps (by simp)
theorem execD3hotExit_keeps (s : State) : Keeps true s (execD3hotExit s) := onCore_keeps (by simp)
theorem execBusMasterEnable_keeps (c : HostCfg) (s : State) : Keeps true s (execBusMasterEnable c s) := onCore_keeps (by simp)

theorem execHostlossRelease_keeps (value : Word) (s : State) : Keeps true s (execHostlossRelease value s) :=
  onBus_keeps (by simp)

theorem execInterruptDisableWrite_keeps (on : Bool) (s : State) : Keeps true s (execInterruptDisableWrite on s) :=
  onCore_keeps (by simp)

theorem execL1Entry_keeps (sub : L1Sub) (s : State) : Keeps true s (execL1Entry sub s) := by
  refine onCore_keeps ?_
  split <;> simp

theorem execL1Exit_keeps (s : State) : Keeps true s (execL1Exit s) := onCore_keeps (by simp)
theorem execL0pEntry_keeps (s : State) : Keeps true s (execL0pEntry s) := onCore_keeps (by simp)
theorem execL0pExit_keeps (s : State) : Keeps true s (execL0pExit s) := onCore_keeps (by simp)

theorem execBar2Access_keeps (off : BitVec 37) (acc : Bar2Acc) (s : State) : Keeps true s (execBar2Access off acc s) :=
  onCore_keeps (by simp)

theorem execHostCompletion_keeps (tag : Nat) (status : CplStatus) (data : Bytes) (s : State) :
    Keeps true s (execHostCompletion tag status data s) := onCore_keeps (by simp)

theorem execCplTimeout_keeps (tag : Nat) (s : State) : Keeps true s (execCplTimeout tag s) := by
  refine onCore_keeps ?_
  split <;> simp

theorem execTlpError_keeps (e : AerError) (s : State) : Keeps true s (execTlpError e s) := by
  refine onCore_keeps ?_
  split <;> simp

/-! ### Plans and windows -/

theorem execPlanLoad_keeps (value : Word) (s : State) : Keeps true s (execPlanLoad value s) := onBus_keeps (by simp)

theorem execPlanLoadDone_keeps (s : State) : Keeps true s (execPlanLoadDone s) := by
  refine onCore_keeps ?_
  split <;> simp

theorem execCommit_keeps (value : Word) (s : State) : Keeps true s (execCommit value s) := onBus_keeps (by simp)
theorem execCommitCancel_keeps (value : Word) (s : State) : Keeps true s (execCommitCancel value s) := onBus_keeps (by simp)

theorem execPlanCheckDone_keeps (s : State) : Keeps true s (execPlanCheckDone s) := by
  refine onCore_keeps ?_
  dsimp only
  repeat' split
  all_goals simp

theorem execSlotConfigWrite_keeps (slot : BitVec 4) (reg : SlotReg) (value : Word) (s : State) :
    Keeps true s (execSlotConfigWrite slot reg value s) := onBus_keeps (by simp)

theorem execStreamDlWrite_keeps (n : BitVec 8) (value : Word) (s : State) : Keeps true s (execStreamDlWrite n value s) :=
  onBus_keeps (by simp)

theorem execWindowOpen_keeps (w : BitVec 12) (s : State) : Keeps true s (execWindowOpen w s) := onEvent_keeps
theorem execWindowFire_keeps (w : BitVec 12) (s : State) : Keeps true s (execWindowFire w s) := onEvent_keeps
theorem execWindowSkipLatest_keeps (w : BitVec 12) (s : State) : Keeps true s (execWindowSkipLatest w s) := onEvent_keeps
theorem execWindowDone_keeps (w : BitVec 12) (s : State) : Keeps true s (execWindowDone w s) := onEvent_keeps
theorem execDeadlineForce_keeps (w : BitVec 12) (s : State) : Keeps true s (execDeadlineForce w s) := onEvent_keeps

theorem execUnitAbortComplete_keeps (w : BitVec 12) (s : State) : Keeps true s (execUnitAbortComplete w s) :=
  onWin_keeps fun s p e => by simp

theorem execPleLockstepMismatch_keeps (s : State) : Keeps true s (execPleLockstepMismatch s) := onCore_keeps (by simp)

theorem execRecordAccept_keeps (w : BitVec 12) (s : State) : Keeps true s (execRecordAccept w s) :=
  onWin_keeps fun s p e => by simp

/-! ### Power and clocks -/

theorem execColdReset_keeps (straps : BitVec 2) (s : State) : Keeps true s (execColdReset straps s) :=
  .next (by simp)

theorem execPowerDown_keeps (s : State) : Keeps true s (execPowerDown s) :=
  .next (by simp)

theorem execRailFault_keeps (_rail : Rail) (s : State) : Keeps true s (execRailFault _rail s) := onCore_keeps (by simp)
theorem execThermalTrip_keeps (s : State) : Keeps true s (execThermalTrip s) := onCore_keeps (by simp)
theorem execTjHigh_keeps (tj : BitVec 12) (s : State) : Keeps true s (execTjHigh tj s) := onCore_keeps (by simp)

theorem execClockLoss_keeps (clk : RefClk) (s : State) : Keeps true s (execClockLoss clk s) := by
  refine onCore_keeps ?_
  split <;> simp

theorem execClockReturn_keeps (clk : RefClk) (s : State) : Keeps true s (execClockReturn clk s) := by
  refine onCore_keeps ?_
  split <;> simp

theorem execAvsTargetWrite_keeps (ack regFault : Bool) (sense : BitVec 10) (s : State) :
    Keeps true s (execAvsTargetWrite ack regFault sense s) := onCore_keeps (by simp)

/-! ### Rings -/

theorem execRingEnable_keeps (r : BitVec 13) (value : Word) (s : State) : Keeps true s (execRingEnable r value s) :=
  onBus_keeps (by simp)

theorem execRingDisable_keeps (r : BitVec 13) (value : Word) (s : State) : Keeps true s (execRingDisable r value s) :=
  onBus_keeps (by simp)

theorem execRingStopped_keeps (r : BitVec 13) (s : State) : Keeps true s (execRingStopped r s) := onCore_keeps (by simp)

theorem execRingConfigWrite_keeps (r : BitVec 13) (reg : RingReg) (value : Word) (s : State) :
    Keeps true s (execRingConfigWrite r reg value s) := by
  refine onBus_keeps ?_
  split <;> simp

theorem execHostIdxWrite_keeps (r : BitVec 13) (value : Word) (s : State) : Keeps true s (execHostIdxWrite r value s) :=
  onBus_keeps (by simp)

theorem execIndexMirrorWrite_keeps (r : BitVec 13) (s : State) : Keeps true s (execIndexMirrorWrite r s) :=
  onCore_keeps (by simp)

theorem execUploadDescriptorFetch_keeps (r : BitVec 13) (s : State) : Keeps true s (execUploadDescriptorFetch r s) := by
  refine onCore_keeps (when_kept_of ?_)
  split
  · simp
  · split <;> simp

theorem execCopyIn_keeps (r : BitVec 13) (s : State) : Keeps true s (execCopyIn r s) := by
  refine onCore_keeps (when_kept_of ?_)
  split <;> simp

theorem execCopyOut_keeps (r : BitVec 13) (s : State) : Keeps true s (execCopyOut r s) := by
  refine onCore_keeps (when_kept_of ?_)
  split <;> simp

theorem execFenceOnly_keeps (r : BitVec 13) (s : State) : Keeps true s (execFenceOnly r s) := by
  refine onCore_keeps ?_
  dsimp only
  split <;> simp

theorem execUploadComplete_keeps (r : BitVec 13) (s : State) : Keeps true s (execUploadComplete r s) := by
  refine onCore_keeps ?_
  dsimp only
  repeat' split
  all_goals simp

theorem execFenceInc_keeps (f : BitVec 13) (value : Word) (s : State) : Keeps true s (execFenceInc f value s) :=
  onBus_keeps (by simp)

theorem execFenceSet_keeps (f : BitVec 13) (value : Word) (s : State) : Keeps true s (execFenceSet f value s) :=
  onBus_keeps (by simp)

theorem execFenceMirrorWrite_keeps (f : BitVec 13) (s : State) : Keeps true s (execFenceMirrorWrite f s) :=
  onCore_keeps (by simp)

theorem execValueLoRead_keeps (f : BitVec 13) (s : State) : Keeps true s (execValueLoRead f s) := onCore_keeps (by simp)

/-! ### The epoch boundary and synchronisation -/

theorem execEpochBoundary_keeps (s : State) : Keeps true s (execEpochBoundary s) := onCore_keeps (by simp)
theorem execTrigInEdge_keeps (falling : Bool) (s : State) : Keeps true s (execTrigInEdge falling s) := onCore_keeps (by simp)
theorem execTrigMiss_keeps (s : State) : Keeps true s (execTrigMiss s) := onCore_keeps (by simp)

theorem execReplayTargetLo_keeps (value : Word) (s : State) : Keeps true s (execReplayTargetLo value s) :=
  onReg_keeps (u := U.tmu) (by simp)

theorem execSyncMessage_keeps (s : State) : Keeps true s (execSyncMessage s) := by
  refine onCore_keeps ?_
  split <;> simp

theorem execPdelayReqRx_keeps (s : State) : Keeps true s (execPdelayReqRx s) := by
  refine onCore_keeps ?_
  split <;> simp

theorem execPdelayReqTx_keeps (port : BitVec 4) (s : State) : Keeps (U.nix port.toNat).ok s (execPdelayReqTx port s) :=
  onUnit_keeps (by simp)

theorem execSyncTimeout_keeps (s : State) : Keeps true s (execSyncTimeout s) := onCore_keeps (by simp)
theorem execPpsInEdge_keeps (s : State) : Keeps true s (execPpsInEdge s) := onCore_keeps (by simp)
theorem execPpsOutPulse_keeps (s : State) : Keeps true s (execPpsOutPulse s) := onCore_keeps (by simp)

theorem execPpsOutEnd_keeps (s : State) : Keeps true s (execPpsOutEnd s) := by
  refine onCore_keeps ?_
  split <;> simp

theorem execTrigOutStart_keeps (n : BitVec 2) (s : State) : Keeps true s (execTrigOutStart n s) := onCore_keeps (by simp)

theorem execTrigOutEnd_keeps (n : BitVec 2) (s : State) : Keeps true s (execTrigOutEnd n s) := by
  refine onCore_keeps ?_
  dsimp only
  split <;> simp

theorem execEpochLoRead_keeps (s : State) : Keeps true s (execEpochLoRead s) := onRead_keeps (by simp)
theorem execTimeLoRead_keeps (s : State) : Keeps true s (execTimeLoRead s) := onRead_keeps (by simp)

/-! ### Resets and injected events -/

theorem execRunWrite_keeps (u : Inst) (run : Bool) (s : State) : Keeps u.ok s (execRunWrite u run s) := onReg_keeps (by simp)

theorem execInstanceReset_keeps (u : Inst) (_run : Bool) (s : State) : Keeps u.ok s (execInstanceReset u _run s) :=
  onReg_keeps (by simp)

theorem execResetComplete_keeps (u : Inst) (s : State) : Keeps u.ok s (execResetComplete u s) := onUnit_keeps (by simp)

theorem execPgErrClear_keeps (u : Inst) (value : Word) (s : State) : Keeps u.ok s (execPgErrClear u value s) :=
  onReg_keeps (by simp)

theorem execPgErrInj_keeps (u : Inst) (value : Word) (s : State) : Keeps u.ok s (execPgErrInj u value s) :=
  onReg_keeps (by simp)

theorem execSramEccError_keeps (u : Inst) (s : State) : Keeps u.ok s (execSramEccError u s) := onUnit_keeps (by simp)
theorem execSramEccCorrected_keeps (u : Inst) (s : State) : Keeps u.ok s (execSramEccCorrected u s) := onUnit_keeps (by simp)

theorem execSoftReset_keeps (value : Word) (s : State) : Keeps true s (execSoftReset value s) :=
  onReg_keeps (u := U.devctl) (by simp)

theorem execWarmResetComplete_keeps (s : State) : Keeps true s (execWarmResetComplete s) := onCore_keeps (by simp)

theorem execLiveWriteApply_keeps (u : Inst) (s : State) : Keeps u.ok s (execLiveWriteApply u s) := by
  refine onUnit_keeps ?_
  repeat' split
  all_goals simp

theorem execUnmappedAccess_keeps (write : Bool) (addr : BitVec 28) (s : State) :
    Keeps true s (execUnmappedAccess write addr s) := by
  refine onCore_keeps ?_
  dsimp only
  repeat' split
  all_goals simp

theorem execPartialAccess_keeps (write : Bool) (addr : BitVec 28) (enables : BitVec 4) (s : State) :
    Keeps true s (execPartialAccess write addr enables s) := by
  refine onCore_keeps ?_
  dsimp only
  repeat' split
  all_goals simp

/-! ### Vector instructions -/

theorem execLd_keeps (x : TileInsn) (s : State) : Keeps (U.tile x.tile.toNat).ok s (execLd x s) :=
  onVec_keeps fun s t p => by simp

theorem execSt_keeps (x : TileInsn) (s : State) : Keeps (U.tile x.tile.toNat).ok s (execSt x s) :=
  onVec_keeps fun s t p => by simp

theorem execLdx_keeps (x : TileInsn) (s : State) : Keeps (U.tile x.tile.toNat).ok s (execLdx x s) :=
  onVec_keeps fun s t p => by simp

theorem execStx_keeps (x : TileInsn) (s : State) : Keeps (U.tile x.tile.toNat).ok s (execStx x s) :=
  onVec_keeps fun s t p => by simp

theorem execAdd_keeps (x : TileInsn) (s : State) : Keeps (U.tile x.tile.toNat).ok s (execAdd x s) :=
  onVec_keeps fun s t p => by simp

theorem execSub_keeps (x : TileInsn) (s : State) : Keeps (U.tile x.tile.toNat).ok s (execSub x s) :=
  onVec_keeps fun s t p => by simp

theorem execMul_keeps (x : TileInsn) (s : State) : Keeps (U.tile x.tile.toNat).ok s (execMul x s) :=
  onVec_keeps fun s t p => by simp

theorem execFma_keeps (x : TileInsn) (s : State) : Keeps (U.tile x.tile.toNat).ok s (execFma x s) :=
  onVec_keeps fun s t p => by simp

theorem execMax_keeps (x : TileInsn) (s : State) : Keeps (U.tile x.tile.toNat).ok s (execMax x s) :=
  onVec_keeps fun s t p => by simp

theorem execMin_keeps (x : TileInsn) (s : State) : Keeps (U.tile x.tile.toNat).ok s (execMin x s) :=
  onVec_keeps fun s t p => by simp

theorem execCmplt_keeps (x : TileInsn) (s : State) : Keeps (U.tile x.tile.toNat).ok s (execCmplt x s) :=
  onVec_keeps fun s t p => by simp

theorem execSel_keeps (x : TileInsn) (s : State) : Keeps (U.tile x.tile.toNat).ok s (execSel x s) :=
  onVec_keeps fun s t p => by simp

theorem execExp_keeps (x : TileInsn) (s : State) : Keeps (U.tile x.tile.toNat).ok s (execExp x s) :=
  onVec_keeps fun s t p => by simp

theorem execRcp_keeps (x : TileInsn) (s : State) : Keeps (U.tile x.tile.toNat).ok s (execRcp x s) :=
  onVec_keeps fun s t p => by simp

theorem execRsqrt_keeps (x : TileInsn) (s : State) : Keeps (U.tile x.tile.toNat).ok s (execRsqrt x s) :=
  onVec_keeps fun s t p => by simp

theorem execCvt_keeps (x : TileInsn) (s : State) : Keeps (U.tile x.tile.toNat).ok s (execCvt x s) :=
  onVec_keeps fun s t p => by simp

theorem execImm_keeps (x : TileInsn) (s : State) : Keeps (U.tile x.tile.toNat).ok s (execImm x s) :=
  onVec_keeps fun s t p => by simp

theorem execLane_keeps (x : TileInsn) (s : State) : Keeps (U.tile x.tile.toNat).ok s (execLane x s) :=
  onVec_keeps fun s t p => by simp

theorem execRsum_keeps (x : TileInsn) (s : State) : Keeps (U.tile x.tile.toNat).ok s (execRsum x s) :=
  onVec_keeps fun s t p => by simp

theorem execRmax_keeps (x : TileInsn) (s : State) : Keeps (U.tile x.tile.toNat).ok s (execRmax x s) :=
  onVec_keeps fun s t p => by simp

theorem execArgmax_keeps (x : TileInsn) (s : State) : Keeps (U.tile x.tile.toNat).ok s (execArgmax x s) :=
  onVec_keeps fun s t p => by simp

theorem execGather_keeps (x : TileInsn) (s : State) : Keeps (U.tile x.tile.toNat).ok s (execGather x s) :=
  onVec_keeps fun s t p => by simp

theorem execScatter_keeps (x : TileInsn) (s : State) : Keeps (U.tile x.tile.toNat).ok s (execScatter x s) :=
  onVec_keeps fun s t p => by simp

theorem execTopk_keeps (x : TileInsn) (s : State) : Keeps (U.tile x.tile.toNat).ok s (execTopk x s) :=
  onVec_keeps fun s t p => by simp

theorem execNms_keeps (x : TileInsn) (s : State) : Keeps (U.tile x.tile.toNat).ok s (execNms x s) :=
  onVec_keeps fun s t p => by simp

theorem execAssign_keeps (x : TileInsn) (s : State) : Keeps (U.tile x.tile.toNat).ok s (execAssign x s) :=
  onVec_keeps fun s t p => by simp

theorem execLnstat_keeps (x : TileInsn) (s : State) : Keeps (U.tile x.tile.toNat).ok s (execLnstat x s) :=
  onVec_keeps fun s t p => by simp

theorem execSkipmask_keeps (x : TileInsn) (s : State) : Keeps (U.tile x.tile.toNat).ok s (execSkipmask x s) :=
  onVec_keeps fun s t p => by simp

theorem execVectorComplete_keeps (t : BitVec 7) (s : State) : Keeps (U.tile t.toNat).ok s (execVectorComplete t s) :=
  onFlight_keeps fun s p g => by simp

/-! ### REGISTER_WRITE

A register write reaches the unit whose page holds the address, so the unit exists, and does what the register's own row or
its access codes say. -/

theorem Place.array_page_ok {a base st n i0 off : Nat} {b : Blk} {f : Place} {u : Inst} (hn : i0 + n ≤ b.count)
    (hf : f = .page u off → u.ok = true) (h : Place.array a base st n i0 b f = .page u off) : u.ok = true := by
  unfold Place.array at h
  split at h
  · rename_i hr
    cases h
    have hi : (a - base) / st < n := Nat.div_lt_of_lt_mul (by omega)
    simp only [Inst.ok, decide_eq_true_eq]
    omega
  · exact hf h

/-- The pages of Table 1.1 belong to the units of Table 1.1. -/
theorem locate_page_ok {a off : Nat} {u : Inst} (h : locate a = .page u off) : u.ok = true := by
  unfold locate at h
  split at h
  · cases h
  · split at h
    · split at h <;> cases h
    · split at h
      · split at h <;> cases h
      · split at h
        · cases h
        · revert h
          iterate 21 refine Place.array_page_ok (by decide) ?_
          intro h
          cases h

theorem thenDo_keeps {s : State} {r : Res} {f : State → Res} (hr : Keeps true s r) (hf : ∀ t, Keeps true t (f t)) :
    Keeps true s (thenDo r f) := by
  cases hr with
  | @next t ht => exact (hf t).after ht
  | fault h => exact .fault h

theorem scx_ok (n : BitVec 8) : (U.scx n.toNat).ok = true :=
  decide_eq_true n.isLt

theorem lns_ok (e : BitVec 3) : (U.lns e.toNat).ok = true :=
  decide_eq_true e.isLt

theorem tile_ok_of_cast {n : Nat} (hn : (U.tile n).ok = true) : (U.tile (BitVec.ofNat 7 n).toNat).ok = true := by
  have h : n < 72 := of_decide_eq_true hn
  have hc : (BitVec.ofNat 7 n).toNat = n := Nat.mod_eq_of_lt (by omega)
  rwa [hc]

theorem writePlain_keeps (u : Inst) (off : Nat) (v : Word) (s : State) : Keeps u.ok s (writePlain u off v s) := by
  refine onReg_keeps ?_
  split <;> simp

theorem writeHeader_keeps {u : Inst} (hu : u.ok = true) (off : Nat) (v : Word) (s : State) :
    Keeps true s (writeHeader u off v s) :=
  .of_ok hu <|
    ite_keeps (ite_keeps (execInstanceReset_keeps u _ s) (execRunWrite_keeps u _ s)) <|
    ite_keeps (execPgErrClear_keeps u v s) <|
    ite_keeps (onReg_keeps (by simp)) <|
    ite_keeps (execPgErrInj_keeps u v s) (onReg_keeps rfl)

theorem writeTmu_keeps (off : Nat) (v : Word) (s : State) : Keeps true s (writeTmu off v s) := by
  refine ite_keeps (execReplayTargetLo_keeps v s) ?_
  split
  · exact onReg_keeps (u := U.tmu) (by simp)
  · exact writePlain_keeps U.tmu off v s

theorem writePle_keeps (off : Nat) (v : Word) (s : State) : Keeps true s (writePle off v s) :=
  have hp : Keeps true s (writePlain U.ple off v s) := writePlain_keeps U.ple off v s
  ite_keeps (ite_keeps (execCommitCancel_keeps v s) (execCommit_keeps v s)) <|
  ite_keeps (execPlanLoad_keeps v s) <|
  ite_keeps
    (ite_keeps (execSlotConfigWrite_keeps _ _ v s) <|
      ite_keeps (execSlotConfigWrite_keeps _ _ v s) <|
      ite_keeps (execSlotConfigWrite_keeps _ _ v s) hp) <|
  ite_keeps (execStreamDlWrite_keeps _ v s) hp

theorem writeScx_keeps {n : Nat} (hn : (U.scx n).ok = true) (off : Nat) (v : Word) (s : State) :
    Keeps true s (writeScx n off v s) := by
  refine ite_keeps ?_ ((writePlain_keeps (U.scx n) off v s).of_ok hn)
  split
  · exact (execAdmitStream_keeps _ s).of_ok (scx_ok _)
  · exact (execRelease_keeps _ s).of_ok (scx_ok _)
  · exact (execCancel_keeps _ s).of_ok (scx_ok _)
  · exact (onReg_keeps rfl).of_ok hn

theorem writeCpm_keeps (off : Nat) (v : Word) (s : State) : Keeps true s (writeCpm off v s) :=
  ite_keeps (execAllocReq_keeps v s) <|
  ite_keeps (onReg_keeps (u := U.cpm) (by simp)) <|
  ite_keeps (execFreeAddrLo_keeps v s) (writePlain_keeps U.cpm off v s)

theorem writePep_keeps (off : Nat) (v : Word) (s : State) : Keeps true s (writePep off v s) :=
  ite_keeps (execHostlossRelease_keeps v s) (writePlain_keeps U.pep off v s)

theorem writeSec_keeps (off : Nat) (v : Word) (s : State) : Keeps true s (writeSec off v s) :=
  ite_keeps (execSeal_keeps v s) (writePlain_keeps U.sec off v s)

theorem writeStw_keeps (src : Stamp) (off : Nat) (v : Word) (s : State) : Keeps true s (writeStw src off v s) :=
  ite_keeps (execHostBoot_keeps v s) <|
  ite_keeps (onReg_keeps (u := U.stw) (by simp)) (writePlain_keeps U.stw off v s)

theorem writeMbx_keeps {n : Nat} (hn : (U.mbx n).ok = true) (src : Stamp) (off : Nat) (v : Word) (s : State) :
    Keeps true s (writeMbx src n off v s) :=
  ite_keeps (execMbxUnlock_keeps src _ v s) <|
  ite_keeps
    (ite_keeps
      (ite_keeps (thenDo_keeps (execMbxAck_keeps src _ s) (execMbxSend_keeps src _)) (execMbxAck_keeps src _ s)) <|
      ite_keeps (execMbxSend_keeps src _ s) (onBus_keeps (by simp))) <|
  ite_keeps (onBus_keeps (by simp)) <|
  thenDo_keeps (onBus_keeps (by simp)) fun t => (writePlain_keeps (U.mbx n) off v t).of_ok hn

theorem touchHeader_keeps (src : Stamp) (u : Inst) (s : State) : Keeps true s (touchHeader src u s) :=
  ite_keeps (onBus_keeps (by simp)) (.next rfl)

theorem writeErc_keeps (off : Nat) (v : Word) (s : State) : Keeps true s (writeErc off v s) :=
  ite_keeps (execLogHeadWrite_keeps v s) <|
  ite_keeps (ite_keeps (execDumpCtrlRearm_keeps s) (onReg_keeps (u := U.erc) rfl)) <|
  ite_keeps (thenDo_keeps (writePlain_keeps U.erc off v s) execCoalClear_keeps) (writePlain_keeps U.erc off v s)

theorem writeDevctl_keeps (off : Nat) (v : Word) (s : State) : Keeps true s (writeDevctl off v s) :=
  ite_keeps (execSoftReset_keeps v s) <|
  ite_keeps (execPrimacyReq_keeps v s) (writePlain_keeps U.devctl off v s)

theorem writeBlock_keeps {u : Inst} (hu : u.ok = true) (src : Stamp) (off : Nat) (v : Word) (s : State) :
    Keeps true s (writeBlock src u off v s) := by
  have hp : Keeps true s (writePlain u off v s) := (writePlain_keeps u off v s).of_ok hu
  obtain ⟨b, i⟩ := u
  cases b with
  | devctl => exact writeDevctl_keeps off v s
  | sec => exact writeSec_keeps off v s
  | tmu => exact writeTmu_keeps off v s
  | ple => exact writePle_keeps off v s
  | erc => exact writeErc_keeps off v s
  | mbx => exact writeMbx_keeps hu src off v s
  | pep => exact writePep_keeps off v s
  | scx => exact writeScx_keeps hu off v s
  | cpm => exact writeCpm_keeps off v s
  | egr => exact ite_keeps (execSinkCfgWrite_keeps _ v s) hp
  | pfb => exact ite_keeps (execRepairReq_keeps v s) hp
  | tile => exact ite_keeps ((execMirrorInj_keeps _ v s).of_ok (tile_ok_of_cast hu)) hp
  | stw => exact writeStw_keeps src off v s
  | nix | ing | dec | lns | dmc | met => exact hp

theorem writeRing_keeps (r off : Nat) (v : Word) (s : State) : Keeps true s (writeRing r off v s) :=
  ite_keeps (execRingConfigWrite_keeps _ _ v s) <|
  ite_keeps (execRingConfigWrite_keeps _ _ v s) <|
  ite_keeps (execRingConfigWrite_keeps _ _ v s) <|
  ite_keeps (execRingConfigWrite_keeps _ _ v s) <|
  ite_keeps (execRingConfigWrite_keeps _ _ v s) <|
  ite_keeps (execRingConfigWrite_keeps _ _ v s) <|
  ite_keeps (execHostIdxWrite_keeps _ v s) <|
  ite_keeps (onBus_keeps (by simp)) (onBus_keeps rfl)

theorem writeFence_keeps (f off : Nat) (v : Word) (s : State) : Keeps true s (writeFence f off v s) :=
  ite_keeps (onBus_keeps (by simp)) <|
  ite_keeps (onBus_keeps (by simp)) <|
  ite_keeps (onBus_keeps (by simp)) <|
  ite_keeps (execFenceInc_keeps _ v s) <|
  ite_keeps (execFenceSet_keeps _ v s) <|
  ite_keeps (onBus_keeps (by simp)) (onBus_keeps rfl)

theorem execRegisterWrite_keeps (src : Stamp) (addr : BitVec 28) (value : Word) (s : State) :
    Keeps true s (execRegisterWrite src addr value s) := by
  refine ite_keeps (execPartialAccess_keeps true addr 1 s) ?_
  split
  · exact onBus_keeps rfl
  · exact onBus_keeps rfl
  · exact onBus_keeps (by simp)
  · rename_i u off hl
    have hu := locate_page_ok hl
    exact ite_keeps (thenDo_keeps (touchHeader_keeps src u s) (writeHeader_keeps hu off value))
      (writeBlock_keeps hu src off value s)
  · exact writeRing_keeps _ _ value s
  · exact writeFence_keeps _ _ value s

/-! ## O55 and O56 -/

/-- A command answers a next state with a property, or, where it names a unit that does not exist, a fault. -/
inductive Answers (ok : Bool) (P : State → Prop) : Res → Prop
  | next {t : State} (h : P t) : Answers ok P (.next t)
  | fault {x : Fault} (h : ok = false) : Answers ok P (.fault x)

/-- What a command keeps: the queue, the fuses, the fused security version from falling, and, unless it is a command of the
meter die, the meter die (R8, R379). -/
structure Follows (c : Instr) (s t : State) : Prop where
  pending : t.pending = s.pending
  fuses : t.fuses = s.fuses
  svn : s.stw.svn ≤ t.stw.svn
  meter : c.ofMeter = false → t.meter = s.meter

theorem Follows.congr {c : Instr} {s t u : State} (hu : Follows c s u) (h : t.kept = u.kept) : Follows c s t := by
  simp only [State.kept, Prod.mk.injEq] at h
  obtain ⟨hp, hf, hm, hv⟩ := h
  exact ⟨hp.trans hu.pending, hf.trans hu.fuses, hv ▸ hu.svn, fun hc => hm.trans (hu.meter hc)⟩

theorem follows_of_kept {c : Instr} {s t : State} (h : t.kept = s.kept) : Follows c s t :=
  Follows.congr ⟨rfl, rfl, BitVec.le_refl _, fun _ => rfl⟩ h

theorem Keeps.follows {ok : Bool} {c : Instr} {s : State} {r : Res} : Keeps ok s r → Answers ok (Follows c s) r
  | .next h => .next (follows_of_kept h)
  | .fault h => .fault h

/-! ### The commands of the meter die -/

/-- What the command does to the meter die rests on the meter die, the strobe and the fused key hash alone; outside the meter
die it changes at most the strobe, the bridge's line and the outputs (R8). -/
def StandsApart (e : State → Res) : Prop :=
  ∀ s s' : State, s'.meter = s.meter → s'.power.strobe = s.power.strobe →
    s'.fuses.meterKeyHash = s.fuses.meterKeyHash →
    ∃ t t', e s = .next t ∧ e s' = .next t' ∧ t'.meter = t.meter ∧
      t = { s with meter := t.meter, power := { s.power with strobe := t.power.strobe },
                   met := { s.met with line := t.met.line }, out := t.out }

theorem StandsApart.follows {e : State → Res} (h : StandsApart e) {ok : Bool} {c : Instr} (hc : c.ofMeter = true)
    (s : State) : Answers ok (Follows c s) (e s) := by
  obtain ⟨t, _, ht, -, -, hs⟩ := h s s rfl rfl rfl
  rw [ht]
  refine .next ?_
  rw [hs]
  exact ⟨rfl, rfl, BitVec.le_refl _, fun hn => absurd (hc.symm.trans hn) (by decide)⟩

/-- The commands that act through `onMeter` look at the rest of the state for the fused key hash at most. -/
theorem onMeter_standsApart {e : State → Res} {f : State → Meter → Meter} (he : ∀ s, e s = onMeter s (f s))
    (hf : ∀ s s' : State, s'.fuses.meterKeyHash = s.fuses.meterKeyHash → f s' = f s) : StandsApart e := by
  intro s s' hm _ hk
  refine ⟨_, _, he s, he s', ?_⟩
  rw [hf s s' hk, hm]
  split
  · exact ⟨hm, rfl⟩
  · exact ⟨rfl, rfl⟩

theorem execQuadratureCount_standsApart (ch1 a b : Bool) : StandsApart (execQuadratureCount ch1 a b) :=
  onMeter_standsApart (fun _ => rfl) fun _ _ _ => rfl

theorem execZPeriod_standsApart (ch1 : Bool) : StandsApart (execZPeriod ch1) :=
  onMeter_standsApart (fun _ => rfl) fun _ _ _ => rfl

theorem execSpeedUpdate_standsApart : StandsApart execSpeedUpdate :=
  onMeter_standsApart (fun _ => rfl) fun _ _ _ => rfl

theorem execSealOpen_standsApart : StandsApart execSealOpen :=
  onMeter_standsApart (fun _ => rfl) fun _ _ _ => rfl

theorem execParamSet_standsApart (p : MeterParams) : StandsApart (execParamSet p) :=
  onMeter_standsApart (fun _ => rfl) fun _ _ _ => rfl

theorem execTimeSet_standsApart (ms : BitVec 48) : StandsApart (execTimeSet ms) :=
  onMeter_standsApart (fun _ => rfl) fun _ _ _ => rfl

theorem execKeyLoad_standsApart (key : BitVec 128) : StandsApart (execKeyLoad key) :=
  onMeter_standsApart (fun _ => rfl) fun _ _ _ => rfl

theorem execFirmwareLoad_standsApart (image : MeterImage) : StandsApart (execFirmwareLoad image) :=
  onMeter_standsApart (fun _ => rfl) fun _ _ _ => rfl

theorem execTimeAdj_standsApart (adj : Int) (ctr mac : Word) : StandsApart (execTimeAdj adj ctr mac) :=
  onMeter_standsApart (fun _ => rfl) fun _ _ _ => rfl

theorem execMeterBatterySwitch_standsApart : StandsApart execMeterBatterySwitch :=
  onMeter_standsApart (fun _ => rfl) fun _ _ _ => rfl

theorem execMeterPowerFail_standsApart : StandsApart execMeterPowerFail :=
  onMeter_standsApart (fun _ => rfl) fun _ _ _ => rfl

theorem execMeterReset_standsApart : StandsApart execMeterReset :=
  onMeter_standsApart (fun _ => rfl) fun _ _ _ => rfl

theorem meterImageOk_congr {f g : Fuses} (h : g.meterKeyHash = f.meterKeyHash) : g.meterImageOk = f.meterImageOk := by
  funext i
  rw [Fuses.meterImageOk, h, Fuses.meterImageOk]

theorem meterRuns_congr {f g : Fuses} (h : g.meterKeyHash = f.meterKeyHash) : g.meterRuns = f.meterRuns := by
  funext i
  unfold Fuses.meterRuns
  rw [meterImageOk_congr h]

theorem execSealClose_standsApart : StandsApart execSealClose :=
  onMeter_standsApart (fun _ => rfl) fun s s' hk => by rw [meterImageOk_congr hk]

theorem execMeterBoot_standsApart : StandsApart execMeterBoot :=
  onMeter_standsApart (fun _ => rfl) fun s s' hk => by rw [meterRuns_congr hk]

theorem execIndicatorFrame_standsApart : StandsApart execIndicatorFrame := by
  intro s s' hm _ _
  unfold execIndicatorFrame
  rw [hm]
  split
  · exact ⟨_, _, rfl, rfl, hm, rfl⟩
  · exact ⟨_, _, rfl, rfl, rfl, rfl⟩

theorem execVddMetReturn_standsApart : StandsApart execVddMetReturn := by
  intro s s' hm _ _
  exact ⟨_, _, rfl, rfl, by rw [hm], rfl⟩

theorem execSnapshotRequest_standsApart : StandsApart execSnapshotRequest := by
  intro s s' hm hs _
  unfold execSnapshotRequest
  rw [hm, hs]
  split
  · exact ⟨_, _, rfl, rfl, hm, rfl⟩
  · exact ⟨_, _, rfl, rfl, rfl, rfl⟩

theorem sendBridge_meter (s : State) (f : Bytes) : (s.sendBridge f).meter = s.meter := by
  unfold State.sendBridge
  split <;> rfl

/-- A frame on the bridge reaches its line when the core die runs, and the meter die does not see whether it did (R420). -/
theorem sendBridge_standsApart {s s' : State} {m : Meter} (f : Bytes) :
    ∃ t t', (Host.Outcome.next (({ s with meter := m } : State).sendBridge f) : Res) = .next t ∧
      (Host.Outcome.next (({ s' with meter := m } : State).sendBridge f) : Res) = .next t' ∧ t'.meter = t.meter ∧
      t = { s with meter := t.meter, power := { s.power with strobe := t.power.strobe },
                   met := { s.met with line := t.met.line }, out := t.out } := by
  refine ⟨_, _, rfl, rfl, by rw [sendBridge_meter, sendBridge_meter], ?_⟩
  unfold State.sendBridge
  split <;> rfl

theorem execStrobeFrameSend_standsApart : StandsApart execStrobeFrameSend := by
  intro s s' hm _ _
  unfold execStrobeFrameSend
  rw [hm]
  split
  · exact ⟨_, _, rfl, rfl, hm, rfl⟩
  · split
    · exact sendBridge_standsApart _
    · exact ⟨_, _, rfl, rfl, hm, rfl⟩

theorem execPeriodicFrameSend_standsApart : StandsApart execPeriodicFrameSend := by
  intro s s' hm _ _
  unfold execPeriodicFrameSend
  rw [hm]
  split
  · rw [show s' = { s' with meter := s.meter } by rw [← hm]]
    exact sendBridge_standsApart (s := s) (s' := s') (m := s.meter) _
  · exact ⟨_, _, rfl, rfl, hm, rfl⟩

theorem exec_standsApart {c : Instr} (hc : c.ofMeter = true) : StandsApart (exec c) := by
  cases c
  case sealClose => exact execSealClose_standsApart
  case meterBoot => exact execMeterBoot_standsApart
  case indicatorFrame => exact execIndicatorFrame_standsApart
  case vddMetReturn => exact execVddMetReturn_standsApart
  case snapshotRequest => exact execSnapshotRequest_standsApart
  case strobeFrameSend => exact execStrobeFrameSend_standsApart
  case periodicFrameSend => exact execPeriodicFrameSend_standsApart
  case quadratureCount ch1 a b => exact execQuadratureCount_standsApart ch1 a b
  case zPeriod ch1 => exact execZPeriod_standsApart ch1
  case speedUpdate => exact execSpeedUpdate_standsApart
  case sealOpen => exact execSealOpen_standsApart
  case paramSet p => exact execParamSet_standsApart p
  case timeSet ms => exact execTimeSet_standsApart ms
  case keyLoad key => exact execKeyLoad_standsApart key
  case firmwareLoad image => exact execFirmwareLoad_standsApart image
  case timeAdj adj ctr mac => exact execTimeAdj_standsApart adj ctr mac
  case meterBatterySwitch => exact execMeterBatterySwitch_standsApart
  case meterPowerFail => exact execMeterPowerFail_standsApart
  case meterReset => exact execMeterReset_standsApart
  all_goals cases hc

/-! ### Every command -/

/-- SVN_COMMIT raises the fused security version to the running image's, where that is higher (R376). -/
theorem execSvnCommit_follows (n : BitVec 5) (s : State) :
    Answers true (Follows (.svnCommit n) s) (execSvnCommit n s) := by
  unfold execSvnCommit onCore
  split
  · refine .next ?_
    rcases serve_kept_or s n.toNat 0x21 false _ with h | h
    · exact follows_of_kept h
    · refine Follows.congr ?_ h
      dsimp only
      split
      · split
        · rename_i hi
          exact ⟨rfl, rfl, Nat.le_of_lt hi, fun _ => rfl⟩
        · exact follows_of_kept rfl
      · exact follows_of_kept rfl
  · exact .next (follows_of_kept rfl)

/-- A command of the core die, by its row of the table. -/
theorem exec_follows_of_core {c : Instr} (hc : c.ofMeter = false) (s : State) : Answers c.wf (Follows c s) (exec c s) := by
  cases c with
  | coldReset => exact (execColdReset_keeps ..).follows
  | railFault rail => exact (execRailFault_keeps rail s).follows
  | clockLoss => exact (execClockLoss_keeps ..).follows
  | avsTargetWrite => exact (execAvsTargetWrite_keeps ..).follows
  | tjHigh => exact (execTjHigh_keeps ..).follows
  | thermalTrip => exact (execThermalTrip_keeps ..).follows
  | registerWrite => exact (execRegisterWrite_keeps ..).follows
  | liveWriteApply => exact (execLiveWriteApply_keeps ..).follows
  | unmappedAccess => exact (execUnmappedAccess_keeps ..).follows
  | partialAccess => exact (execPartialAccess_keeps ..).follows
  | runWrite => exact (execRunWrite_keeps ..).follows
  | instanceReset u run => exact (execInstanceReset_keeps u run s).follows
  | resetComplete => exact (execResetComplete_keeps ..).follows
  | pgErrClear => exact (execPgErrClear_keeps ..).follows
  | pgErrInj => exact (execPgErrInj_keeps ..).follows
  | sramEccError => exact (execSramEccError_keeps ..).follows
  | softReset => exact (execSoftReset_keeps ..).follows
  | warmResetComplete => exact (execWarmResetComplete_keeps ..).follows
  | epochBoundary => exact (execEpochBoundary_keeps ..).follows
  | trigInEdge => exact (execTrigInEdge_keeps ..).follows
  | trigMiss => exact (execTrigMiss_keeps ..).follows
  | replayTargetLo => exact (execReplayTargetLo_keeps ..).follows
  | syncMessage => exact (execSyncMessage_keeps ..).follows
  | pdelayReqRx => exact (execPdelayReqRx_keeps ..).follows
  | pdelayReqTx => exact (execPdelayReqTx_keeps ..).follows
  | syncTimeout => exact (execSyncTimeout_keeps ..).follows
  | ppsInEdge => exact (execPpsInEdge_keeps ..).follows
  | ppsOutPulse => exact (execPpsOutPulse_keeps ..).follows
  | ppsOutEnd => exact (execPpsOutEnd_keeps ..).follows
  | trigOutStart => exact (execTrigOutStart_keeps ..).follows
  | trigOutEnd => exact (execTrigOutEnd_keeps ..).follows
  | epochLoRead => exact (execEpochLoRead_keeps ..).follows
  | timeLoRead => exact (execTimeLoRead_keeps ..).follows
  | planLoad => exact (execPlanLoad_keeps ..).follows
  | planLoadDone => exact (execPlanLoadDone_keeps ..).follows
  | commit => exact (execCommit_keeps ..).follows
  | planCheckDone => exact (execPlanCheckDone_keeps ..).follows
  | commitCancel => exact (execCommitCancel_keeps ..).follows
  | slotConfigWrite => exact (execSlotConfigWrite_keeps ..).follows
  | streamDlWrite => exact (execStreamDlWrite_keeps ..).follows
  | windowOpen => exact (execWindowOpen_keeps ..).follows
  | windowFire => exact (execWindowFire_keeps ..).follows
  | windowSkipLatest => exact (execWindowSkipLatest_keeps ..).follows
  | windowDone => exact (execWindowDone_keeps ..).follows
  | deadlineForce => exact (execDeadlineForce_keeps ..).follows
  | unitAbortComplete => exact (execUnitAbortComplete_keeps ..).follows
  | pleLockstepMismatch => exact (execPleLockstepMismatch_keeps ..).follows
  | swapInDone => exact (execSwapInDone_keeps ..).follows
  | swapOutDone => exact (execSwapOutDone_keeps ..).follows
  | frameRx => exact (execFrameRx_keeps ..).follows
  | policeRefill => exact (execPoliceRefill_keeps ..).follows
  | reorderTimeout => exact (execReorderTimeout_keeps ..).follows
  | auTimeout => exact (execAuTimeout_keeps ..).follows
  | nackSend => exact (execNackSend_keeps ..).follows
  | rrSend => exact (execRrSend_keeps ..).follows
  | ssrcChange => exact (execSsrcChange_keeps ..).follows
  | trainingAttempt => exact (execTrainingAttempt_keeps ..).follows
  | trainingFail => exact (execTrainingFail_keeps ..).follows
  | anComplete => exact (execAnComplete_keeps ..).follows
  | linkUp => exact (execLinkUp_keeps ..).follows
  | linkDown => exact (execLinkDown_keeps ..).follows
  | admitStream => exact ((execAdmitStream_keeps ..).of_ok (scx_ok _)).follows
  | release => exact ((execRelease_keeps ..).of_ok (scx_ok _)).follows
  | cancel => exact ((execCancel_keeps ..).of_ok (scx_ok _)).follows
  | allocReq => exact (execAllocReq_keeps ..).follows
  | allocDone => exact (execAllocDone_keeps ..).follows
  | freeAddrLo => exact (execFreeAddrLo_keeps ..).follows
  | chainReturn => exact (execChainReturn_keeps ..).follows
  | chainReturnDone => exact (execChainReturnDone_keeps ..).follows
  | decodeChargeStop => exact (execDecodeChargeStop_keeps ..).follows
  | decodeElapsedAbandon => exact (execDecodeElapsedAbandon_keeps ..).follows
  | decodeCoreComplete => exact (execDecodeCoreComplete_keeps ..).follows
  | augReadDone => exact ((execAugReadDone_keeps ..).of_ok (lns_ok _)).follows
  | augReadTimeout => exact ((execAugReadTimeout_keeps ..).of_ok (lns_ok _)).follows
  | lensProgramComplete => exact ((execLensProgramComplete_keeps ..).of_ok (lns_ok _)).follows
  | nop => exact (execNop_keeps ..).follows
  | endProg => exact (execEndProg_keeps ..).follows
  | stage => exact (execStage_keeps ..).follows
  | waitctr => exact (execWaitctr_keeps ..).follows
  | waitctrRelease => exact (execWaitctrRelease_keeps ..).follows
  | emitobj => exact (execEmitobj_keeps ..).follows
  | mop => exact (execMop_keeps ..).follows
  | mopComplete => exact (execMopComplete_keeps ..).follows
  | load => exact (execLoad_keeps ..).follows
  | store => exact (execStore_keeps ..).follows
  | xferComplete => exact (execXferComplete_keeps ..).follows
  | send => exact (execSend_keeps ..).follows
  | beatLand => exact (execBeatLand_keeps ..).follows
  | sendComplete => exact (execSendComplete_keeps ..).follows
  | fusedVectorEntry => exact (execFusedVectorEntry_keeps ..).follows
  | ld => exact (execLd_keeps ..).follows
  | st => exact (execSt_keeps ..).follows
  | ldx => exact (execLdx_keeps ..).follows
  | stx => exact (execStx_keeps ..).follows
  | add => exact (execAdd_keeps ..).follows
  | sub => exact (execSub_keeps ..).follows
  | mul => exact (execMul_keeps ..).follows
  | fma => exact (execFma_keeps ..).follows
  | max => exact (execMax_keeps ..).follows
  | min => exact (execMin_keeps ..).follows
  | cmplt => exact (execCmplt_keeps ..).follows
  | sel => exact (execSel_keeps ..).follows
  | exp => exact (execExp_keeps ..).follows
  | rcp => exact (execRcp_keeps ..).follows
  | rsqrt => exact (execRsqrt_keeps ..).follows
  | cvt => exact (execCvt_keeps ..).follows
  | imm => exact (execImm_keeps ..).follows
  | lane => exact (execLane_keeps ..).follows
  | rsum => exact (execRsum_keeps ..).follows
  | rmax => exact (execRmax_keeps ..).follows
  | argmax => exact (execArgmax_keeps ..).follows
  | gather => exact (execGather_keeps ..).follows
  | scatter => exact (execScatter_keeps ..).follows
  | topk => exact (execTopk_keeps ..).follows
  | nms => exact (execNms_keeps ..).follows
  | assign => exact (execAssign_keeps ..).follows
  | lnstat => exact (execLnstat_keeps ..).follows
  | skipmask => exact (execSkipmask_keeps ..).follows
  | vectorComplete => exact (execVectorComplete_keeps ..).follows
  | sumCheckVerdict => exact (execSumCheckVerdict_keeps ..).follows
  | dupCheckVerdict => exact (execDupCheckVerdict_keeps ..).follows
  | loadCheckVerdict => exact (execLoadCheckVerdict_keeps ..).follows
  | transDecay => exact (execTransDecay_keeps ..).follows
  | repair => exact (execRepair_keeps ..).follows
  | mirrorInj => exact (execMirrorInj_keeps ..).follows
  | repairReq => exact (execRepairReq_keeps ..).follows
  | recordAccept => exact (execRecordAccept_keeps ..).follows
  | ringDelivery => exact (execRingDelivery_keeps ..).follows
  | sinkSend => exact (execSinkSend_keeps ..).follows
  | sinkCfgWrite => exact (execSinkCfgWrite_keeps ..).follows
  | dramRead => exact (execDramRead_keeps ..).follows
  | dramWrite => exact (execDramWrite_keeps ..).follows
  | writeDrain => exact (execWriteDrain_keeps ..).follows
  | refresh => exact (execRefresh_keeps ..).follows
  | refreshRatePoll => exact (execRefreshRatePoll_keeps ..).follows
  | hammerWindowReset => exact (execHammerWindowReset_keeps ..).follows
  | scrubRead => exact (execScrubRead_keeps ..).follows
  | migrationSegmentCopy => exact (execMigrationSegmentCopy_keeps ..).follows
  | balInterval => exact (execBalInterval_keeps ..).follows
  | dramInitDone => exact (execDramInitDone_keeps ..).follows
  | pcieTrainingAttempt => exact (execPcieTrainingAttempt_keeps ..).follows
  | pcieTrainingFail => exact (execPcieTrainingFail_keeps ..).follows
  | pcieLinkUp => exact (execPcieLinkUp_keeps ..).follows
  | pcieLinkDown => exact (execPcieLinkDown_keeps ..).follows
  | hotReset => exact (execHotReset_keeps ..).follows
  | linkDisable => exact (execLinkDisable_keeps ..).follows
  | perst => exact (execPerst_keeps ..).follows
  | flr => exact (execFlr_keeps ..).follows
  | d3hotEntry => exact (execD3hotEntry_keeps ..).follows
  | busMasterEnable => exact (execBusMasterEnable_keeps ..).follows
  | hostlossRelease => exact (execHostlossRelease_keeps ..).follows
  | l1Entry => exact (execL1Entry_keeps ..).follows
  | l1Exit => exact (execL1Exit_keeps ..).follows
  | l0pEntry => exact (execL0pEntry_keeps ..).follows
  | bar2Access => exact (execBar2Access_keeps ..).follows
  | tlpError => exact (execTlpError_keeps ..).follows
  | hostCompletion => exact (execHostCompletion_keeps ..).follows
  | cplTimeout => exact (execCplTimeout_keeps ..).follows
  | ringEnable => exact (execRingEnable_keeps ..).follows
  | ringDisable => exact (execRingDisable_keeps ..).follows
  | ringStopped => exact (execRingStopped_keeps ..).follows
  | ringConfigWrite => exact (execRingConfigWrite_keeps ..).follows
  | hostIdxWrite => exact (execHostIdxWrite_keeps ..).follows
  | indexMirrorWrite => exact (execIndexMirrorWrite_keeps ..).follows
  | uploadDescriptorFetch => exact (execUploadDescriptorFetch_keeps ..).follows
  | copyIn => exact (execCopyIn_keeps ..).follows
  | copyOut => exact (execCopyOut_keeps ..).follows
  | fenceOnly => exact (execFenceOnly_keeps ..).follows
  | uploadComplete => exact (execUploadComplete_keeps ..).follows
  | fenceInc => exact (execFenceInc_keeps ..).follows
  | fenceSet => exact (execFenceSet_keeps ..).follows
  | fenceMirrorWrite => exact (execFenceMirrorWrite_keeps ..).follows
  | valueLoRead => exact (execValueLoRead_keeps ..).follows
  | bootImageCheckDone => exact (execBootImageCheckDone_keeps ..).follows
  | hostBoot => exact (execHostBoot_keeps ..).follows
  | sealComplete => exact (execSealComplete_keeps ..).follows
  | stewardSleep => exact (execStewardSleep_keeps ..).follows
  | stewardWake => exact (execStewardWake_keeps ..).follows
  | wakeTimer => exact (execWakeTimer_keeps ..).follows
  | watchdogExpiry => exact (execWatchdogExpiry_keeps ..).follows
  | stewardLockstep => exact (execStewardLockstep_keeps ..).follows
  | stewardReset => exact (execStewardReset_keeps ..).follows
  | bootFollowOn => exact (execBootFollowOn_keeps ..).follows
  | mbxLockRead => exact (execMbxLockRead_keeps ..).follows
  | mbxUnlock => exact (execMbxUnlock_keeps ..).follows
  | mbxLockLapse => exact (execMbxLockLapse_keeps ..).follows
  | mbxSend => exact (execMbxSend_keeps ..).follows
  | mbxTake => exact (execMbxTake_keeps ..).follows
  | mbxReply => exact (execMbxReply_keeps ..).follows
  | mbxAck => exact (execMbxAck_keeps ..).follows
  | ping => exact (execPing_keeps ..).follows
  | status => exact (execStatus_keeps ..).follows
  | repairSave => exact (execRepairSave_keeps ..).follows
  | repairClear => exact (execRepairClear_keeps ..).follows
  | flashWrite => exact (execFlashWrite_keeps ..).follows
  | svnCommit n => exact execSvnCommit_follows n s
  | dumpInfo => exact (execDumpInfo_keeps ..).follows
  | dumpRearm => exact (execDumpRearm_keeps ..).follows
  | dumpNow => exact (execDumpNow_keeps ..).follows
  | ercReport => exact (execErcReport_keeps ..).follows
  | fatalError => exact (execFatalError_keeps ..).follows
  | logHeadWrite => exact (execLogHeadWrite_keeps ..).follows
  | logSpill => exact (execLogSpill_keeps ..).follows
  | coalClear => exact (execCoalClear_keeps ..).follows
  | dumpWrite => exact (execDumpWrite_keeps ..).follows
  | dumpComplete => exact (execDumpComplete_keeps ..).follows
  | dumpTimeout => exact (execDumpTimeout_keeps ..).follows
  | dumpCtrlRearm => exact (execDumpCtrlRearm_keeps ..).follows
  | dumpWindowRead => exact (execDumpWindowRead_keeps ..).follows
  | bridgeFrameRx => exact (execBridgeFrameRx_keeps ..).follows
  | strobeMiss => exact (execStrobeMiss_keeps ..).follows
  | meterAbsent => exact (execMeterAbsent_keeps ..).follows
  | meterTimeCompare => exact (execMeterTimeCompare_keeps ..).follows
  | metStatusRead => exact (execMetStatusRead_keeps ..).follows
  | snapshotWord0Read => exact (execSnapshotWord0Read_keeps ..).follows
  | heartbeatSend => exact (execHeartbeatSend_keeps ..).follows
  | heartbeatRx => exact (execHeartbeatRx_keeps ..).follows
  | peerLost => exact (execPeerLost_keeps ..).follows
  | primacyReq => exact (execPrimacyReq_keeps ..).follows
  | primacyUpdate => exact (execPrimacyUpdate_keeps ..).follows
  | sramEccCorrected => exact (execSramEccCorrected_keeps ..).follows
  | clockReturn => exact (execClockReturn_keeps ..).follows
  | powerDown => exact (execPowerDown_keeps ..).follows
  | l0pExit => exact (execL0pExit_keeps ..).follows
  | d3hotExit => exact (execD3hotExit_keeps ..).follows
  | interruptDisableWrite => exact (execInterruptDisableWrite_keeps ..).follows
  | quadratureCount | speedUpdate | sealOpen | sealClose | paramSet | timeSet | keyLoad | firmwareLoad |
    meterBoot | indicatorFrame | timeAdj | meterBatterySwitch | meterPowerFail | meterReset |
    snapshotRequest | strobeFrameSend | periodicFrameSend | vddMetReturn | zPeriod => cases hc
  -- SEAL alone is left: its name is a keyword of Lean's, which no alternative may be called.
  | _ => exact (execSeal_keeps ..).follows

theorem exec_follows (c : Instr) (s : State) : Answers c.wf (Follows c s) (exec c s) := by
  cases hc : c.ofMeter with
  | true => exact (exec_standsApart hc).follows hc s
  | false => exact exec_follows_of_core hc s

/-- Settles O55: each command of the core die keeps the meter die, operation by operation, and each of the meter die acts on
the meter die, the strobe and the key hash alone. -/
theorem meterDieStandsApart : Obligations.MeterDieStandsApart := by
  unfold Obligations.MeterDieStandsApart
  refine ⟨fun c s t hc ht => ?_, fun c s s' hc => exec_standsApart hc s s'⟩
  have h := exec_follows c s
  rw [ht] at h
  cases h with
  | next h => exact h.meter hc

/-- Settles O56, by what each command answers (`exec_follows`). -/
theorem everyCommandAnswers : Obligations.EveryCommandAnswers := by
  unfold Obligations.EveryCommandAnswers
  intro c s
  have h := exec_follows c s
  refine ⟨fun hwf => ?_, fun r hr => ?_, fun t ht => ?_⟩
  · generalize exec c s = a at h
    cases h with
    | next h => exact ⟨_, rfl⟩
    | fault hn => exact absurd (hwf.symm.trans hn) (by decide)
  · rw [hr] at h
    cases h
  · rw [ht] at h
    cases h with
    | next h => exact ⟨h.pending, h.fuses, h.svn⟩

end Sys2Proof.Machine

/-!
SUPPORT. What reading and writing device memory leaves alone, whatever the beats meet on the way: each operation between a
unit's request and DRAM changes DRAM, the registers, and what an error event touches, and nothing else.
-/
namespace Sys2Proof.Machine

/-- The parts of a state that no beat touches: those that no error event touches, but for DRAM. -/
def State.offDram (s : State) :=
  ((s.pending, s.fuses, s.live, s.sync, s.ple, s.scx, s.cpm, s.dec, s.lns, s.fabric),
   (s.egr, s.pep, s.stw, s.mbx, s.meter, s.met, s.pair, s.out, s.rdata, s.fresh))

theorem offDram_of_apart {s t : State} (h : t.apart = s.apart) : t.offDram = s.offDram := by
  simp only [State.apart, Prod.mk.injEq] at h
  simp only [State.offDram, h]

theorem cpm_of_offDram {s t : State} (h : t.offDram = s.offDram) : t.cpm = s.cpm :=
  congrArg (fun x => x.1.2.2.2.2.2.2.1) h

@[simp ↓] theorem ite_offDram {c : Prop} [Decidable c] (a b : State) :
    (if c then a else b).offDram = if c then a.offDram else b.offDram := apply_ite State.offDram c a b

@[simp ↓] theorem foldl_offDram {α : Type} (f : State → α → State) (l : List α) (s : State)
    (h : ∀ b a, (f b a).offDram = b.offDram) : (l.foldl f s).offDram = s.offDram :=
  foldl_keeps (P := fun b => b.offDram = s.offDram) f (fun b a hb => (h b a).trans hb) l rfl

@[simp ↓] theorem when_offDram (s : State) (c : Bool) (f : State → State) :
    (s.when c f).offDram = if c then (f s).offDram else s.offDram := ite_offDram _ _

/-! ### Registers, events, and the records of a controller -/

@[simp ↓] theorem setReg_offDram (s : State) (a : Nat) (v : Word) : (s.setReg a v).offDram = s.offDram :=
  offDram_of_apart (setReg_apart s a v)

@[simp ↓] theorem raise_offDram (s : State) (u : Inst) (bit : Nat) (win : EvWin) (inj : Bool) :
    (s.raise u bit win inj).offDram = s.offDram := offDram_of_apart (raise_apart s u bit win inj)

@[simp ↓] theorem setDmc_offDram (s : State) (c : Nat) (x : Dmc) : (s.setDmc c x).offDram = s.offDram := by
  simp [State.offDram]

@[simp ↓] theorem setFaults_offDram (s : State) (k : Nat) (v : Nat × Nat) : (s.setFaults k v).offDram = s.offDram := by
  simp [State.offDram]

@[simp ↓] theorem holdReq_offDram (s : State) (r : MemReq) : (s.holdReq r).offDram = s.offDram := by
  simp [State.offDram]

@[simp ↓] theorem setFld_offDram (s : State) (a hi lo v : Nat) : (s.setFld a hi lo v).offDram = s.offDram :=
  setReg_offDram s a _

@[simp ↓] theorem setNum_offDram (s : State) (a n : Nat) : (s.setNum a n).offDram = s.offDram := setReg_offDram s a _
@[simp ↓] theorem incW_offDram (s : State) (a n : Nat) : (s.incW a n).offDram = s.offDram := setReg_offDram s a _
@[simp ↓] theorem incS_offDram (s : State) (a n : Nat) : (s.incS a n).offDram = s.offDram := setReg_offDram s a _

@[simp ↓] theorem setRankState_offDram (s : State) (c p v : Nat) : (s.setRankState c p v).offDram = s.offDram := by
  simp [State.setRankState, State.setNib]

@[simp ↓] theorem setQueue_offDram (s : State) (c ch : Nat) (q : List WqEntry) : (s.setQueue c ch q).offDram = s.offDram :=
  setDmc_offDram s c _

@[simp ↓] theorem countBeat_offDram (s : State) (c ch port : Nat) : (s.countBeat c ch port).offDram = s.offDram :=
  setDmc_offDram s c _

@[simp ↓] theorem storeBlock_offDram (s : State) (blk : Nat) (data : Bytes) (mark : Bool) :
    (s.storeBlock blk data mark).offDram = s.offDram := by
  unfold State.storeBlock
  exact foldl_offDram _ _ _ fun _ _ => rfl

/-! ### Errors and ranks -/

@[simp ↓] theorem countCe_offDram (s : State) (c : Nat) : (s.countCe c).offDram = s.offDram := by simp [State.countCe]

@[simp ↓] theorem countUe_offDram (s : State) (c p blk : Nat) : (s.countUe c p blk).offDram = s.offDram := by
  simp [State.countUe, State.noteUe]

@[simp ↓] theorem rmwErrors_offDram (s : State) (c p blk errs : Nat) : (s.rmwErrors c p blk errs).offDram = s.offDram := by
  simp [State.rmwErrors]

@[simp ↓] theorem rankFault_offDram (s : State) (c p : Nat) : (s.rankFault c p).offDram = s.offDram := by
  unfold State.rankFault
  repeat' split
  all_goals simp

/-! ### Beats and queues -/

@[simp ↓] theorem refreshPair_offDram (s : State) (c rank pair : Nat) : (s.refreshPair c rank pair).offDram = s.offDram := by
  simp [State.refreshPair, State.settle]

@[simp ↓] theorem activate_offDram (s : State) (c p bank row : Nat) : (s.activate c p bank row).offDram = s.offDram := by
  simp [State.activate]

@[simp ↓] theorem touch_offDram (s : State) (c p r : Nat) : (s.touch c p r).offDram = s.offDram := by simp [State.touch]

@[simp ↓] theorem linkRetry_offDram (s : State) (c fails : Nat) : (s.linkRetry c fails).offDram = s.offDram := by
  simp [State.linkRetry]

@[simp ↓] theorem beatTo_offDram (s : State) (c p r k : Nat) : (s.beatTo c p r k).2.offDram = s.offDram := by
  simp [State.beatTo]

@[simp ↓] theorem beatsTo_offDram (s : State) (c r k : Nat) (l : List Nat) : (s.beatsTo c r k l).1.offDram = s.offDram := by
  induction l generalizing s with
  | nil => rfl
  | cons p l ih => simp [State.beatsTo, ih]

@[simp ↓] theorem drainEntry_offDram (s : State) (c : Nat) (e : WqEntry) : (s.drainEntry c e).offDram = s.offDram := by
  unfold State.drainEntry
  dsimp only
  split
  · rfl
  · rw [foldl_offDram _ _ _ fun s t => rankFault_offDram s c t]
    simp

@[simp ↓] theorem drainTo_offDram (s : State) (c ch n : Nat) : (s.drainTo c ch n).offDram = s.offDram := by
  simp [State.drainTo]

@[simp ↓] theorem enqueueWrite_offDram (s : State) (e : WqEntry) : (s.enqueueWrite e).offDram = s.offDram := by
  simp [State.enqueueWrite]

/-! ### Requests of units -/

@[simp ↓] theorem readStored_offDram (s : State) (blk : Nat) : (s.readStored blk).offDram = s.offDram := by
  simp [State.readStored]

@[simp ↓] theorem readEffect_offDram (s : State) (port blk : Nat) : (s.readEffect port blk).offDram = s.offDram := by
  unfold State.readEffect
  dsimp only
  split
  · rfl
  · split
    · split <;> simp
    · simp

/-- A unit's read leaves alone all that no beat touches. -/
@[simp ↓] theorem readBeats_offDram (s : State) (u : Inst) (a n : Nat) : (s.readBeats u a n).offDram = s.offDram :=
  foldl_offDram _ _ _ fun b blk => readEffect_offDram b (portOf u) blk

@[simp ↓] theorem writeBlock_offDram (s : State) (u : Inst) (e : WqEntry) : (s.writeBlock u e).offDram = s.offDram := by
  simp [State.writeBlock]

/-- So does a unit's write. -/
@[simp ↓] theorem writeMem_offDram (s : State) (u : Inst) (a : Nat) (data : Bytes) (mark : Bool) :
    (s.writeMem u a data mark).offDram = s.offDram := by
  unfold State.writeMem State.writeBytes
  exact foldl_offDram _ _ _ fun b _ => writeBlock_offDram b u _

end Sys2Proof.Machine

/-!
SUPPORT. Fields of words: what a field reads after a field was written.
-/
namespace Sys2Proof.Machine

theorem testBit_fld (w : Word) (hi lo i : Nat) :
    (fld w hi lo).testBit i = (decide (i < hi + 1 - lo) && w.getLsbD (lo + i)) := by
  simp [fld, bitsOf, Nat.testBit_mod_two_pow, Nat.testBit_div_two_pow, BitVec.getLsbD, Nat.add_comm]

/-- Within the field a word takes the value's bits, outside it keeps its own. -/
theorem getLsbD_putBits (w : Word) {hi : Nat} (lo v j : Nat) (hhi : hi < 32) :
    (putBits w hi lo v).getLsbD j = if lo ≤ j ∧ j ≤ hi then v.testBit (j - lo) else w.getLsbD j := by
  have hmask : (BitVec.ofNat 32 ((2 ^ (hi + 1 - lo) - 1) * 2 ^ lo)).getLsbD j = decide (lo ≤ j ∧ j ≤ hi) := by
    rw [BitVec.getLsbD_ofNat, Nat.testBit_mul_two_pow, Nat.testBit_two_pow_sub_one, Bool.eq_iff_iff]
    simp only [Bool.and_eq_true, decide_eq_true_eq]
    omega
  simp only [putBits, BitVec.getLsbD_or, BitVec.getLsbD_and, BitVec.getLsbD_not, hmask]
  rw [BitVec.getLsbD_ofNat, Nat.testBit_mul_two_pow]
  by_cases hj : lo ≤ j ∧ j ≤ hi
  · simp [hj, show j < 32 by omega]
  · by_cases h32 : j < 32
    · simp [hj, h32]
    · simp [hj, BitVec.getLsbD_of_ge w j (by omega)]

/-- A field reads the value written to it. -/
theorem fld_putBits_same (w : Word) {hi lo v : Nat} (hhi : hi < 32) (hv : v < 2 ^ (hi + 1 - lo)) :
    fld (putBits w hi lo v) hi lo = v := by
  refine Nat.eq_of_testBit_eq fun i => ?_
  rw [testBit_fld, getLsbD_putBits w lo v _ hhi]
  by_cases hi' : i < hi + 1 - lo
  · simp [hi', show lo + i ≤ hi by omega]
  · have : v.testBit i = false := Nat.testBit_lt_two_pow (Nat.lt_of_lt_of_le hv (Nat.pow_le_pow_right (by decide) (by omega)))
    simp [hi', this]

/-- A field apart from the one written reads as before. -/
theorem fld_putBits_apart (w : Word) {hi lo v hi' lo' : Nat} (hhi : hi < 32) (h : hi' < lo ∨ hi < lo') :
    fld (putBits w hi lo v) hi' lo' = fld w hi' lo' := by
  refine Nat.eq_of_testBit_eq fun i => ?_
  rw [testBit_fld, testBit_fld, getLsbD_putBits w lo v _ hhi]
  by_cases hi' : i < hi' + 1 - lo'
  · rw [if_neg (by omega)]
  · simp [hi']

variable {s : State}

/-- The two registers of a 64-bit value read its words. -/
theorem reg_setReg64 (h : Regs.wf s = true) (lo hi n b : Nat) :
    (s.setReg64 lo hi n).reg b =
      if b = hi then BitVec.ofNat 32 (n / 2 ^ 32) else if b = lo then BitVec.ofNat 32 n else s.reg b := by
  rw [State.setReg64, reg_setNum (Regs.wf_setNum h lo n), reg_setNum h]

theorem rfld_setFld_same (h : Regs.wf s = true) (a : Nat) {hi lo v : Nat} (hhi : hi < 32) (hv : v < 2 ^ (hi + 1 - lo)) :
    (s.setFld a hi lo v).rfld a hi lo = v := by
  rw [State.rfld, reg_setFld h, if_pos rfl, fld_putBits_same _ hhi hv]

theorem rfld_setFld_apart (h : Regs.wf s = true) (a : Nat) {hi lo v hi' lo' : Nat} (hhi : hi < 32)
    (ha : hi' < lo ∨ hi < lo') : (s.setFld a hi lo v).rfld a hi' lo' = s.rfld a hi' lo' := by
  rw [State.rfld, reg_setFld h, if_pos rfl, fld_putBits_apart _ hhi ha, State.rfld]

end Sys2Proof.Machine

/-!
SUPPORT. The cell pool: what its operations leave alone, its layout, and the owners of its buffers and cells.
-/
namespace Sys2Proof.Machine

variable {s : State}

/-! ### Canonical form -/

theorem State.wf_regs (h : s.wf = true) : Regs.wf s = true := by
  simp only [State.wf, Bool.and_eq_true] at h
  exact h.1.1.1

theorem State.wf_cellMaps (h : s.wf = true) :
    SMap.wf (fun _ => false) s.cpm.alloc = true ∧ SMap.wf (fun _ => 0) s.cpm.bufs = true := by
  simp only [State.wf, State.blocksWf, Bool.and_eq_true, and_assoc] at h
  obtain ⟨-, -, -, -, halloc, hbufs, -⟩ := h
  exact ⟨halloc, hbufs⟩

/-! ### What the operations leave of CPM -/

@[simp] theorem raise_cpm (s : State) (u : Inst) (bit : Nat) (win : EvWin) (inj : Bool) :
    (s.raise u bit win inj).cpm = s.cpm := cpm_of_offDram (raise_offDram s u bit win inj)

@[simp] theorem noteFree_cpm (s : State) : s.noteFree.cpm = s.cpm := by
  refine cpm_of_offDram ?_
  simp [State.noteFree]

@[simp] theorem rejectReturn_cpm (s : State) (cause source unit addr : Nat) :
    (s.rejectReturn cause source unit addr).cpm = s.cpm := by
  refine cpm_of_offDram ?_
  simp [State.rejectReturn, State.setBit, State.setReg64]

@[simp] theorem clearAlloc_cpm (s : State) (i : Nat) : (s.clearAlloc i).cpm = s.cpm :=
  cpm_of_offDram (writeMem_offDram s _ _ _ _)

/-! ### The layout (R117) -/

/-- One past the last cell of class k. -/
def State.classEnd (s : State) (k : Nat) : Nat := s.classStart k + s.classCount k * classCells k

theorem classCells_pos (k : Nat) : 0 < classCells k := Nat.mul_pos (by decide) (Nat.pow_pos (by decide))

/-- A class starts where the next larger one ends. -/
theorem classStart_eq_classEnd_succ (s : State) {k : Nat} (hk : k < 3) : s.classStart k = s.classEnd (k + 1) := by
  have e : 3 - k = 3 - (k + 1) + 1 := by omega
  have e' : 3 - (3 - (k + 1)) = k + 1 := by omega
  simp only [State.classEnd, State.classStart, e, List.range_succ, List.foldl_append, List.foldl_cons, List.foldl_nil, e']

/-- A larger class ends at or before the start of each smaller one. -/
theorem classEnd_le_classStart (s : State) {j k : Nat} (hj : j < k) (hk : k < 4) : s.classEnd k ≤ s.classStart j := by
  induction k with
  | zero => exact absurd hj (Nat.not_lt_zero j)
  | succ k ih =>
    have hstart : s.classEnd (k + 1) = s.classStart k := (classStart_eq_classEnd_succ s (by omega)).symm
    rcases Nat.lt_or_eq_of_le (Nat.le_of_lt_succ hj) with hjk | rfl
    · calc s.classEnd (k + 1) = s.classStart k := hstart
        _ ≤ s.classEnd k := Nat.le_add_right _ _
        _ ≤ s.classStart j := ih hjk (by omega)
    · exact Nat.le_of_eq hstart

/-- Every class ends at or before the chain cells. -/
theorem classEnd_le_chainStart (s : State) {k : Nat} (hk : k < 4) : s.classEnd k ≤ s.chainStart := by
  rcases Nat.eq_zero_or_pos k with rfl | hpos
  · exact Nat.le_refl _
  · exact Nat.le_trans (classEnd_le_classStart s hpos hk) (Nat.le_add_right _ _)

/-- A cell of a class is found in that class and no other. -/
theorem classOf_eq_some {k i : Nat} (hk : k < 4) (h1 : s.classStart k ≤ i) (h2 : i < s.classEnd k) :
    s.classOf i = some k := by
  refine List.find?_range_eq_some.2 ⟨decide_eq_true ⟨h1, h2⟩, List.mem_range.2 hk, fun j hj => ?_⟩
  have := classEnd_le_classStart s hj hk
  have hout : ¬(s.classStart j ≤ i ∧ i < s.classEnd j) := by omega
  exact congrArg not (decide_eq_false hout)

/-- A cell past the classes is found in none. -/
theorem classOf_eq_none {i : Nat} (h : s.chainStart ≤ i) : s.classOf i = none := by
  refine List.find?_range_eq_none.2 fun k hk => ?_
  have := classEnd_le_chainStart s hk
  have hout : ¬(s.classStart k ≤ i ∧ i < s.classEnd k) := by omega
  exact congrArg not (decide_eq_false hout)

/-! ### Class buffers -/

/-- A buffer of class k that nobody owns. -/
def State.bufFree (s : State) (k i : Nat) : Prop := i < s.classCount k ∧ s.bufOwner k i = 0

/-- The search of ALLOC_DONE finds the lowest free buffer. -/
theorem findFree_eq_some {k i : Nat} :
    (List.range (s.classCount k)).find? (fun i => s.bufOwner k i == 0) = some i ↔
      s.bufFree k i ∧ ∀ j < i, ¬s.bufFree k j := by
  rw [List.find?_range_eq_some]
  simp only [State.bufFree, beq_iff_eq, List.mem_range, Bool.not_eq_true', beq_eq_false_iff_ne, not_and]
  constructor
  · exact fun ⟨h0, hi, h⟩ => ⟨⟨hi, h0⟩, fun j hj _ => h j hj⟩
  · exact fun ⟨⟨hi, h0⟩, h⟩ => ⟨h0, hi, fun j hj => h j hj (Nat.lt_trans hj hi)⟩

/-- It finds none when every buffer is owned. -/
theorem findFree_eq_none {k : Nat} :
    (List.range (s.classCount k)).find? (fun i => s.bufOwner k i == 0) = none ↔ ∀ i, ¬s.bufFree k i := by
  simp [State.bufFree]

/-- Two lowest free buffers are one. -/
theorem lowestFree_unique {k i j : Nat} (hi : s.bufFree k i) (hi' : ∀ m < i, ¬s.bufFree k m) (hj : s.bufFree k j)
    (hj' : ∀ m < j, ¬s.bufFree k m) : i = j := by
  rcases Nat.lt_trichotomy i j with h | h | h
  · exact absurd hi (hj' i h)
  · exact h
  · exact absurd hj (hi' j h)

/-! ### Cells -/

/-- Marking cells free leaves the marks of all others. -/
theorem get_markFree (cells : List Nat) {m : SMap Bool} (hm : SMap.wf (fun _ => false) m = true) (i : Nat) :
    (cells.foldl (fun m c => m.set (fun _ => false) c false) m).get (fun _ => false) i =
      (m.get (fun _ => false) i && !cells.contains i) := by
  induction cells generalizing m with
  | nil => simp
  | cons c cells ih =>
    rw [List.foldl_cons, ih (SMap.wf_set hm c false), SMap.get_set _ (SMap.rising_of_wf hm)]
    by_cases h : i = c <;> simp [h]

/-- CHAIN_RETURN_DONE marks a chain's cells free, in the bitmap and in their headers. -/
def State.markCellsFree (s : State) (cells : List Nat) : State :=
  cells.foldl (fun s i => (s.setAlloc i false).clearAlloc i) s

/-- Of CPM it changes the bitmap alone. -/
theorem markCellsFree_cpm (s : State) (cells : List Nat) : (s.markCellsFree cells).cpm =
    { s.cpm with alloc := cells.foldl (fun m c => m.set (fun _ => false) c false) s.cpm.alloc } := by
  induction cells generalizing s with
  | nil => rfl
  | cons c cells ih =>
    have := ih ((s.setAlloc c false).clearAlloc c)
    rwa [clearAlloc_cpm] at this

/-! ### Rejected returns (R129) -/

/-- An event of CPM that changes no run state writes its page's error registers and no register past them. -/
theorem reg_raise_cpm (h : Regs.wf s = true) {bit : Nat} (hb : fatalBit U.cpm bit = false) {b : Nat} (hlo : 0xE0040 ≤ b) :
    (s.raise U.cpm bit).reg b = s.reg b := by
  have e1 : b ≠ pgErrCnt U.cpm := Nat.ne_of_gt (show 0xE001C < b by omega)
  have e2 : b ≠ pgErr U.cpm := Nat.ne_of_gt (show 0xE0010 < b by omega)
  have e3 : b ≠ pgFirst U.cpm := Nat.ne_of_gt (show 0xE0020 < b by omega)
  rw [raise_eq_event hb, reg_event h (by decide), if_neg e1, if_neg e2, if_neg fun e => e3 e.1]

theorem wf_raise_cpm (h : Regs.wf s = true) {bit : Nat} (hb : fatalBit U.cpm bit = false) :
    Regs.wf (s.raise U.cpm bit) = true := by
  rw [raise_eq_event hb]
  exact wf_event h (by decide) _ _ _

end Sys2Proof.Machine

/-!
SUPPORT. The commands of the cell pool, each with one equation for each way it ends; and O32.
-/
namespace Sys2Proof.Machine

variable {s : State}

/-! ### ALLOC_REQ (R125, R460) -/

theorem execAllocReq_stopped (hb : s.bus) (hr : s.running U.cpm = false) (v : Word) :
    exec (.allocReq v) s = .next (s.raise U.cpm 4) := by
  refine (onBus_on hb _).trans ?_
  simp [hr, State.protocol]

theorem execAllocReq_busy (hb : s.bus) (hr : s.running U.cpm = true) (hst : s.rfld Reg.CPM.ALLOC_STATUS 2 0 = 1) (v : Word) :
    exec (.allocReq v) s = .next ((s.setBit Reg.CPM.ALLOC_STATUS 6).raise U.cpm 4) := by
  refine (onBus_on hb _).trans ?_
  simp [hr, hst, State.protocol]

theorem execAllocReq_starts (hb : s.bus) (hr : s.running U.cpm = true) (hst : s.rfld Reg.CPM.ALLOC_STATUS 2 0 ≠ 1) (v : Word) :
    exec (.allocReq v) s =
      .next (({ s with cpm := { s.cpm with req := some (fld v 20 0) } } : State).setFld Reg.CPM.ALLOC_STATUS 2 0 1) := by
  refine (onBus_on hb _).trans ?_
  simp [hr, hst]

/-! ### ALLOC_DONE (R122, R125) -/

/-- The request ends with a status and nothing is given out. -/
def State.endReq (s : State) (status : Nat) : State :=
  ({ s with cpm := { s.cpm with req := none } } : State).setFld Reg.CPM.ALLOC_STATUS 2 0 status

/-- The request ends with buffer i of class k. -/
def State.grantBuf (s : State) (k i : Nat) : State :=
  ((((({ s with cpm := { s.cpm with req := none } } : State).setBuf k i (s.rfld Reg.CPM.ALLOC_TAG 11 0 + 1)).setNum
    (Reg.CPM.CLASS_FREE k) (s.rfld (Reg.CPM.CLASS_FREE k) 12 0 - 1)).setReg64 Reg.CPM.ALLOC_ADDR_LO Reg.CPM.ALLOC_ADDR_HI
    (s.cellAddr (s.classStart k + i * classCells k))).setFld Reg.CPM.ALLOC_STATUS 5 4 k).setFld Reg.CPM.ALLOC_STATUS 2 0 2

theorem execAllocDone_zero (hon : s.on) (hq : s.cpm.req = some 0) : exec .allocDone s = .next (s.endReq 5) := by
  change execAllocDone s = _
  rw [execAllocDone, onCore_on hon]
  simp only [hq, if_true]
  rfl

theorem execAllocDone_large {n : Nat} (hon : s.on) (hq : s.cpm.req = some n) (hn : 1048576 < n) :
    exec .allocDone s = .next (s.endReq 4) := by
  change execAllocDone s = _
  rw [execAllocDone, onCore_on hon]
  simp only [hq, if_neg (show n ≠ 0 by omega), if_pos hn]
  rfl

theorem execAllocDone_empty {n : Nat} (hon : s.on) (hq : s.cpm.req = some n) (h0 : 0 < n) (hn : n ≤ 1048576)
    (hf : ∀ i, ¬s.bufFree (classFor n) i) : exec .allocDone s = .next (s.endReq 3) := by
  change execAllocDone s = _
  rw [execAllocDone, onCore_on hon]
  simp only [hq, if_neg (Nat.ne_of_gt h0), if_neg (Nat.not_lt.2 hn)]
  split
  · rfl
  · rename_i j hj
    exact nomatch (findFree_eq_none.2 hf).symm.trans hj

theorem execAllocDone_grants {n i : Nat} (hon : s.on) (hq : s.cpm.req = some n) (h0 : 0 < n) (hn : n ≤ 1048576)
    (hi : s.bufFree (classFor n) i) (hlow : ∀ j < i, ¬s.bufFree (classFor n) j) :
    exec .allocDone s = .next (s.grantBuf (classFor n) i) := by
  change execAllocDone s = _
  rw [execAllocDone, onCore_on hon]
  simp only [hq, if_neg (Nat.ne_of_gt h0), if_neg (Nat.not_lt.2 hn)]
  split
  · rename_i hj
    exact nomatch (findFree_eq_some.2 ⟨hi, hlow⟩).symm.trans hj
  · rename_i j hj
    obtain rfl : i = j := Option.some.inj ((findFree_eq_some.2 ⟨hi, hlow⟩).symm.trans hj)
    rfl

/-- ALLOC_STATUS then shows the status. -/
theorem endReq_status (h : Regs.wf s = true) {status : Nat} (hv : status < 8) :
    (s.endReq status).rfld Reg.CPM.ALLOC_STATUS 2 0 = status := by
  refine rfld_setFld_same ?_ _ (by decide) hv
  exact h

theorem classFor_lt (n : Nat) : classFor n < 4 := by
  unfold classFor
  repeat' split
  all_goals decide

/-- The buffer granted is owned under ALLOC_TAG, and every buffer kept under another key has the owner it had. -/
theorem bufOwner_grantBuf (h : s.wf = true) (k i k' j : Nat) :
    (s.grantBuf k i).bufOwner k' j =
      if k' * 4096 + j = k * 4096 + i then s.rfld Reg.CPM.ALLOC_TAG 11 0 + 1 else s.bufOwner k' j :=
  SMap.get_set (fun _ => 0) (SMap.rising_of_wf (State.wf_cellMaps h).2) (k * 4096 + i) (k' * 4096 + j)
    (s.rfld Reg.CPM.ALLOC_TAG 11 0 + 1)

/-- What the registers hold after a grant. -/
theorem reg_grantBuf (h : Regs.wf s = true) {k : Nat} (hk : k < 4) (i b : Nat) :
    (s.grantBuf k i).reg b =
      if b = Reg.CPM.ALLOC_STATUS then putBits (putBits (s.reg b) 5 4 k) 2 0 2
      else if b = Reg.CPM.ALLOC_ADDR_HI then BitVec.ofNat 32 (s.cellAddr (s.classStart k + i * classCells k) / 2 ^ 32)
      else if b = Reg.CPM.ALLOC_ADDR_LO then BitVec.ofNat 32 (s.cellAddr (s.classStart k + i * classCells k))
      else if b = Reg.CPM.CLASS_FREE k then BitVec.ofNat 32 (s.rfld (Reg.CPM.CLASS_FREE k) 12 0 - 1)
      else s.reg b := by
  have h0 : Regs.wf (({ s with cpm := { s.cpm with req := none } } : State).setBuf k i (s.rfld Reg.CPM.ALLOC_TAG 11 0 + 1)) =
    true := h
  have h1 := Regs.wf_setNum h0 (Reg.CPM.CLASS_FREE k) (s.rfld (Reg.CPM.CLASS_FREE k) 12 0 - 1)
  have h2 := Regs.wf_setReg64 h1 Reg.CPM.ALLOC_ADDR_LO Reg.CPM.ALLOC_ADDR_HI (s.cellAddr (s.classStart k + i * classCells k))
  have h3 := Regs.wf_setFld h2 Reg.CPM.ALLOC_STATUS 5 4 k
  have hfree : Reg.CPM.ALLOC_STATUS ≠ Reg.CPM.CLASS_FREE k :=
    show 0xE0098 ≠ 0xE0000 + 4 * k + 128 by omega
  rw [State.grantBuf, reg_setFld h3, reg_setFld h2, reg_setFld h2, if_pos rfl]
  by_cases hb : b = Reg.CPM.ALLOC_STATUS
  · subst hb
    rw [if_pos rfl, if_pos rfl, reg_setReg64 h1, if_neg (by decide), if_neg (by decide), reg_setNum h0, if_neg hfree]
    rfl
  · rw [if_neg hb, if_neg hb, if_neg hb, reg_setReg64 h1, reg_setNum h0]
    rfl

/-- ALLOC_STATUS shows a grant and its class. -/
theorem grantBuf_status (h : Regs.wf s = true) {k : Nat} (hk : k < 4) (i : Nat) :
    (s.grantBuf k i).rfld Reg.CPM.ALLOC_STATUS 2 0 = 2 ∧ (s.grantBuf k i).rfld Reg.CPM.ALLOC_STATUS 5 4 = k := by
  simp only [State.rfld, reg_grantBuf h hk, if_true]
  exact ⟨fld_putBits_same _ (by decide) (by decide),
    (fld_putBits_apart _ (by decide) (.inr (by decide))).trans (fld_putBits_same _ (by decide) hk)⟩

/-- CLASS_FREE counts one buffer less. -/
theorem reg_classFree_grantBuf (h : Regs.wf s = true) {k : Nat} (hk : k < 4) (i : Nat) :
    (s.grantBuf k i).reg (Reg.CPM.CLASS_FREE k) = BitVec.ofNat 32 (s.rfld (Reg.CPM.CLASS_FREE k) 12 0 - 1) := by
  have hlt : Reg.CPM.CLASS_FREE k < Reg.CPM.ALLOC_STATUS := show 0xE0000 + 4 * k + 128 < 0xE0098 by omega
  rw [reg_grantBuf h hk, if_neg (Nat.ne_of_lt hlt), if_neg (Nat.ne_of_lt (Nat.lt_trans hlt (by decide))),
    if_neg (Nat.ne_of_lt (Nat.lt_trans hlt (by decide))), if_pos rfl]

/-- ALLOC_ADDR shows the buffer's first byte. -/
theorem reg_allocAddr_grantBuf (h : Regs.wf s = true) {k : Nat} (hk : k < 4) (i : Nat) :
    (s.grantBuf k i).reg Reg.CPM.ALLOC_ADDR_LO = BitVec.ofNat 32 (s.cellAddr (s.classStart k + i * classCells k)) := by
  rw [reg_grantBuf h hk, if_neg (by decide), if_neg (by decide), if_pos rfl]

/-! ### FREE_ADDR_LO (R127, R129) -/

theorem cellAddr_sub_poolBase (s : State) (c : Nat) : s.cellAddr c - s.poolBase = 256 * c := Nat.add_sub_cancel_left _ _

/-- The first byte of an owned buffer gives the buffer back. -/
theorem execFreeAddrLo_frees (hb : s.bus) (hr : s.running U.cpm = true) {v : Word} {k i : Nat} (hk : k < 4)
    (hi : i < s.classCount k) (ho : s.bufOwner k i ≠ 0)
    (ha : v.toNat + 2 ^ 32 * fld s.cpm.freeHi 4 0 = s.cellAddr (s.classStart k + i * classCells k)) :
    exec (.freeAddrLo v) s =
      .next ((s.setBuf k i 0).setNum (Reg.CPM.CLASS_FREE k) (s.rfld (Reg.CPM.CLASS_FREE k) 12 0 + 1)) := by
  have hcell : s.classStart k + i * classCells k < s.classEnd k :=
    Nat.add_lt_add_left (Nat.mul_lt_mul_of_pos_right hi (classCells_pos k)) _
  have hcls : s.classOf (s.classStart k + i * classCells k) = some k := classOf_eq_some hk (Nat.le_add_right _ _) hcell
  have hoff : 256 * (s.classStart k + i * classCells k) - 256 * s.classStart k = 256 * classCells k * i := by
    rw [← Nat.mul_sub, Nat.add_sub_cancel_left, Nat.mul_comm i, Nat.mul_assoc]
  have hsize : 0 < 256 * classCells k := Nat.mul_pos (by decide) (classCells_pos k)
  have hbase : s.poolBase ≤ s.cellAddr (s.classStart k + i * classCells k) := Nat.le_add_right _ _
  change execFreeAddrLo v s = _
  rw [execFreeAddrLo, onBus_on hb]
  simp only [ha]
  simp [hr, hbase, cellAddr_sub_poolBase, hcls, hoff, Nat.mul_div_cancel_left _ hsize, ho]

/-- An address outside the classes is rejected with cause 1. -/
theorem execFreeAddrLo_outside (hb : s.bus) (hr : s.running U.cpm = true) {v : Word} {a : Nat}
    (ha : v.toNat + 2 ^ 32 * fld s.cpm.freeHi 4 0 = a) (hout : a < s.poolBase ∨ s.cellAddr s.chainStart ≤ a) :
    exec (.freeAddrLo v) s = .next (s.rejectReturn 1 0 0 a) := by
  have hcls : (if s.poolBase ≤ a then s.classOf ((a - s.poolBase) / 256) else none) = none := by
    rcases hout with h | h
    · exact if_neg (Nat.not_le.2 h)
    · rw [if_pos (Nat.le_trans (Nat.le_add_right _ _) h)]
      refine classOf_eq_none ((Nat.le_div_iff_mul_le (by decide)).2 ?_)
      rw [State.cellAddr] at h
      omega
  change execFreeAddrLo v s = _
  rw [execFreeAddrLo, onBus_on hb]
  simp only [ha, hcls]
  simp [hr]

/-! ### CHAIN_RETURN (R127, R128) -/

/-- CPM reads the headers of the allocated cells that it walked. -/
def State.readHeaders (s : State) (cells : List Nat) : State :=
  cells.foldl (fun s i => s.when (s.cellAlloc i) fun s => s.readBeats U.cpm (s.cellAddr i) 8) s

theorem readHeaders_cpm (s : State) (cells : List Nat) : (s.readHeaders cells).cpm = s.cpm := by
  refine cpm_of_offDram (foldl_offDram _ _ _ fun b i => ?_)
  simp

/-- The outcome of the walk of a chain: the first check that failed, and the cells that its end frees or loses. -/
def State.walkResult (s : State) (r : ChainRet) : ChainRet × Nat × List Nat :=
  let w := s.walk r.stream 131072 r.first []
  (r, w.1, if w.1 = 0 then w.2 else w.2.filter s.cellAlloc)

/-- A running CPM takes the oldest chain asked of it, walks it and notes the outcome. -/
theorem execChainReturn_walks {r : ChainRet} {rest : List ChainRet} (hon : s.on) (hq : s.cpm.asked = r :: rest)
    (hw : s.cpm.walking = []) (hr : s.running U.cpm = true) :
    let t : State := { s with cpm := { s.cpm with asked := rest } }
    let v := t.readHeaders (t.walk r.stream 131072 r.first []).2
    exec .chainReturn s = .next { v with cpm := { v.cpm with walking := [t.walkResult r] } } := by
  change execChainReturn s = _
  rw [execChainReturn, onCore_on hon]
  split
  · rename_i r' rest' hq' hw'
    obtain ⟨rfl, rfl⟩ := List.cons.inj (hq.symm.trans hq')
    exact congrArg Host.Outcome.next (if_pos hr)
  · rename_i hno
    exact absurd hw (hno r rest hq)

/-! ### CHAIN_RETURN_DONE (R120, R128) -/

/-- A chain is freed whole, at the tail of the free list. -/
def State.freeChain (s : State) (cells : List Nat) : State :=
  let v := s.markCellsFree cells
  ({ v with cpm := { v.cpm with free := v.cpm.free ++ cells } } : State).noteFree

/-- A chain is rejected, and the cells noted are LEAKED. -/
def State.loseChain (s : State) (r : ChainRet) (cause : Nat) (cells : List Nat) : State :=
  let v := s.incS Reg.CPM.LEAKED cells.length
  v.rejectReturn cause r.source r.unit (v.cellAddr r.first)

/-- A running CPM frees a chain that passed its checks, and loses one that failed. -/
theorem execChainReturnDone_ends {r : ChainRet} {cause : Nat} {cells : List Nat} (hon : s.on)
    (hw : s.cpm.walking = [(r, cause, cells)]) (hr : s.running U.cpm = true) :
    let t : State := { s with cpm := { s.cpm with walking := [] } }
    exec .chainReturnDone s = .next (if cause = 0 then t.freeChain cells else t.loseChain r cause cells) := by
  have hrun : ¬(!s.running U.cpm) = true := by simp [hr]
  change execChainReturnDone s = _
  rw [execChainReturnDone, onCore_on hon]
  split
  · rename_i hw'
    exact nomatch hw.symm.trans hw'
  · rename_i r' cause' cells' rest' hw'
    obtain ⟨⟨rfl, rfl, rfl⟩, rfl⟩ : (r = r' ∧ cause = cause' ∧ cells = cells') ∧ [] = rest' := by
      simpa using hw.symm.trans hw'
    exact congrArg Host.Outcome.next (if_neg hrun)

/-- Freeing a chain changes the bitmap and the free list of CPM. -/
theorem freeChain_cpm (s : State) (cells : List Nat) : (s.freeChain cells).cpm =
    { s.cpm with
      alloc := cells.foldl (fun m c => m.set (fun _ => false) c false) s.cpm.alloc
      free := s.cpm.free ++ cells } := by
  simp [State.freeChain, markCellsFree_cpm]

/-- The cells of a freed chain are free, and every other cell is as before. -/
theorem cellAlloc_freeChain (h : SMap.wf (fun _ => false) s.cpm.alloc = true) (cells : List Nat) (i : Nat) :
    (s.freeChain cells).cellAlloc i = (s.cellAlloc i && !cells.contains i) := by
  rw [State.cellAlloc, freeChain_cpm]
  exact get_markFree cells h i

/-- Losing a chain leaves CPM's maps and lists alone. -/
theorem loseChain_cpm (s : State) (r : ChainRet) (cause : Nat) (cells : List Nat) :
    (s.loseChain r cause cells).cpm = s.cpm := by
  simp [State.loseChain, State.incS]

/-- A rejected return adds 1 to REJECT_CNT and leaves the registers of CPM below FREE_REJECT otherwise alone. -/
theorem reg_rejectReturn (h : Regs.wf s = true) (cause source unit addr : Nat) {b : Nat} (hlo : 0xE0040 ≤ b)
    (hhi : b < Reg.CPM.FREE_REJECT) :
    (s.rejectReturn cause source unit addr).reg b =
      if b = Reg.CPM.REJECT_CNT then addSat (s.reg b) 1 else s.reg b := by
  have hw : Regs.wf ((s.raise U.cpm 10).incS Reg.CPM.REJECT_CNT) = true := Regs.wf_incS (wf_raise_cpm h rfl) _ _
  have hreg : ((s.raise U.cpm 10).incS Reg.CPM.REJECT_CNT).reg b =
      if b = Reg.CPM.REJECT_CNT then addSat (s.reg b) 1 else s.reg b := by
    rw [reg_incS (wf_raise_cpm h rfl), reg_raise_cpm h rfl hlo, reg_raise_cpm h rfl (by decide)]
    split
    · next hb => rw [hb]
    · rfl
  have hrej : b ≠ Reg.CPM.FREE_REJECT := Nat.ne_of_lt hhi
  have hal : b ≠ Reg.CPM.REJECT_ADDR_LO := Nat.ne_of_lt (Nat.lt_trans hhi (by decide))
  have hah : b ≠ Reg.CPM.REJECT_ADDR_HI := Nat.ne_of_lt (Nat.lt_trans hhi (by decide))
  rw [← hreg]
  unfold State.rejectReturn
  generalize (s.raise U.cpm 10).incS Reg.CPM.REJECT_CNT = v at hw ⊢
  have hpoison : Regs.wf (if cause = 6 then v.raise U.cpm 11 else v) = true ∧
      (if cause = 6 then v.raise U.cpm 11 else v).reg b = v.reg b := by
    split
    · exact ⟨wf_raise_cpm hw rfl, reg_raise_cpm hw rfl hlo⟩
    · exact ⟨hw, rfl⟩
  dsimp only
  generalize (if cause = 6 then v.raise U.cpm 11 else v) = x at hpoison ⊢
  obtain ⟨hx, hxb⟩ := hpoison
  rw [← hxb]
  split
  · rw [reg_setBit hx, if_neg hrej]
  · rw [reg_setReg64 (Regs.wf_setNum hx _ _), if_neg hah, if_neg hal, reg_setNum hx, if_neg hrej]

/-- Losing a chain adds 1 to REJECT_CNT and its cells to LEAKED. -/
theorem loseChain_counts (h : Regs.wf s = true) (r : ChainRet) (cause : Nat) (cells : List Nat) :
    (s.loseChain r cause cells).reg Reg.CPM.REJECT_CNT = addSat (s.reg Reg.CPM.REJECT_CNT) 1 ∧
      (s.loseChain r cause cells).reg Reg.CPM.LEAKED = addSat (s.reg Reg.CPM.LEAKED) cells.length := by
  have hw := Regs.wf_incS h Reg.CPM.LEAKED cells.length
  unfold State.loseChain
  dsimp only
  rw [reg_rejectReturn hw _ _ _ _ (by decide) (by decide), if_pos rfl, reg_incS h, if_neg (by decide),
    reg_rejectReturn hw _ _ _ _ (by decide) (by decide), if_neg (by decide), reg_incS h, if_pos rfl]
  exact ⟨rfl, rfl⟩

/-! ### The family -/

/-- Settles O32: each command by its equation for the case at hand, ALLOC_DONE by the size and the lowest free buffer. -/
theorem cellPoolGrantsAndReturns : Obligations.CellPoolGrantsAndReturns := by
  unfold Obligations.CellPoolGrantsAndReturns
  refine ⟨fun v s hb => ⟨fun hr hst => execAllocReq_starts hb hr hst v, fun hr hst => execAllocReq_busy hb hr hst v,
      fun hr => execAllocReq_stopped hb hr v⟩, fun n s hwf hon hq => ?_,
    fun v s hb hr => ⟨fun k i hk hi ho ha => execFreeAddrLo_frees hb hr hk hi ho ha, execFreeAddrLo_outside hb hr rfl⟩,
    fun r rest s hon hq hw hr => ⟨_, execChainReturn_walks hon hq hw hr, ?_⟩,
    fun r cause cells s hwf hon hw hr => ⟨_, execChainReturnDone_ends hon hw hr, ?_⟩⟩
  · have hregs := State.wf_regs hwf
    have hk := classFor_lt n
    intro free
    by_cases h0 : n = 0
    · subst h0
      exact ⟨_, execAllocDone_zero hon hq, rfl, fun _ => ⟨endReq_status hregs (by decide), rfl⟩,
        fun h => absurd h (by decide), fun h => absurd h (by decide), fun h => absurd h (by decide)⟩
    by_cases hmax : 1048576 < n
    · exact ⟨_, execAllocDone_large hon hq hmax, rfl, fun h => absurd h h0, fun _ => ⟨endReq_status hregs (by decide), rfl⟩,
        fun _ h => absurd hmax (Nat.not_lt.2 h), fun _ h => absurd hmax (Nat.not_lt.2 h)⟩
    have hpos : 0 < n := Nat.pos_of_ne_zero h0
    have hle : n ≤ 1048576 := Nat.le_of_not_lt hmax
    cases hfind : (List.range (s.classCount (classFor n))).find? fun i => s.bufOwner (classFor n) i == 0 with
    | none =>
      have hnone := findFree_eq_none.1 hfind
      exact ⟨_, execAllocDone_empty hon hq hpos hle hnone, rfl, fun h => absurd h h0, fun h => absurd h hmax,
        fun _ _ _ => ⟨endReq_status hregs (by decide), rfl⟩, fun _ _ i hi => absurd hi (hnone i)⟩
    | some i =>
      obtain ⟨hi, hlow⟩ := findFree_eq_some.1 hfind
      refine ⟨_, execAllocDone_grants hon hq hpos hle hi hlow, rfl, fun h => absurd h h0, fun h => absurd h hmax,
        fun _ _ hno => absurd hi (hno i), fun _ _ i' hi' hlow' => ?_⟩
      obtain rfl : i' = i := lowestFree_unique hi' hlow' hi hlow
      obtain ⟨hst, hcls⟩ := grantBuf_status hregs hk i'
      refine ⟨hst, hcls, (bufOwner_grantBuf hwf _ _ _ _).trans (if_pos rfl), fun k' j _ hj hi4 hne => ?_,
        reg_classFree_grantBuf hregs hk i', reg_allocAddr_grantBuf hregs hk i'⟩
      rw [bufOwner_grantBuf hwf, if_neg (by omega)]
  · rw [readHeaders_cpm]
    rfl
  · let t : State := { s with cpm := { s.cpm with walking := [] } }
    have hregs : Regs.wf t = true := State.wf_regs hwf
    have hcells : SMap.wf (fun _ => false) t.cpm.alloc = true := (State.wf_cellMaps hwf).1
    by_cases hc : cause = 0
    · simp only [if_pos hc]
      exact ⟨by rw [freeChain_cpm], fun _ => ⟨by rw [freeChain_cpm], cellAlloc_freeChain hcells cells⟩, absurd hc⟩
    · simp only [if_neg hc]
      exact ⟨by rw [loseChain_cpm], fun h => absurd h hc, fun _ => ⟨by rw [loseChain_cpm], by rw [loseChain_cpm],
        loseChain_counts hregs r cause cells⟩⟩

end Sys2Proof.Machine

/-!
SUPPORT. The windows of the epoch and the decode cores' jobs: what they read after a write, and which operations leave them
and DRAM alone.
-/
namespace Sys2Proof.Machine

variable {s t : State}

/-! ### Windows and jobs as maps -/

/-- The windows of the epoch in progress are in canonical form. -/
def Wins.wf (s : State) : Bool := SMap.wf (fun _ => WinRun.absent) s.ple.wins

/-- The decode cores' jobs are in canonical form. -/
def Jobs.wf (s : State) : Bool := SMap.wf (fun _ => none) s.dec

theorem State.wf_wins (h : s.wf = true) : Wins.wf s = true := by
  simp only [State.wf, State.blocksWf, Bool.and_eq_true, and_assoc] at h
  obtain ⟨-, -, hwins, -⟩ := h
  exact hwins

theorem State.wf_jobs (h : s.wf = true) : Jobs.wf s = true := by
  simp only [State.wf, State.unitsWf, Bool.and_eq_true, and_assoc] at h
  obtain ⟨-, -, -, -, hjobs, -⟩ := h
  exact hjobs

theorem Wins.wf_setWin (h : Wins.wf s = true) (w : Nat) (x : WinRun) : Wins.wf (s.setWin w x) = true := SMap.wf_set h w x

theorem Jobs.wf_setDec (h : Jobs.wf s = true) (n : Nat) (x : Option DecJob) : Jobs.wf (s.setDec n x) = true :=
  SMap.wf_set h n x

theorem Wins.wf_congr (hp : t.ple = s.ple) (h : Wins.wf s = true) : Wins.wf t = true := by rwa [Wins.wf, hp]

theorem Jobs.wf_congr (hd : t.dec = s.dec) (h : Jobs.wf s = true) : Jobs.wf t = true := by rwa [Jobs.wf, hd]

theorem win_congr (hp : t.ple = s.ple) (w : Nat) : t.win w = s.win w := by rw [State.win, hp, State.win]

theorem decOf_congr (hd : t.dec = s.dec) (n : Nat) : t.decOf n = s.decOf n := by rw [State.decOf, hd, State.decOf]

/-- A window reads what was written to it. -/
theorem win_setWin (h : Wins.wf s = true) (w : Nat) (x : WinRun) : (s.setWin w x).win w = x :=
  (SMap.get_set _ (SMap.rising_of_wf h) w w x).trans (if_pos rfl)

/-- A core's job reads what was written to it, and every other core's as before. -/
theorem decOf_setDec (h : Jobs.wf s = true) (n m : Nat) (x : Option DecJob) :
    (s.setDec n x).decOf m = if m = n then x else s.decOf m := SMap.get_set _ (SMap.rising_of_wf h) n m x

/-- Flags join those of a window's run. -/
theorem win_flagWin (h : Wins.wf s = true) (w : Nat) (f : Word) :
    (s.flagWin w f).win w = { s.win w with flags := (s.win w).flags ||| f } := win_setWin h w _

/-- A window's picture reads what was written to it. -/
theorem win_setPic (h : Wins.wf s = true) (w : Nat) (q : PicRun) :
    (s.setPic w q).win w = { s.win w with pic := some q } := win_setWin h w _

theorem Wins.wf_setPic (h : Wins.wf s = true) (w : Nat) (q : PicRun) : Wins.wf (s.setPic w q) = true := Wins.wf_setWin h w _

theorem Wins.wf_flagWin (h : Wins.wf s = true) (w : Nat) (f : Word) : Wins.wf (s.flagWin w f) = true := Wins.wf_setWin h w _

/-! ### Error events (R17) -/

/-- An event that changes no run state writes the error registers of its page and no other register. -/
theorem reg_raise_other (h : Regs.wf s = true) {u : Inst} (hu : u.blk ≠ .erc) {bit : Nat} (hb : fatalBit u bit = false)
    (win : EvWin) (inj : Bool) {b : Nat} (hcnt : b ≠ pgErrCnt u) (herr : b ≠ pgErr u) (hfirst : b ≠ pgFirst u) :
    (s.raise u bit win inj).reg b = s.reg b := by
  rw [raise_eq_event hb, reg_event h hu, if_neg hcnt, if_neg herr, if_neg fun e => hfirst e.1]

theorem wf_raise (h : Regs.wf s = true) {u : Inst} (hu : u.blk ≠ .erc) {bit : Nat} (hb : fatalBit u bit = false)
    (win : EvWin) (inj : Bool) : Regs.wf (s.raise u bit win inj) = true := by
  rw [raise_eq_event hb]
  exact wf_event h hu _ _ _

/-! ### What leaves the windows and DRAM alone -/

theorem ple_of_offDram (h : t.offDram = s.offDram) : t.ple = s.ple := congrArg (fun x => x.1.2.2.2.2.1) h

theorem dec_of_offDram (h : t.offDram = s.offDram) : t.dec = s.dec := congrArg (fun x => x.1.2.2.2.2.2.2.2.1) h

@[simp] theorem raise_ple (s : State) (u : Inst) (bit : Nat) (win : EvWin) (inj : Bool) :
    (s.raise u bit win inj).ple = s.ple := ple_of_offDram (raise_offDram s u bit win inj)

@[simp] theorem raise_dec (s : State) (u : Inst) (bit : Nat) (win : EvWin) (inj : Bool) :
    (s.raise u bit win inj).dec = s.dec := dec_of_offDram (raise_offDram s u bit win inj)

/-- The windows with their plan, and DRAM. -/
def State.winMem (s : State) := (s.ple, s.dram)

theorem ple_of_winMem (h : t.winMem = s.winMem) : t.ple = s.ple := congrArg (fun x => x.1) h

theorem dram_of_winMem (h : t.winMem = s.winMem) : t.dram = s.dram := congrArg (fun x => x.2) h

theorem foldl_winMem {α : Type} (f : State → α → State) (l : List α) (s : State)
    (h : ∀ b a, (f b a).winMem = b.winMem) : (l.foldl f s).winMem = s.winMem :=
  foldl_keeps (P := fun b => b.winMem = s.winMem) f (fun b a hb => (h b a).trans hb) l rfl

theorem setNum_winMem (s : State) (a n : Nat) : (s.setNum a n).winMem = s.winMem := rfl

/-- Cores that abort leave their window as it stands. -/
theorem decAbort_winMem (s : State) (w : Nat) : (s.decAbort w).winMem = s.winMem :=
  foldl_winMem _ _ s fun _ _ => rfl

theorem returnAu_winMem (s : State) (e : PlanWindow) (r : WinRun) : (s.returnAu e r).winMem = s.winMem := by
  unfold State.returnAu
  repeat' split
  all_goals rfl

theorem releaseUnits_winMem (s : State) (e : PlanWindow) : (s.releaseUnits e).winMem = s.winMem := by
  refine foldl_winMem _ _ s fun v u => ?_
  unfold State.releaseUnit
  split
  · exact setNum_winMem v _ _
  · rfl

/-! ### PLI (R111) -/

/-- A PLI that leaves is a frame on a port, the context's counters, and PLI_SENT; else nothing happens. -/
theorem pli_cases (s : State) (n : Nat) :
    s.pli n = s ∨ ∃ d x, s.rtcpPort n = some d ∧
      s.pli n = ((s.sendRtcp n d rtcpPli).setScx n x).incW (Reg.SCX.PLI_SENT n) := by
  unfold State.pli
  extract_lets x hold free
  split
  · cases hd : s.rtcpPort n with
    | none => exact .inl rfl
    | some d => exact .inr ⟨d, _, rfl, rfl⟩
  · exact .inl rfl

theorem pli_winMem (s : State) (n : Nat) : (s.pli n).winMem = s.winMem := by
  obtain h | ⟨d, x, -, h⟩ := pli_cases s n <;> rw [h]
  rfl

theorem pli_dec (s : State) (n : Nat) : (s.pli n).dec = s.dec := by
  obtain h | ⟨d, x, -, h⟩ := pli_cases s n <;> rw [h]
  rfl

/-- A window whose picture is abandoned is flagged, and a PLI asked for. -/
theorem win_flagWin_pli (h : Wins.wf s = true) (w : Nat) (f : Word) (stream : Nat) :
    ((s.flagWin w f).pli stream).win w = { s.win w with flags := (s.win w).flags ||| f } :=
  (win_congr (ple_of_winMem (pli_winMem _ stream)) w).trans (win_flagWin h w f)

/-- A port from which RTCP leaves is one of the twelve. -/
theorem rtcpPort_lt {n : Nat} {d : RtcpDest} (h : s.rtcpPort n = some d) : d.port.toNat < 12 := by
  unfold State.rtcpPort at h
  split at h
  · split at h
    · next hup =>
      obtain rfl := Option.some.inj h
      exact of_decide_eq_true (Bool.and_eq_true_iff.1 hup).1
    · cases h
  · cases h

/-- An RTCP packet leaves as a frame, with the context's counters. -/
theorem sendRtcp_eq (s : State) (n : Nat) (d : RtcpDest) (feedback : Word → Word → Bytes) :
    ∃ x f, s.sendRtcp n d feedback = (s.drawn.setScx n x).transmit d.port.toNat f := ⟨_, _, rfl⟩

/-- Sending a frame counts in its port's TX_FRAMES and writes no other register. -/
theorem reg_transmit (h : Regs.wf s = true) (n : Nat) (f : Bytes) {b : Nat} (hb : b ≠ Reg.NIX.TX_FRAMES n) :
    (s.transmit n f).reg b = s.reg b :=
  (reg_incW (s := s.emit (.eth n f)) h (Reg.NIX.TX_FRAMES n) 1 b).trans (if_neg hb)

theorem wf_transmit (h : Regs.wf s = true) (n : Nat) (f : Bytes) : Regs.wf (s.transmit n f) = true :=
  Regs.wf_incW (s := s.emit (.eth n f)) h (Reg.NIX.TX_FRAMES n) 1

/-- A PLI writes no register of the decode cores or past them. -/
theorem reg_pli (h : Regs.wf s = true) {n : Nat} (hn : n < 256) {b : Nat} (hb : 0x200000 ≤ b) :
    (s.pli n).reg b = s.reg b := by
  obtain hp | ⟨d, x, hd, hp⟩ := pli_cases s n <;> rw [hp]
  have hport := rtcpPort_lt hd
  have hnix : b ≠ Reg.NIX.TX_FRAMES d.port.toNat := by
    unfold Reg.NIX.TX_FRAMES
    split <;> omega
  have hscx : b ≠ Reg.SCX.PLI_SENT n := by unfold Reg.SCX.PLI_SENT; omega
  obtain ⟨y, f, hs⟩ := sendRtcp_eq s n d rtcpPli
  rw [hs]
  have hw : Regs.wf (((s.drawn.setScx n y).transmit d.port.toNat f).setScx n x) = true :=
    wf_transmit (s := s.drawn.setScx n y) h d.port.toNat f
  rw [reg_incW hw, if_neg hscx]
  exact reg_transmit (s := s.drawn.setScx n y) h d.port.toNat f hnix

end Sys2Proof.Machine

/-!
SUPPORT. The commands of the decode cores and WINDOW_DONE of a DECODE window, each with an equation for the way it ends; and
O33.
-/
namespace Sys2Proof.Machine

variable {s : State}

/-! ### A core at work -/

/-- A core at work has a job, its window is one of the plan's, and the window's picture is under work. -/
theorem decAt_some {n : Nat} {j : DecJob} {e : PlanWindow} {q : PicRun} (h : s.decAt n = some (j, e, q)) :
    s.decOf n = some j ∧ s.planWin j.win.toNat = some e ∧ (s.win j.win.toNat).pic = some q := by
  unfold State.decAt at h
  split at h
  · cases h
  · split at h
    · cases h
    · next hj =>
      split at h
      · next he hq =>
        cases h
        exact ⟨hj, he, hq⟩
      · cases h

/-- The cores of a window are those whose job names it. -/
theorem mem_decJobs {w : Nat} {x : Nat × DecJob} :
    x ∈ s.decJobs w ↔ x.1 < 24 ∧ s.decOf x.1 = some x.2 ∧ x.2.win.toNat = w := by
  obtain ⟨m, k⟩ := x
  simp only [State.decJobs, List.mem_filterMap, List.mem_range]
  constructor
  · rintro ⟨n, hn, h⟩
    split at h
    · next j hj =>
      split at h
      · next hw =>
        cases h
        exact ⟨hn, hj, hw⟩
      · cases h
    · cases h
  · rintro ⟨hm, hk, hw⟩
    exact ⟨m, hm, by simp [hk, hw]⟩

/-- Entries made from distinct numbers, each under its number, have distinct numbers. -/
theorem pairwise_fst_filterMap {α : Type} {f : Nat → Option (Nat × α)} (hf : ∀ n x, f n = some x → n = x.1) {l : List Nat}
    (hl : l.Nodup) : (l.filterMap f).Pairwise fun x y => x.1 ≠ y.1 :=
  List.pairwise_filterMap.2 (hl.imp fun hne x hx y hy => hf _ x hx ▸ hf _ y hy ▸ hne)

/-- No core is listed twice. -/
theorem decJobs_pairwise (s : State) (w : Nat) : (s.decJobs w).Pairwise fun x y => x.1 ≠ y.1 := by
  refine pairwise_fst_filterMap (fun n x h => ?_) List.nodup_range
  split at h
  · split at h
    · cases h
      rfl
    · cases h
  · cases h

/-! ### DECODE_CHARGE_STOP (R144) -/

theorem execDecodeChargeStop_stops {core : BitVec 5} {j : DecJob} {e : PlanWindow} {q : PicRun} (hon : s.on)
    (hok : (U.dec core.toNat).ok = true) (hhas : s.has (U.dec core.toNat) = true)
    (hat : s.decAt core.toNat = some (j, e, q)) (hover : j.overrun = true) (hstop : j.stopped = false) (hdone : j.done = false) :
    exec (.decodeChargeStop core) s = .next ((((s.setDec core.toNat (some { j with stopped := true })).setPic j.win.toNat
      { q with abandoned := true }).flagWin j.win.toNat (bit1 5)).pli e.stream) := by
  change execDecodeChargeStop core s = _
  rw [execDecodeChargeStop, onUnit_on hon hok hhas]
  simp [hat, hover, hstop, hdone]

/-- The core has stopped, its picture is abandoned, and the window says so. -/
theorem chargeStop_effect (hwins : Wins.wf s = true) (hjobs : Jobs.wf s = true) (n w stream : Nat) (k : DecJob) (q : PicRun) :
    let u := (((s.setDec n (some k)).setPic w q).flagWin w (bit1 5)).pli stream
    u.decOf n = some k ∧ (u.win w).pic = some q ∧ (u.win w).flags = (s.win w).flags ||| bit1 5 := by
  intro u
  have hw : Wins.wf (s.setDec n (some k)) = true := hwins
  have hwin : u.win w = { s.win w with pic := some q, flags := (s.win w).flags ||| bit1 5 } := by
    rw [win_flagWin_pli (Wins.wf_setPic hw w q), win_setPic hw]
    rfl
  have hjob : u.decOf n = some k := by
    rw [decOf_congr (pli_dec _ stream)]
    exact (decOf_setDec hjobs n n (some k)).trans (if_pos rfl)
  exact ⟨hjob, by rw [hwin], by rw [hwin]⟩

/-! ### DECODE_ELAPSED_ABANDON (R144, R145) -/

/-- How many of a partition's units are kept: a free number of those of a core that had not finished, else all. -/
def State.cutUnits (busy : List Nat) (a : List Nat × State) (x : Nat × Nat) : List Nat × State :=
  if busy.contains x.2 then (a.1 ++ [(a.2.freeBits 32).toNat % (x.1 + 1)], a.2.drawn) else (a.1 ++ [x.1], a.2)

/-- Each cut keeps no more units than there were, and draws at most a free value. -/
theorem cutUnits_le (busy : List Nat) (a : List Nat × State) (x : Nat × Nat) :
    ∃ n k, State.cutUnits busy a x = (a.1 ++ [n], { a.2 with fresh := k }) ∧ n ≤ x.1 := by
  unfold State.cutUnits
  split
  · exact ⟨_, _, rfl, Nat.le_of_lt_succ (Nat.mod_lt _ (Nat.succ_pos _))⟩
  · exact ⟨_, _, rfl, Nat.le_refl _⟩

/-- So no partition has more units than before, and only free values were drawn. -/
theorem foldl_cutUnits (busy : List Nat) (l : List (Nat × Nat)) (a : List Nat × State) :
    ∃ r k, l.foldl (State.cutUnits busy) a = (a.1 ++ r, { a.2 with fresh := k }) ∧
      ∀ i, r.getD i 0 ≤ (l.map (·.1)).getD i 0 := by
  induction l generalizing a with
  | nil => exact ⟨[], a.2.fresh, by rw [List.append_nil]; rfl, fun _ => Nat.le_refl _⟩
  | cons x l ih =>
    obtain ⟨n, k, hx, hle⟩ := cutUnits_le busy a x
    obtain ⟨r, k', hl, hall⟩ := ih (State.cutUnits busy a x)
    refine ⟨n :: r, k', ?_, fun i => ?_⟩
    · rw [List.foldl_cons, hl, hx, List.append_assoc, List.singleton_append]
    · cases i with
      | zero => exact hle
      | succ i => exact hall i

/-- Pairing partitions with their cores drops those that have none. -/
theorem getD_zip_fst_le (units owner : List Nat) (i : Nat) :
    ((units.zip owner).map (·.1)).getD i 0 ≤ units.getD i 0 := by
  induction units generalizing owner i with
  | nil => exact Nat.le_refl _
  | cons n units ih =>
    cases owner with
    | nil => exact Nat.zero_le _
    | cons o owner =>
      cases i with
      | zero => exact Nat.le_refl _
      | succ i => exact ih owner i

/-- One core of the picture stops, counts and reports. -/
def State.abandonCore (w : Nat) (s : State) (x : Nat × DecJob) : State :=
  let s := ((s.raise (U.dec x.1) 9 (s.evWin w)).incW (Reg.DEC.ABANDONED x.1)).raise (U.dec x.1) 13 (s.evWin w)
  s.setDec x.1 (some { x.2 with stopped := true })

theorem execDecodeElapsedAbandon_abandons {core : BitVec 5} {j : DecJob} {e : PlanWindow} {q : PicRun} (hon : s.on)
    (hok : (U.dec core.toNat).ok = true) (hhas : s.has (U.dec core.toNat) = true)
    (hat : s.decAt core.toNat = some (j, e, q)) (hdone : j.done = false) (helapsed : q.elapsed = false) :
    let w := j.win.toNat
    let busy := ((s.decJobs w).filter fun x => !x.2.done).map fun x => x.2.part
    let r := (q.units.zip q.owner).foldl (State.cutUnits busy) ([], s)
    exec (.decodeElapsedAbandon core) s = .next ((((s.decJobs w).foldl (State.abandonCore w) (r.2.setPic w
      { q with units := r.1, abandoned := true, elapsed := true })).flagWin w (bit1 5)).pli e.stream) := by
  change execDecodeElapsedAbandon core s = _
  rw [execDecodeElapsedAbandon, onUnit_on hon hok hhas]
  simp only [hat, hdone, helapsed]
  rfl

theorem abandonCore_ple (w : Nat) (s : State) (x : Nat × DecJob) : (s.abandonCore w x).ple = s.ple := by
  simp [State.abandonCore]

theorem abandonCore_dec (w : Nat) (s : State) (x : Nat × DecJob) :
    (s.abandonCore w x).dec = (s.setDec x.1 (some { x.2 with stopped := true })).dec := by
  simp [State.abandonCore, State.setDec]

theorem Jobs.wf_abandonCore (h : Jobs.wf s = true) (w : Nat) (x : Nat × DecJob) : Jobs.wf (s.abandonCore w x) = true :=
  Jobs.wf_congr (abandonCore_dec w s x) (Jobs.wf_setDec h _ _)

theorem decOf_abandonCore (h : Jobs.wf s = true) (w : Nat) (x : Nat × DecJob) (m : Nat) :
    (s.abandonCore w x).decOf m = if m = x.1 then some { x.2 with stopped := true } else s.decOf m :=
  (decOf_congr (abandonCore_dec w s x) m).trans (decOf_setDec h _ _ _)

theorem wf_raise_dec (h : Regs.wf s = true) (n : Nat) {bit : Nat} (hb : bit ≠ 3) (win : EvWin) :
    Regs.wf (s.raise (U.dec n) bit win) = true :=
  wf_raise h (by simp) (by simp [fatalBit, hb]) win false

/-- An event of a decode core leaves the ABANDONED counts. -/
theorem reg_raise_dec (h : Regs.wf s = true) (n m : Nat) {bit : Nat} (hb : bit ≠ 3) (win : EvWin) :
    (s.raise (U.dec n) bit win).reg (Reg.DEC.ABANDONED m) = s.reg (Reg.DEC.ABANDONED m) := by
  refine reg_raise_other h (by simp) (by simp [fatalBit, hb]) win false ?_ ?_ ?_ <;>
    simp only [Reg.DEC.ABANDONED, pgErrCnt, pgErr, pgFirst, Inst.base] <;> omega

theorem Regs.wf_abandonCore (h : Regs.wf s = true) (w : Nat) (x : Nat × DecJob) : Regs.wf (s.abandonCore w x) = true :=
  wf_raise_dec (Regs.wf_incW (wf_raise_dec h x.1 (by decide) _) _ 1) x.1 (by decide) _

/-- ABANDONED of that core alone counts. -/
theorem reg_abandonCore (h : Regs.wf s = true) (w : Nat) (x : Nat × DecJob) (m : Nat) :
    (s.abandonCore w x).reg (Reg.DEC.ABANDONED m) =
      if m = x.1 then addWrap (s.reg (Reg.DEC.ABANDONED x.1)) 1 else s.reg (Reg.DEC.ABANDONED m) := by
  have h9 := wf_raise_dec h x.1 (bit := 9) (by decide) (s.evWin w)
  have hlast : (s.abandonCore w x).reg (Reg.DEC.ABANDONED m) =
      ((s.raise (U.dec x.1) 9 (s.evWin w)).incW (Reg.DEC.ABANDONED x.1)).reg (Reg.DEC.ABANDONED m) :=
    reg_raise_dec (Regs.wf_incW h9 _ 1) x.1 m (by decide) _
  have hm : Reg.DEC.ABANDONED m = Reg.DEC.ABANDONED x.1 ↔ m = x.1 := by simp only [Reg.DEC.ABANDONED]; omega
  rw [hlast, reg_incW h9, reg_raise_dec h _ _ (by decide), reg_raise_dec h _ _ (by decide)]
  simp only [hm]

section
variable {w : Nat} {l : List (Nat × DecJob)}

/-- Stopping the cores of a list leaves the windows alone. -/
theorem foldl_abandonCore_ple (w : Nat) (l : List (Nat × DecJob)) (s : State) : (l.foldl (State.abandonCore w) s).ple = s.ple :=
  foldl_keeps (P := fun t => t.ple = s.ple) _ (fun t x ht => (abandonCore_ple w t x).trans ht) l rfl

theorem Regs.wf_foldl_abandonCore (h : Regs.wf s = true) : Regs.wf (l.foldl (State.abandonCore w) s) = true :=
  foldl_keeps (P := fun t => Regs.wf t = true) _ (fun _ x ht => Regs.wf_abandonCore ht w x) l h

/-- A core that is not in the list keeps its job and its count. -/
theorem foldl_abandonCore_other (hr : Regs.wf s = true) (hj : Jobs.wf s = true) {m : Nat} (hm : ∀ x ∈ l, m ≠ x.1) :
    (l.foldl (State.abandonCore w) s).decOf m = s.decOf m ∧
      (l.foldl (State.abandonCore w) s).reg (Reg.DEC.ABANDONED m) = s.reg (Reg.DEC.ABANDONED m) := by
  induction l generalizing s with
  | nil => exact ⟨rfl, rfl⟩
  | cons x l ih =>
    obtain ⟨hx, hl⟩ := List.forall_mem_cons.1 hm
    obtain ⟨hdec, hreg⟩ := ih (Regs.wf_abandonCore hr w x) (Jobs.wf_abandonCore hj w x) hl
    exact ⟨hdec.trans ((decOf_abandonCore hj w x m).trans (if_neg hx)),
      hreg.trans ((reg_abandonCore hr w x m).trans (if_neg hx))⟩

/-- A core of the list has stopped and counted once. -/
theorem foldl_abandonCore_mem (hr : Regs.wf s = true) (hj : Jobs.wf s = true) (hl : l.Pairwise fun x y => x.1 ≠ y.1)
    {x : Nat × DecJob} (hx : x ∈ l) :
    (l.foldl (State.abandonCore w) s).decOf x.1 = some { x.2 with stopped := true } ∧
      (l.foldl (State.abandonCore w) s).reg (Reg.DEC.ABANDONED x.1) = addWrap (s.reg (Reg.DEC.ABANDONED x.1)) 1 := by
  induction l generalizing s with
  | nil => cases hx
  | cons y l ih =>
    obtain ⟨hy, hl⟩ := List.pairwise_cons.1 hl
    have hr' := Regs.wf_abandonCore hr w y
    have hj' := Jobs.wf_abandonCore hj w y
    rw [List.foldl_cons]
    rcases List.mem_cons.1 hx with rfl | hx
    · obtain ⟨hdec, hreg⟩ := foldl_abandonCore_other (w := w) hr' hj' hy
      exact ⟨hdec.trans ((decOf_abandonCore hj w x x.1).trans (if_pos rfl)),
        hreg.trans ((reg_abandonCore hr w x x.1).trans (if_pos rfl))⟩
    · obtain ⟨hdec, hreg⟩ := ih hr' hj' hl hx
      rw [reg_abandonCore hr, if_neg (hy x hx).symm] at hreg
      exact ⟨hdec, hreg⟩

end

/-- The picture is abandoned by elapsed time, the window says so, and every core of the window has stopped and counted. -/
theorem elapsedAbandon_effect (hregs : Regs.wf s = true) (hwins : Wins.wf s = true) (hjobs : Jobs.wf s = true) (w : Nat)
    {stream : Nat} (hstream : stream < 256) (k : Nat) (q : PicRun) :
    let v : State := { s with fresh := k }
    let u := (((s.decJobs w).foldl (State.abandonCore w) (v.setPic w q)).flagWin w (bit1 5)).pli stream
    (u.win w).pic = some q ∧ (u.win w).flags = (s.win w).flags ||| bit1 5 ∧
      ∀ x ∈ s.decJobs w, u.decOf x.1 = some { x.2 with stopped := true } ∧
        u.reg (Reg.DEC.ABANDONED x.1) = addWrap (s.reg (Reg.DEC.ABANDONED x.1)) 1 := by
  intro v u
  have hv : Wins.wf v = true := hwins
  have hple := foldl_abandonCore_ple w (s.decJobs w) (v.setPic w q)
  have hwin : u.win w = { s.win w with pic := some q, flags := (s.win w).flags ||| bit1 5 } := by
    rw [win_flagWin_pli (Wins.wf_congr hple (Wins.wf_setPic hv w q)), win_congr hple, win_setPic hv]
    rfl
  refine ⟨by rw [hwin], by rw [hwin], fun x hx => ?_⟩
  obtain ⟨hdec, hreg⟩ := foldl_abandonCore_mem (s := v.setPic w q) (w := w) hregs hjobs (decJobs_pairwise s w) hx
  have hr : Regs.wf ((s.decJobs w).foldl (State.abandonCore w) (v.setPic w q)) = true :=
    Regs.wf_foldl_abandonCore (s := v.setPic w q) hregs
  refine ⟨(decOf_congr (pli_dec _ stream) x.1).trans hdec, Eq.trans ?_ hreg⟩
  exact reg_pli (s := ((s.decJobs w).foldl (State.abandonCore w) (v.setPic w q)).flagWin w (bit1 5)) hr hstream
    (by simp only [Reg.DEC.ABANDONED]; omega)

/-! ### DECODE_CORE_COMPLETE (R142, R147) -/

theorem execDecodeCoreComplete_finishes {core : BitVec 5} {j : DecJob} {e : PlanWindow} {q : PicRun} (hon : s.on)
    (hok : (U.dec core.toNat).ok = true) (hhas : s.has (U.dec core.toNat) = true)
    (hat : s.decAt core.toNat = some (j, e, q)) (hdone : j.done = false) (hend : j.overrun = false ∨ j.stopped = true)
    (elapsed : Word) :
    exec (.decodeCoreComplete core elapsed) s = .next ((s.setDec core.toNat
      (some { j with done := true, elapsed := elapsed.toNat })).noteCharge core.toNat (q.chargeOf j.part) elapsed.toNat) := by
  have hgo : ¬(j.done = true ∨ (j.overrun = true ∧ (!j.stopped) = true)) := by
    rcases hend with h | h <;> simp [hdone, h]
  change execDecodeCoreComplete core elapsed s = _
  rw [execDecodeCoreComplete, onUnit_on hon hok hhas]
  simp only [hat, if_neg hgo]

theorem noteCharge_dec (s : State) (n charge elapsed : Nat) : (s.noteCharge n charge elapsed).dec = s.dec := by
  unfold State.noteCharge State.when
  dsimp only
  split <;> rfl

theorem reg_noteCharge_lastElapsed (h : Regs.wf s = true) (n charge elapsed : Nat) :
    (s.noteCharge n charge elapsed).reg (Reg.DEC.LAST_ELAPSED n) = BitVec.ofNat 32 elapsed := by
  have h1 := Regs.wf_setNum h (Reg.DEC.LAST_CHARGE n) (min (2 ^ 32 - 1) charge)
  have h2 := Regs.wf_setNum h1 (Reg.DEC.LAST_ELAPSED n) elapsed
  have hne : Reg.DEC.LAST_ELAPSED n ≠ Reg.DEC.MAX_RATIO n := by simp
  have hset := (reg_setNum h1 (Reg.DEC.LAST_ELAPSED n) elapsed (Reg.DEC.LAST_ELAPSED n)).trans (if_pos rfl)
  unfold State.noteCharge State.when
  dsimp only
  split
  · rw [reg_setNum h2, if_neg hne, hset]
  · exact hset

/-! ### WINDOW_DONE of a DECODE window (R134, R456) -/

theorem toPhase_self (s : State) : s.toPhase s.clock.phase.toNat = s :=
  if_neg fun ⟨_, hlt, _⟩ => Nat.lt_irrefl _ hlt

/-- With nothing due before it, a complete window goes to DONE where the clock stands. -/
theorem execWindowDone_completes {p : Plan} {w : BitVec 12} {e : PlanWindow} (hon : s.on) (hp : s.ple.plan = some p)
    (he : p.windows[w.toNat]? = some e) (hrun : s.running U.ple = true) (htick : s.ticking = true)
    (hst : (s.win w.toNat).st = .fired) (hwork : s.workDone w.toNat e = true) (hlt : s.clock.phase.toNat < e.deadline)
    (hcalm : s.calm (eventKey s.clock.phase.toNat w.toNat)) :
    exec (.windowDone w) s = .next (s.doneWin w.toNat e) := by
  have hmoment : s.winMoment p w.toNat e = some s.clock.phase.toNat := by simp [State.winMoment, hst, hwork, hlt]
  have hevent : s.winEvent p w.toNat e s.clock.phase.toNat = s.doneWin w.toNat e := by
    simp [State.winEvent, toPhase_self, hst, hwork, hlt]
  have hkind : ((s.win w.toNat).st == .fired && s.workDone w.toNat e && !s.reached e.deadline) = true := by
    simp [hst, hwork, State.reached, hlt]
  change execWindowDone w s = _
  rw [execWindowDone, onEvent, onWin, onCore_on hon]
  simp only [hp, he, hrun, htick, Bool.and_self, State.when_true, hkind, if_true, hmoment, runBefore_of_calm s _ hcalm, hevent,
    beq_self_eq_true]

/-! ### The end of a picture and of its window (R134, R150, R154) -/

@[simp ↓] theorem noteConceal_offDram (s : State) (n stream permille event : Nat) (win : EvWin) :
    (s.noteConceal n stream permille event win).offDram = s.offDram := by
  simp [State.noteConceal]

@[simp ↓] theorem readRefs_offDram (s : State) (q : PicRun) (u : Inst) (l : List Concealed) :
    (s.readRefs q u l).offDram = s.offDram := by
  simp [State.readRefs]

@[simp ↓] theorem writePicture_offDram (s : State) (q : PicRun) (cores : List (Nat × DecJob)) (addr : Nat) (b : Bytes) :
    (s.writePicture q cores addr b).offDram = s.offDram := by
  simp [State.writePicture]

@[simp ↓] theorem writeCopy_offDram (s : State) (u : Inst) (pic : PicRun) (table : Bytes) (lost : Bool)
    (store : List StorePic) (epoch sub slot : Nat) :
    (s.writeCopy u pic table lost store epoch sub slot).offDram = s.offDram := by
  simp [State.writeCopy]

/-- Finishing a picture is what it writes and counts, then its window's flags and concealed fraction, then perhaps a PLI. -/
theorem finishPicture_eq (s : State) (w : Nat) (e : PlanWindow) (au : AccessUnit) (q : PicRun) :
    ∃ (v : State) (f : Word) (x : WinRun) (c : Bool),
      s.finishPicture w e au q = ((v.flagWin w f).setWin w x).when c (fun t => t.pli e.stream) ∧ v.offDram = s.offDram := by
  refine ⟨_, _, _, _, rfl, ?_⟩
  simp

theorem finishPicture_wins_wf (h : Wins.wf s = true) (w : Nat) (e : PlanWindow) (au : AccessUnit) (q : PicRun) :
    Wins.wf (s.finishPicture w e au q) = true := by
  obtain ⟨v, f, x, c, hfinish, hv⟩ := finishPicture_eq s w e au q
  have hwin := Wins.wf_setWin (Wins.wf_flagWin (Wins.wf_congr (ple_of_offDram hv) h) w f) w x
  rw [hfinish, State.when]
  split
  · exact Wins.wf_congr (ple_of_winMem (pli_winMem _ e.stream)) hwin
  · exact hwin

theorem doneWin_decode {w : Nat} {e : PlanWindow} {au : AccessUnit} {q : PicRun} (hk : e.kind = 0)
    (hau : (s.win w).au = some au) (hq : (s.win w).pic = some q) :
    s.doneWin w e =
      let t := s.finishPicture w e au q
      ((t.setWin w { t.win w with st := .done }).decAbort w).tryClose w e := by
  simp [State.doneWin, State.finishDecode, State.dropWork, hk, hau, hq]

theorem closeWin_winMem (s : State) (w : Nat) (e : PlanWindow) : (s.closeWin w e).winMem =
    (s.setWin w { s.win w with st := .closed, closing := (s.win w).st, closeAt := some s.clock.phase }).winMem :=
  (releaseUnits_winMem _ e).trans (returnAu_winMem _ e _)

theorem win_closeWin (h : Wins.wf s = true) (w : Nat) (e : PlanWindow) : (s.closeWin w e).win w =
    { s.win w with st := .closed, closing := (s.win w).st, closeAt := some s.clock.phase } :=
  (win_congr (ple_of_winMem (closeWin_winMem s w e)) w).trans (win_setWin h w _)

theorem tryClose_dram (s : State) (w : Nat) (e : PlanWindow) : (s.tryClose w e).dram = s.dram := by
  unfold State.tryClose
  dsimp only
  split
  · exact (dram_of_winMem (closeWin_winMem s w e)).trans (State.setWin_dram s w _)
  · rfl

/-- A window that is DONE went to DONE, whether it then closes or not. -/
theorem tryClose_went_done (h : Wins.wf s = true) {w : Nat} (hst : (s.win w).st = .done) (e : PlanWindow) :
    ((s.tryClose w e).win w).went .done = true := by
  unfold State.tryClose
  dsimp only
  split
  · simp [win_closeWin h, WinRun.went, hst]
  · simp [WinRun.went, hst]

/-- A DECODE window that is complete leaves DRAM as finishing its picture does, and went to DONE. -/
theorem doneWin_decode_effect (h : Wins.wf s = true) {w : Nat} {e : PlanWindow} {au : AccessUnit} {q : PicRun} (hk : e.kind = 0)
    (hau : (s.win w).au = some au) (hq : (s.win w).pic = some q) :
    (s.doneWin w e).dram = (s.finishPicture w e au q).dram ∧ ((s.doneWin w e).win w).went .done = true := by
  have ht := finishPicture_wins_wf h w e au q
  rw [doneWin_decode hk hau hq]
  generalize s.finishPicture w e au q = t at ht ⊢
  have habort := decAbort_winMem (t.setWin w { t.win w with st := .done }) w
  have hple := ple_of_winMem habort
  have hdone := (win_congr hple w).trans (win_setWin ht w _)
  exact ⟨(tryClose_dram _ w e).trans ((dram_of_winMem habort).trans (State.setWin_dram t w _)),
    tryClose_went_done (Wins.wf_congr hple (Wins.wf_setWin ht w _)) (by rw [hdone]) e⟩

/-! ### The family -/

/-- Settles O33: each command by the equation for the way it ends, and what that leaves of the cores, the window and DRAM. -/
theorem decodeCoresStopAndFinish : Obligations.DecodeCoresStopAndFinish := by
  unfold Obligations.DecodeCoresStopAndFinish
  intro core j e q s hwf hon hok hhas hat hstream n w
  have hregs := State.wf_regs hwf
  have hwins := State.wf_wins hwf
  have hjobs := State.wf_jobs hwf
  obtain ⟨-, hplan, hpic⟩ := decAt_some hat
  refine ⟨fun hover hstop hdone => ?_, fun hdone helapsed => ?_, fun elapsed hdone hend => ?_,
    fun p au hp hrun htick hst hk hau hwork hlt hcalm => ?_⟩
  · exact ⟨_, execDecodeChargeStop_stops hon hok hhas hat hover hstop hdone, chargeStop_effect hwins hjobs n w e.stream _ _⟩
  · have hexec := execDecodeElapsedAbandon_abandons hon hok hhas hat hdone helapsed
    dsimp only at hexec
    obtain ⟨units, k, hcut, hle⟩ := foldl_cutUnits (((s.decJobs w).filter fun x => !x.2.done).map fun x => x.2.part)
      (q.units.zip q.owner) ([], s)
    rw [hcut] at hexec
    obtain ⟨hr, hf, hcores⟩ := elapsedAbandon_effect hregs hwins hjobs w hstream k
      { q with units := units, abandoned := true, elapsed := true }
    exact ⟨_, _, hexec, hr, rfl, rfl, fun i => Nat.le_trans (hle i) (getD_zip_fst_le q.units q.owner i), hf,
      fun m k hm hk hwin => hcores (m, k) (mem_decJobs.2 ⟨hm, hk, congrArg BitVec.toNat hwin⟩)⟩
  · refine ⟨execDecodeCoreComplete_finishes hon hok hhas hat hdone hend elapsed, ?_, ?_⟩
    · exact (reg_noteCharge_lastElapsed (s := s.setDec n _) hregs n _ _).trans (BitVec.ofNat_toNat 32 elapsed)
    · exact (decOf_congr (noteCharge_dec _ _ _ _) n).trans ((decOf_setDec hjobs n n _).trans (if_pos rfl))
  · have he : p.windows[j.win.toNat]? = some e := by simpa [State.planWin, hp] using hplan
    exact ⟨_, execWindowDone_completes hon hp he hrun htick hst hwork hlt hcalm, doneWin_decode_effect hwins hk hau hpic⟩

end Sys2Proof.Machine

/-!
SUPPORT. What reading and writing device memory leaves of the registers and the tiles: a beat writes registers of the DRAM
controllers alone, and reports of theirs alone; and so do a unit's requests.
-/
namespace Sys2Proof.Machine

/-- What a state `t` keeps of `s` when nothing but beats of device memory came between: the canonical form of the register file,
every register below the DRAM controllers' pages (Table 1.1), and the tiles. -/
structure BeatsOnly (s t : State) : Prop where
  wf : Regs.wf t = true
  reg : ∀ b < 0x300000, t.reg b = s.reg b
  tiles : t.tiles = s.tiles

namespace BeatsOnly

variable {s t v : State}

theorem refl (h : Regs.wf s = true) : BeatsOnly s s := ⟨h, fun _ _ => rfl, rfl⟩

/-- It rests on the registers and the tiles alone. -/
theorem congr (h : BeatsOnly s t) (hr : v.regs = t.regs) (ht : v.tiles = t.tiles) : BeatsOnly s v :=
  ⟨by rw [Regs.wf, hr]; exact h.wf, fun b hb => (reg_congr hr b).trans (h.reg b hb), ht.trans h.tiles⟩

theorem foldl {α : Type} (f : State → α → State) (hf : ∀ t x, BeatsOnly s t → BeatsOnly s (f t x)) (l : List α)
    (h : BeatsOnly s t) : BeatsOnly s (l.foldl f t) := foldl_keeps (P := BeatsOnly s) f hf l h

theorem setDmc (h : BeatsOnly s t) (c : Nat) (x : Dmc) : BeatsOnly s (t.setDmc c x) := h.congr rfl rfl

theorem setQueue (h : BeatsOnly s t) (c ch : Nat) (q : List WqEntry) : BeatsOnly s (t.setQueue c ch q) := h.setDmc c _

theorem setFaults (h : BeatsOnly s t) (k : Nat) (x : Nat × Nat) : BeatsOnly s (t.setFaults k x) := h.congr rfl rfl

theorem countBeat (h : BeatsOnly s t) (c ch port : Nat) : BeatsOnly s (t.countBeat c ch port) := h.setDmc c _

theorem storeBlock (h : BeatsOnly s t) (blk : Nat) (data : Bytes) (mark : Bool) : BeatsOnly s (t.storeBlock blk data mark) := by
  obtain ⟨hregs, -, htiles, -⟩ := storeBlock_frame t blk data mark
  exact h.congr hregs htiles

/-! ### Registers and events of a controller -/

/-- A register of a controller is written. -/
theorem setDmcReg (h : BeatsOnly s t) (c k : Nat) (w : Word) : BeatsOnly s (t.setReg (0x300000 + 0x10000 * c + k) w) :=
  ⟨Regs.wf_setReg h.wf _ w, fun b hb => (reg_setReg h.wf _ b w).trans ((if_neg (by omega)).trans (h.reg b hb)), h.tiles⟩

/-- An error event of a controller that changes no run state. -/
theorem raiseDmc (h : BeatsOnly s t) (c : Nat) {bit : Nat} (hbit : bit ≠ 3) : BeatsOnly s (t.raise (U.dmc c) bit) := by
  have hfatal : fatalBit (U.dmc c) bit = false := by simp [fatalBit, hbit]
  have hout : ∀ b < 0x300000, ∀ k, b ≠ (U.dmc c).base + k := fun b hb k => by simp only [Inst.base]; omega
  refine ⟨wf_raise h.wf (by simp) hfatal none false, fun b hb => ?_, ?_⟩
  · exact (reg_raise_other h.wf (by simp) hfatal none false (hout b hb _) (hout b hb _) (hout b hb _)).trans (h.reg b hb)
  · rw [raise_eq_event hfatal]
    exact (event_tiles t _ _ _ _).trans h.tiles

theorem setRankState (h : BeatsOnly s t) (c p v : Nat) : BeatsOnly s (t.setRankState c p v) := by
  unfold State.setRankState State.setNib
  split <;> exact h.setDmcReg c _ _

/-! ### Errors and ranks -/

theorem countCe (h : BeatsOnly s t) (c : Nat) : BeatsOnly s (t.countCe c) :=
  (h.setDmcReg c _ _).raiseDmc c (by decide)

theorem countUe (h : BeatsOnly s t) (c p blk : Nat) : BeatsOnly s (t.countUe c p blk) :=
  (((h.setDmcReg c _ _).setDmcReg c _ _).setDmcReg c _ _).raiseDmc c (by decide)

theorem rmwErrors (h : BeatsOnly s t) (c p blk errs : Nat) : BeatsOnly s (t.rmwErrors c p blk errs) := by
  unfold State.rmwErrors
  split
  · exact h
  · split
    · exact h.countCe c
    · exact h.countUe c p blk

theorem rankFault (h : BeatsOnly s t) (c p : Nat) : BeatsOnly s (t.rankFault c p) := by
  unfold State.rankFault
  dsimp only
  split
  · split
    · next m _ _ =>
      exact ((((h.setRankState c p 2).setRankState c m 3).setDmcReg c _ _).setDmc c _).raiseDmc c (by decide)
    · exact ((h.setRankState c p 5).raiseDmc c (by decide)).raiseDmc c (by decide)
  · exact ((((h.setRankState c p 4).setRankState c _ 5).setDmcReg c _ _).raiseDmc c (by decide)).raiseDmc c (by decide)
  · exact (h.setRankState c p 4).raiseDmc c (by decide)
  · exact h

theorem linkRetry (h : BeatsOnly s t) (c fails : Nat) : BeatsOnly s (t.linkRetry c fails) := by
  unfold State.linkRetry
  split
  · exact (h.setDmcReg c _ _).raiseDmc c (by decide)
  · exact h

/-! ### Beats -/

theorem refreshPair (h : BeatsOnly s t) (c rank pair : Nat) : BeatsOnly s (t.refreshPair c rank pair) := by
  unfold State.refreshPair
  dsimp only
  split
  · exact ((h.setDmcReg c _ _).setDmc c _).setDmc c _
  · exact (h.setDmc c _).setDmc c _

theorem activate (h : BeatsOnly s t) (c p bank row : Nat) : BeatsOnly s (t.activate c p bank row) := by
  unfold State.activate
  dsimp only
  split
  · exact h
  · split
    · exact (h.setDmc c _).setDmcReg c _ _
    · exact h.setDmc c _

theorem touch (h : BeatsOnly s t) (c p r : Nat) : BeatsOnly s (t.touch c p r) := by
  unfold State.touch
  dsimp only
  split
  · exact ((h.refreshPair c p _).activate c p _ _).activate c p _ _
  · exact (h.activate c p _ _).activate c p _ _

theorem beatTo (h : BeatsOnly s t) (c p r k : Nat) : BeatsOnly s (t.beatTo c p r k).2 := by
  unfold State.beatTo
  dsimp only
  exact ((h.touch c p r).setFaults _ _).linkRetry c _

theorem beatsTo (h : BeatsOnly s t) (c r k : Nat) (l : List Nat) : BeatsOnly s (t.beatsTo c r k l).1 := by
  induction l generalizing t with
  | nil => exact h
  | cons p l ih =>
    unfold State.beatsTo
    dsimp only
    exact ih (h.beatTo c p r k)

/-! ### The write queue -/

theorem drainEntry (h : BeatsOnly s t) (c : Nat) (e : WqEntry) : BeatsOnly s (t.drainEntry c e) := by
  unfold State.drainEntry State.when
  dsimp only
  split
  · exact h
  · refine foldl _ (fun _ p hv => hv.rankFault c p) _ (storeBlock (beatsTo (rmwErrors ?_ c _ _ _) c _ _ _) _ _ _)
    split
    · exact h.setDmcReg c _ _
    · exact h

theorem drainTo (h : BeatsOnly s t) (c ch n : Nat) : BeatsOnly s (t.drainTo c ch n) :=
  foldl _ (fun _ e hv => hv.drainEntry c e) _ (h.setQueue c ch _)

theorem enqueueWrite (h : BeatsOnly s t) (e : WqEntry) : BeatsOnly s (t.enqueueWrite e) := by
  unfold State.enqueueWrite
  dsimp only
  split
  · exact (h.drainTo _ _ 16).setQueue _ _ _
  · exact h.setQueue _ _ _

/-! ### Requests of units -/

theorem readStored (h : BeatsOnly s t) (blk : Nat) : BeatsOnly s (t.readStored blk) := by
  unfold State.readStored
  dsimp only
  have hbeat := h.beatTo (t.spot (blk * 64)).ctl (t.readRank (t.spot (blk * 64))) (t.spot (blk * 64)).r (blk % 4)
  repeat' split
  · exact hbeat.rankFault _ _
  · exact hbeat.setDmcReg _ _ _
  · exact hbeat
  · exact (hbeat.countCe _).enqueueWrite _
  · exact ((hbeat.countUe _ _ _).storeBlock _ _ _).rankFault _ _

theorem readEffect (h : BeatsOnly s t) (port blk : Nat) : BeatsOnly s (t.readEffect port blk) := by
  have hcount := h.countBeat (t.spot (blk * 64)).ctl (t.readRank (t.spot (blk * 64)) / 2) port
  unfold State.readEffect
  dsimp only
  split
  · exact h
  · split
    · split
      · exact hcount.setDmcReg _ _ _
      · exact (((hcount.setDmcReg _ _ _).setQueue _ _ _).drainEntry _ _).readStored blk
    · exact hcount.readStored blk

theorem writeBlock (h : BeatsOnly s t) (u : Inst) (e : WqEntry) : BeatsOnly s (t.writeBlock u e) := by
  unfold State.writeBlock
  dsimp only
  repeat' split
  · exact h
  · exact h.congr rfl rfl
  · exact h
  · exact (h.countBeat _ _ _).enqueueWrite e

theorem writeMem (h : BeatsOnly s t) (u : Inst) (a : Nat) (data : Bytes) (mark : Bool) :
    BeatsOnly s (t.writeMem u a data mark) :=
  foldl _ (fun _ _ hv => hv.writeBlock u _) _ h

end BeatsOnly

end Sys2Proof.Machine

/-!
SUPPORT. The commands of the lens engines, each with an equation for the way it ends; and O34.
-/
namespace Sys2Proof.Machine

variable {s t : State}

/-- What holds with and without an effect holds where the effect is conditional. -/
theorem when_keeps {P : State → Prop} (c : Bool) (f : State → State) (hs : P s) (hf : P (f s)) : P (s.when c f) := by
  cases c
  · exact hs
  · exact hf

/-! ### Engines -/

/-- The engines' jobs are in canonical form. -/
def Engines.wf (s : State) : Bool := SMap.wf (fun _ => none) s.lns

theorem State.wf_engines (h : s.wf = true) : Engines.wf s = true := by
  simp only [State.wf, State.unitsWf, Bool.and_eq_true, and_assoc] at h
  obtain ⟨-, -, -, -, -, hlns, -⟩ := h
  exact hlns

theorem Engines.wf_congr (hl : t.lns = s.lns) (h : Engines.wf s = true) : Engines.wf t = true := by rwa [Engines.wf, hl]

theorem lnsOf_congr (hl : t.lns = s.lns) (n : Nat) : t.lnsOf n = s.lnsOf n := by rw [State.lnsOf, hl, State.lnsOf]

/-- An engine's job reads what was written to it. -/
theorem lnsOf_setLns (h : Engines.wf s = true) (n : Nat) (x : Option LnsJob) : (s.setLns n x).lnsOf n = x :=
  (SMap.get_set _ (SMap.rising_of_wf h) n n x).trans (if_pos rfl)

theorem lns_of_offDram (h : t.offDram = s.offDram) : t.lns = s.lns := congrArg (fun x => x.1.2.2.2.2.2.2.2.2.1) h

@[simp] theorem raise_lns (s : State) (u : Inst) (bit : Nat) (win : EvWin) (inj : Bool) :
    (s.raise u bit win inj).lns = s.lns := lns_of_offDram (raise_offDram s u bit win inj)

/-! ### Error events of an engine (R17) -/

section
variable (h : Regs.wf s = true) (n : Nat) {bit : Nat} (hbit : bit ≠ 3) (win : EvWin)
include hbit

theorem fatalBit_lns : fatalBit (U.lns n) bit = false := by simp [fatalBit, hbit]

theorem raise_lns_tiles : (s.raise (U.lns n) bit win).tiles = s.tiles := by
  rw [raise_eq_event (fatalBit_lns n hbit)]
  exact event_tiles s _ _ _ _

include h

theorem wf_raise_lns : Regs.wf (s.raise (U.lns n) bit win) = true :=
  wf_raise h (by simp) (fatalBit_lns n hbit) win false

/-- An event of an engine leaves the engine's own registers, the first of which is CURRENT. -/
theorem reg_raise_lns {b : Nat} (hb : Reg.LNS.CURRENT n ≤ b) : (s.raise (U.lns n) bit win).reg b = s.reg b := by
  unfold Reg.LNS.CURRENT at hb
  refine reg_raise_other h (by simp) (fatalBit_lns n hbit) win false ?_ ?_ ?_ <;>
    simp only [pgErrCnt, pgErr, pgFirst, Inst.base] <;> omega

end

/-! ### AUG_READ_DONE and AUG_READ_TIMEOUT (R172, R173) -/

theorem execAugReadDone_acts {i : BitVec 3} {j : LnsJob} {p : Plan} {w : PlanWindow} {q : PlanProgram} {d : LnsDesc} (hon : s.on)
    (hok : (U.lns i.toNat).ok = true) (hhas : s.has (U.lns i.toNat) = true) (hat : s.lensAt i.toNat = some (j, p, w, q, d))
    (hset : j.settled = false) (hread : s.augPending j = false) :
    exec (.augReadDone i) s = .next (s.augAct i.toNat j w d.ring) := by
  change execAugReadDone i s = _
  rw [execAugReadDone, onUnit_on hon hok hhas]
  simp [hat, hset, hread]

theorem execAugReadTimeout_defaults {i : BitVec 3} {j : LnsJob} {p : Plan} {w : PlanWindow} {q : PlanProgram} {d : LnsDesc}
    (hon : s.on) (hok : (U.lns i.toNat).ok = true) (hhas : s.has (U.lns i.toNat) = true)
    (hat : s.lensAt i.toNat = some (j, p, w, q, d)) (hset : j.settled = false) (hread : s.augPending j = true) :
    exec (.augReadTimeout i) s = .next (s.augDefault i.toNat 1 j w) := by
  change execAugReadTimeout i s = _
  rw [execAugReadTimeout, onUnit_on hon hok hhas]
  simp [hat, hset, hread]

/-- A read that brought nothing settles the parameters as identity, with cause 1 (Table 6.6). -/
theorem augAct_nothing {j : LnsJob} (hraw : j.raw = none) (n : Nat) (w : PlanWindow) (ring : Nat) :
    s.augAct n j w ring = s.augDefault n 1 j w := by simp [State.augAct, hraw]

/-- Engine n names the cause of its default parameters, and counts. -/
def State.countDefault (s : State) (n cause stream : Nat) : State :=
  (s.setNum (Reg.LNS.LAST_AUG n) (2 ^ 31 + cause * 2 ^ 16 + stream * 256)).incW (Reg.LNS.AUG_DEFAULT n)

/-- Engine n reports default parameters, and flags the window. -/
def State.reportDefault (s : State) (n w : Nat) : State := (s.raise (U.lns n) 10 (s.evWin w)).flagWin w (bit1 8)

theorem augDefault_eq (s : State) (n cause : Nat) (j : LnsJob) (w : PlanWindow) :
    s.augDefault n cause j w = ((s.setLns n (some { j with tag := none, raw := none, settled := true, aug := [] })).countDefault n
      cause w.stream).reportDefault n j.win.toNat := rfl

theorem countDefault_effect (h : Regs.wf s = true) (n cause stream : Nat) :
    let u := s.countDefault n cause stream
    Regs.wf u = true ∧ u.lns = s.lns ∧ u.ple = s.ple ∧
      u.reg (Reg.LNS.LAST_AUG n) = BitVec.ofNat 32 (2 ^ 31 + cause * 2 ^ 16 + stream * 256) ∧
      u.reg (Reg.LNS.AUG_DEFAULT n) = addWrap (s.reg (Reg.LNS.AUG_DEFAULT n)) 1 := by
  have hnamed := Regs.wf_setNum h (Reg.LNS.LAST_AUG n) (2 ^ 31 + cause * 2 ^ 16 + stream * 256)
  unfold State.countDefault
  refine ⟨Regs.wf_incW hnamed _ 1, by simp, by simp, ?_, ?_⟩
  · rw [reg_incW hnamed, if_neg (by simp), reg_setNum h, if_pos rfl]
  · rw [reg_incW hnamed, if_pos rfl, reg_setNum h, if_neg (by simp)]

theorem reportDefault_effect (h : Regs.wf s = true) (hwins : Wins.wf s = true) (n w : Nat) :
    let u := s.reportDefault n w
    u.lns = s.lns ∧ (∀ b, Reg.LNS.CURRENT n ≤ b → u.reg b = s.reg b) ∧ (u.win w).flags = (s.win w).flags ||| bit1 8 := by
  have hple := raise_ple s (U.lns n) 10 (s.evWin w) false
  unfold State.reportDefault
  refine ⟨raise_lns s _ _ _ _, fun b hb => reg_raise_lns h n (by decide) _ hb, ?_⟩
  rw [win_flagWin (Wins.wf_congr hple hwins), win_congr hple]

/-- What settling as identity leaves: the engine's job, the registers that name the cause and count, and the window's flag. -/
theorem augDefault_effect (hregs : Regs.wf s = true) (hwins : Wins.wf s = true) (heng : Engines.wf s = true) (n cause : Nat)
    (j : LnsJob) (w : PlanWindow) :
    let u := s.augDefault n cause j w
    u.lnsOf n = some { j with tag := none, raw := none, settled := true, aug := [] } ∧
      u.reg (Reg.LNS.LAST_AUG n) = BitVec.ofNat 32 (2 ^ 31 + cause * 2 ^ 16 + w.stream * 256) ∧
      u.reg (Reg.LNS.AUG_DEFAULT n) = addWrap (s.reg (Reg.LNS.AUG_DEFAULT n)) 1 ∧
      (u.win j.win.toNat).flags = (s.win j.win.toNat).flags ||| bit1 8 := by
  rw [augDefault_eq]
  obtain ⟨hwf, hlns, hple, hlast, hcount⟩ := countDefault_effect (s := s.setLns n (some { j with
    tag := none, raw := none, settled := true, aug := [] })) hregs n cause w.stream
  rw [State.setLns_ple] at hple
  obtain ⟨hlns', hreg, hflags⟩ := reportDefault_effect hwf (Wins.wf_congr hple hwins) n j.win.toNat
  rw [win_congr hple] at hflags
  exact ⟨(lnsOf_congr (hlns'.trans hlns) n).trans (lnsOf_setLns heng n _), (hreg _ (by simp)).trans hlast,
    (hreg _ (by simp)).trans hcount, hflags⟩

/-! ### LENS_PROGRAM_COMPLETE (R166, R182) -/

/-- The picture that a program reads: the entry found at firing, at its buffer of the picture store. -/
def State.lensSource (s : State) (p : Plan) (w : PlanWindow) (q : PlanProgram) (j : LnsJob) : Option LnsSrc :=
  match j.src, s.storeGeometry p w.stream with
  | some x, some g => some { addr := p.refAddr ((p.refsOf q).getD 1 default) + x.buffer * g.bufBytes, geo := g, ent := x }
  | _, _ => none

/-- Engine n writes every output of a program in turn; the clipped elements of all. -/
def State.lensOutputs (s : State) (n : Nat) (p : Plan) (q : PlanProgram) (d : LnsDesc) (j : LnsJob) (src : Option LnsSrc) :
    Nat × State :=
  d.outs.zipIdx.foldl (fun a x => (a.1 + (a.2.lensOutput n p q d j src x.2 x.1).1, (a.2.lensOutput n p q d j src x.2 x.1).2)) (0, s)

/-- Engine n counts the clipped elements of a frame, and reports those above its threshold. -/
def State.countClipped (s : State) (n w clipped : Nat) : State :=
  let s := (s.setNum (Reg.LNS.LAST_SAT n) clipped).incS (Reg.LNS.SAT_CNT n) clipped
  s.when (decide ((s.reg (Reg.LNS.SAT_THRESH n)).toNat < clipped)) fun s => s.raise (U.lns n) 11 (s.evWin w)

/-- MAX_RATIO of engine n takes a ratio above its own. -/
def State.keepRatio (s : State) (n ratio : Nat) : State :=
  s.when (decide (s.rfld (Reg.LNS.MAX_RATIO n) 10 0 < ratio)) fun s => s.setNum (Reg.LNS.MAX_RATIO n) ratio

/-- Engine n counts a frame, with its charge and its elapsed cycles. -/
def State.countFrame (s : State) (n charge : Nat) (elapsed : Word) : State :=
  (((s.incW (Reg.LNS.FRAMES n)).setNum (Reg.LNS.LAST_CHARGE n) charge).setReg (Reg.LNS.LAST_ELAPSED n) elapsed).keepRatio n
    (min 2047 (1000 * elapsed.toNat / charge))

theorem execLensProgramComplete_finishes {i : BitVec 3} {j : LnsJob} {p : Plan} {w : PlanWindow} {q : PlanProgram} {d : LnsDesc}
    (hon : s.on) (hok : (U.lns i.toNat).ok = true) (hhas : s.has (U.lns i.toNat) = true)
    (hat : s.lensAt i.toNat = some (j, p, w, q, d)) (hset : j.settled = true) (hdone : j.done = false) (elapsed : Word) :
    let n := i.toNat
    let src := s.lensSource p w q j
    let r := s.lensOutputs n p q d j src
    exec (.lensProgramComplete i elapsed) s = .next ((((r.2.lensInput n j.win.toNat (d.inputBlocks p q src)).countClipped n
      j.win.toNat r.1).countFrame n d.charge elapsed).setLns n (some { j with done := true })) := by
  have hgo : ¬((!j.settled) = true ∨ j.done = true) := by simp [hset, hdone]
  change execLensProgramComplete i elapsed s = _
  rw [execLensProgramComplete, onUnit_on hon hok hhas]
  simp only [hat, if_neg hgo]
  rfl

/-- Writing an output leaves the engines' jobs. -/
theorem lensOutput_lns (s : State) (n : Nat) (p : Plan) (q : PlanProgram) (d : LnsDesc) (j : LnsJob) (src : Option LnsSrc)
    (k : Nat) (o : LnsOut) : (s.lensOutput n p q d j src k o).2.lns = s.lns := by
  unfold State.lensOutput
  dsimp only
  split
  · rfl
  · exact (lns_of_offDram (writeMem_offDram s.drawn _ _ _ _)).trans (State.drawn_lns s)

/-- Writing an output, to a tile store or to DRAM, leaves the registers below the DRAM controllers' pages. -/
theorem lensOutput_regs (h : Regs.wf s = true) (n : Nat) (p : Plan) (q : PlanProgram) (d : LnsDesc) (j : LnsJob)
    (src : Option LnsSrc) (k : Nat) (o : LnsOut) :
    let u := (s.lensOutput n p q d j src k o).2
    Regs.wf u = true ∧ ∀ b < 0x300000, u.reg b = s.reg b := by
  unfold State.lensOutput
  dsimp only
  split
  · exact ⟨h, fun _ _ => rfl⟩
  · have hbeats := (BeatsOnly.refl (s := s.drawn) h).writeMem
    exact ⟨(hbeats _ _ _ _).wf, (hbeats _ _ _ _).reg⟩

theorem lensOutputs_lns (s : State) (n : Nat) (p : Plan) (q : PlanProgram) (d : LnsDesc) (j : LnsJob) (src : Option LnsSrc) :
    (s.lensOutputs n p q d j src).2.lns = s.lns :=
  foldl_keeps (P := fun a : Nat × State => a.2.lns = s.lns) _ (fun a x ha => (lensOutput_lns a.2 n p q d j src x.2 x.1).trans ha)
    _ rfl

theorem lensOutputs_regs (h : Regs.wf s = true) (n : Nat) (p : Plan) (q : PlanProgram) (d : LnsDesc) (j : LnsJob)
    (src : Option LnsSrc) :
    let u := (s.lensOutputs n p q d j src).2
    Regs.wf u = true ∧ ∀ b < 0x300000, u.reg b = s.reg b := by
  refine foldl_keeps (P := fun a : Nat × State => Regs.wf a.2 = true ∧ ∀ b < 0x300000, a.2.reg b = s.reg b) _ (fun a x ha => ?_)
    _ ⟨h, fun _ _ => rfl⟩
  obtain ⟨hwf, hreg⟩ := lensOutput_regs ha.1 n p q d j src x.2 x.1
  exact ⟨hwf, fun b hb => (hreg b hb).trans (ha.2 b hb)⟩

/-- Reading the input leaves the engines' jobs. -/
theorem lensInput_lns (s : State) (n w : Nat) (blocks : List Nat) : (s.lensInput n w blocks).lns = s.lns := by
  have hread : (blocks.foldl (fun s b => s.readEffect (portOf (U.lns n)) b) s).lns = s.lns :=
    lns_of_offDram (foldl_offDram _ blocks s fun b blk => readEffect_offDram b (portOf (U.lns n)) blk)
  unfold State.lensInput
  refine when_keeps (P := fun u => u.lns = s.lns) _ _ hread ?_
  rw [State.flagWin, State.setWin_lns, State.incS_lns, hread]

/-- Reading the input leaves the tiles, and of the registers below the DRAM controllers' pages all but POISON_CNT. -/
theorem lensInput_regs (h : Regs.wf s = true) (n w : Nat) (blocks : List Nat) :
    let u := s.lensInput n w blocks
    Regs.wf u = true ∧ u.tiles = s.tiles ∧ ∀ b < 0x300000, b ≠ Reg.LNS.POISON_CNT n → u.reg b = s.reg b := by
  have hread : BeatsOnly s (blocks.foldl (fun s b => s.readEffect (portOf (U.lns n)) b) s) :=
    BeatsOnly.foldl _ (fun _ blk hv => hv.readEffect _ blk) blocks (BeatsOnly.refl h)
  unfold State.lensInput
  dsimp only
  generalize blocks.foldl (fun s b => s.readEffect (portOf (U.lns n)) b) s = t at hread ⊢
  refine when_keeps (P := fun u => Regs.wf u = true ∧ u.tiles = s.tiles ∧
    ∀ b < 0x300000, b ≠ Reg.LNS.POISON_CNT n → u.reg b = s.reg b) _ _ ?_ ?_
  · exact ⟨hread.wf, hread.tiles, fun b hb _ => hread.reg b hb⟩
  · refine ⟨Regs.wf_incS hread.wf _ _, hread.tiles, fun b hb hne => ?_⟩
    exact (reg_congr (State.setWin_regs _ w _) b).trans ((reg_incS hread.wf _ _ b).trans ((if_neg hne).trans (hread.reg b hb)))

theorem countClipped_lns (s : State) (n w clipped : Nat) : (s.countClipped n w clipped).lns = s.lns := by
  unfold State.countClipped
  refine when_keeps (P := fun u => u.lns = s.lns) _ _ ?_ ?_ <;> simp

/-- LAST_SAT takes the count; the tiles and FRAMES stay. -/
theorem countClipped_effect (h : Regs.wf s = true) (n w clipped : Nat) :
    let u := s.countClipped n w clipped
    Regs.wf u = true ∧ u.tiles = s.tiles ∧ u.reg (Reg.LNS.LAST_SAT n) = BitVec.ofNat 32 clipped ∧
      u.reg (Reg.LNS.FRAMES n) = s.reg (Reg.LNS.FRAMES n) := by
  have hset := Regs.wf_setNum h (Reg.LNS.LAST_SAT n) clipped
  have hinc := Regs.wf_incS hset (Reg.LNS.SAT_CNT n) clipped
  have hsat : ((s.setNum (Reg.LNS.LAST_SAT n) clipped).incS (Reg.LNS.SAT_CNT n) clipped).reg (Reg.LNS.LAST_SAT n) =
      BitVec.ofNat 32 clipped := by
    rw [reg_incS hset, if_neg (by simp), reg_setNum h, if_pos rfl]
  have hframes : ((s.setNum (Reg.LNS.LAST_SAT n) clipped).incS (Reg.LNS.SAT_CNT n) clipped).reg (Reg.LNS.FRAMES n) =
      s.reg (Reg.LNS.FRAMES n) := by
    rw [reg_incS hset, if_neg (by simp), reg_setNum h, if_neg (by simp)]
  refine when_keeps (P := fun u => Regs.wf u = true ∧ u.tiles = s.tiles ∧ u.reg (Reg.LNS.LAST_SAT n) = BitVec.ofNat 32 clipped ∧
    u.reg (Reg.LNS.FRAMES n) = s.reg (Reg.LNS.FRAMES n)) _ _ ⟨hinc, rfl, hsat, hframes⟩ ?_
  exact ⟨wf_raise_lns hinc n (by decide) _, raise_lns_tiles n (by decide) _,
    (reg_raise_lns hinc n (by decide) _ (by simp)).trans hsat, (reg_raise_lns hinc n (by decide) _ (by simp)).trans hframes⟩

/-- MAX_RATIO apart, keeping the ratio leaves the registers, the jobs and the tiles. -/
theorem keepRatio_frame (h : Regs.wf s = true) (n ratio : Nat) :
    let u := s.keepRatio n ratio
    u.lns = s.lns ∧ u.tiles = s.tiles ∧ ∀ b, b ≠ Reg.LNS.MAX_RATIO n → u.reg b = s.reg b := by
  unfold State.keepRatio
  refine when_keeps (P := fun u => u.lns = s.lns ∧ u.tiles = s.tiles ∧ ∀ b, b ≠ Reg.LNS.MAX_RATIO n → u.reg b = s.reg b) _ _ ?_ ?_
  · exact ⟨rfl, rfl, fun _ _ => rfl⟩
  · exact ⟨rfl, rfl, fun b hb => (reg_setNum h _ _ b).trans (if_neg hb)⟩

/-- A counted frame leaves the jobs, the tiles and LAST_SAT. -/
theorem countFrame_effect (h : Regs.wf s = true) (n charge : Nat) (elapsed : Word) :
    let u := s.countFrame n charge elapsed
    u.lns = s.lns ∧ u.tiles = s.tiles ∧ u.reg (Reg.LNS.LAST_SAT n) = s.reg (Reg.LNS.LAST_SAT n) ∧
      u.reg (Reg.LNS.FRAMES n) = addWrap (s.reg (Reg.LNS.FRAMES n)) 1 ∧
      u.reg (Reg.LNS.LAST_CHARGE n) = BitVec.ofNat 32 charge ∧ u.reg (Reg.LNS.LAST_ELAPSED n) = elapsed := by
  have hinc := Regs.wf_incW h (Reg.LNS.FRAMES n) 1
  have hset := Regs.wf_setNum hinc (Reg.LNS.LAST_CHARGE n) charge
  have hend := Regs.wf_setReg hset (Reg.LNS.LAST_ELAPSED n) elapsed
  unfold State.countFrame
  obtain ⟨hlns, htiles, hreg⟩ := keepRatio_frame hend n (min 2047 (1000 * elapsed.toNat / charge))
  refine ⟨hlns.trans (by simp), htiles.trans (by simp), ?_, ?_, ?_, ?_⟩ <;>
    rw [hreg _ (by simp), reg_setReg hset, reg_setNum hinc, reg_incW h] <;> simp

/-- What the end of a program leaves after its outputs: the tiles as the outputs left them, the engine finished, its clipped
elements, its frame, its charge and its elapsed cycles. -/
theorem lensProgram_effect (hregs : Regs.wf s = true) (heng : Engines.wf s = true) {n : Nat} (hn : n < 8) (p : Plan)
    (q : PlanProgram) (d : LnsDesc) (j : LnsJob) (src : Option LnsSrc) (blocks : List Nat) (x : LnsJob) (elapsed : Word) :
    let r := s.lensOutputs n p q d j src
    let u := (((r.2.lensInput n j.win.toNat blocks).countClipped n j.win.toNat r.1).countFrame n d.charge elapsed).setLns n (some x)
    u.tiles = r.2.tiles ∧ u.reg (Reg.LNS.LAST_SAT n) = BitVec.ofNat 32 r.1 ∧ u.lnsOf n = some x ∧
      u.reg (Reg.LNS.FRAMES n) = addWrap (s.reg (Reg.LNS.FRAMES n)) 1 ∧
      u.reg (Reg.LNS.LAST_CHARGE n) = BitVec.ofNat 32 d.charge ∧ u.reg (Reg.LNS.LAST_ELAPSED n) = elapsed := by
  intro r u
  obtain ⟨hwf, hreg⟩ := lensOutputs_regs hregs n p q d j src
  obtain ⟨hwf', htiles', hreg'⟩ := lensInput_regs hwf n j.win.toNat blocks
  obtain ⟨hwf'', htiles'', hsat, hframes⟩ := countClipped_effect hwf' n j.win.toNat r.1
  obtain ⟨hlns, htiles, hkeep, hframe, hcharge, helapsed⟩ := countFrame_effect hwf'' n d.charge elapsed
  have hin : Reg.LNS.FRAMES n < 0x300000 := by simp only [Reg.LNS.FRAMES]; omega
  have hbefore := (hreg' _ hin (by simp)).trans (hreg _ hin)
  have hjobs := hlns.trans ((countClipped_lns _ n _ _).trans ((lensInput_lns _ n _ _).trans (lensOutputs_lns s n p q d j src)))
  exact ⟨htiles.trans (htiles''.trans htiles'), hkeep.trans hsat, lnsOf_setLns (Engines.wf_congr hjobs heng) n _,
    hframe.trans (congrArg (addWrap · 1) (hframes.trans hbefore)), hcharge, helapsed⟩

/-! ### The family -/

/-- Settles O34: each command by the equation for the way it ends, and what that leaves of the engine, its registers, its window
and the tiles. -/
theorem lensEnginesFinish : Obligations.LensEnginesFinish := by
  unfold Obligations.LensEnginesFinish
  intro i j p w q d s hwf hon hok hhas hat n identity
  have hregs := State.wf_regs hwf
  have heng := State.wf_engines hwf
  have hidentity : identity (s.augDefault n 1 j w) := augDefault_effect hregs (State.wf_wins hwf) heng n 1 j w
  refine ⟨fun hset hread => ⟨execAugReadDone_acts hon hok hhas hat hset hread, fun hraw => ?_⟩, fun hset hread => ?_,
    fun elapsed hset hdone => ?_⟩
  · rw [augAct_nothing hraw]
    exact hidentity
  · exact ⟨_, execAugReadTimeout_defaults hon hok hhas hat hset hread, hidentity⟩
  · obtain ⟨htiles, hsat, hend⟩ := lensProgram_effect hregs heng i.isLt p q d j (s.lensSource p w q j)
      (d.inputBlocks p q (s.lensSource p w q j)) { j with done := true } elapsed
    exact ⟨_, htiles, hsat, execLensProgramComplete_finishes hon hok hhas hat hset hdone elapsed, hend⟩

end Sys2Proof.Machine
